-- ==== Sys2Proof/Word.lean ====
section
/-!
DEFINITION. The words and bytes of the HZ9240 (R8: registers are 32 bits wide). Nothing here depends on the
machine's state.
-/

namespace Sys2Proof

/-- One byte. -/
abbrev Byte := BitVec 8

/-- A byte string, first byte at the lowest offset. -/
abbrev Bytes := List Byte

/-- A 32-bit register (R8). -/
abbrev Word := BitVec 32

end Sys2Proof
end

