-- ==== Sys2Proof/Machine/SMap.lean ====
section
/-!
DEFINITION. Sparse maps: the one representation of every large indexed store of the device (its register file, its
memory words, its ports, ledgers, key records and the like). A map is a list of (key, value) pairs with keys strictly
rising and no entry equal to what an unlisted key reads as, so equal stores are equal lists.
-/

namespace Sys2Proof.Machine

/-- A sparse map from numbers: what an unlisted key holds is given by the default function of the store. -/
abbrev SMap (α : Type) := List (Nat × α)

/-- The value a map holds at `k`; `d` says what an unlisted key holds. -/
def SMap.get {α : Type} (d : Nat → α) : SMap α → Nat → α
  | [], k => d k
  | (k', v) :: m, k => if k = k' then v else SMap.get d m k

/-- Put `v` at `k`, whatever it is, keeping the keys in rising order. -/
def SMap.put {α : Type} : SMap α → Nat → α → SMap α
  | [], k, v => [(k, v)]
  | (k', v') :: m, k, v =>
    if k < k' then (k, v) :: (k', v') :: m
    else if k = k' then (k, v) :: m
    else (k', v') :: SMap.put m k v

/-- Unlist `k`. -/
def SMap.erase {α : Type} (m : SMap α) (k : Nat) : SMap α := m.filter fun p => p.1 != k

/-- Write `v` at `k`: writing what an unlisted key reads as unlists the key. -/
def SMap.set {α : Type} [DecidableEq α] (d : Nat → α) (m : SMap α) (k : Nat) (v : α) : SMap α :=
  if v = d k then m.erase k else m.put k v

/-- The entry listed at `k`, if there is one. -/
def SMap.find {α : Type} : SMap α → Nat → Option α
  | [], _ => none
  | (k', v) :: m, k => if k = k' then some v else SMap.find m k

/-- Change the value at `k` by `f`. -/
def SMap.upd {α : Type} [DecidableEq α] (d : Nat → α) (m : SMap α) (k : Nat) (f : α → α) : SMap α :=
  m.set d k (f (m.get d k))

/-- The listed keys. -/
def SMap.keys {α : Type} (m : SMap α) : List Nat := m.map (·.1)

/-- Replace every listed value. -/
def SMap.mapVals {α : Type} (f : Nat → α → α) (m : SMap α) : SMap α := m.map fun p => (p.1, f p.1 p.2)

/-- Keys strictly rising, all of them above `lo`. -/
def SMap.rising {α : Type} : Nat → SMap α → Bool
  | _, [] => true
  | lo, (k, _) :: m => lo ≤ k && SMap.rising (k + 1) m

/-- The canonical form: keys strictly rising and no entry equal to what an unlisted key reads as. -/
def SMap.wf {α : Type} [DecidableEq α] (d : Nat → α) (m : SMap α) : Bool :=
  SMap.rising 0 m && m.all fun p => p.2 ≠ d p.1

/-- Rebuild a list of entries into canonical form. -/
def SMap.ofEntries {α : Type} [DecidableEq α] (d : Nat → α) (l : List (Nat × α)) : SMap α :=
  l.foldl (fun m p => SMap.set d m p.1 p.2) []

end Sys2Proof.Machine
end

