-- ==== Sys2Proof/Types.lean ====
section
/-!
DEFINITION. The kinds of data that commands carry and that the state holds in common: who accesses a register, what an
event entry holds, and what the world outside the device supplies with a command.
-/

namespace Sys2Proof

/-- Who contends for a mailbox (R296). -/
inductive Agent where
  /-- House core 0 to 7. -/
  | core (i : Nat)
  /-- The vault core. -/
  | vault
  /-- The device itself. -/
  | device
  /-- Seat 0 to 63. -/
  | seat (n : Nat)
  deriving DecidableEq, Repr

/-- An upset of the check bits of a word that an access or scrub meets: its word index, and whether it is uncorrectable. -/
structure Upset where
  word : Nat
  double : Bool
  deriving DecidableEq, Repr

/-- An access that a requester asks of an SRAM bank in a cycle (R305): a read of the word at a byte offset, or a write
of up to eight bytes inside it. -/
structure MemReq where
  req : Nat
  addr : Nat
  wdata : Option Bytes
  deriving DecidableEq, Repr

/-- What the vault's array is found to have lost at a start: a copy or record whose seal or check fails (R260 to R279). -/
inductive NvDamage where
  | rootCopy (i : Nat)
  | enrolCopy (i : Nat)
  | curveCopy (i : Nat)
  | slot (n : Nat)
  | mark
  /-- Copy 0–1 of HI or 2–3 of LO of a counter. -/
  | counterCopy (n copy : Nat)
  deriving DecidableEq, Repr

/-- How the array pulses of a vault command end: all are made; one fails its verify (R271); or the supply is lost, beyond the hold-up,
when `k` of them have been made, and tears the next (R273, R278, R371). -/
inductive Pulses where
  | made
  | failed
  | cut (k : Nat)
  deriving DecidableEq, Repr

/-- What the march test finds in an SRAM bank: failing columns, and whether a row or the check logic fails (R312). -/
structure BankTest where
  bank : Nat
  cols : Nat
  bad : Bool
  deriving DecidableEq, Repr

/-- What a cold start meets: three samples of the strap resistor in ohms and the converter's median sample (R376), the banks in
which the march test finds a failure (R312), the accepted draw of the TRNG (R261), and damage to the vault's array. -/
structure StartIn where
  strap : List Nat
  strapRaw : Nat
  banks : List BankTest
  noise : Option Bytes
  damage : List NvDamage
  /-- Units of 1/32,768 s that the RTC counted from the reset until the counter began to count (R80). -/
  away : Nat
  deriving DecidableEq, Repr

/-- What the CANVAS frames of the partner link bring (R46, R49, R51 to R53): a canvas with its MODE, or the error of the link that
stopped its transfer; the target tick of an accepted ARM; a staging that was cancelled, or abandoned with 0x001D; or a committed
MODE 1 canvas. -/
inductive CanvasMsg where
  | canvas (mode : Nat) (bytes : Option Bytes)
  | armed (t : Nat)
  | cancelled (abandoned : Bool)
  | committed
  deriving DecidableEq, Repr

/-- The filtered edge inputs (R103). -/
inductive EdgeIn where
  | pps
  | tamper (k : Nat)
  | irq (port : Nat)
  deriving DecidableEq, Repr

/-- A requester of a tier of the arbiter (R101): the port tier of a group, the group tier of a quad, the ingress tier. -/
inductive Tier where
  | port (g : Nat)
  | group (q : Nat)
  | ingress
  deriving DecidableEq, Repr

/-- Where the demodulator finds a preamble, a symbol boundary or the end of a frame in a block's output samples (R115). -/
inductive PlcMark where
  | preamble | symbol | frameEnd
  deriving DecidableEq, Repr

/-- A ball of a field port (R86). -/
inductive Ball where
  | aP | aN | bP | bN
  deriving DecidableEq, Repr

/-- What holds a ball of a field port (R86, R378): its weak pull alone, a level that the cell drives, or the traffic of an
output. -/
inductive Drive where
  | pull (up : Bool)
  | level (high : Bool)
  | line
  deriving DecidableEq, Repr

/-- A PSDU with the parts of its MAC header that the rules read (R127, R133, R135, R137). -/
structure RadioFrame where
  /-- Its destination is this PAN and this coordinator. -/
  toUs : Bool
  secured : Bool
  ackReq : Bool
  seq : Nat
  /-- Source address: a short address, or 2^16 + the extended address. -/
  src : Nat
  psdu : Bytes
  /-- It came in a GTS of its sender (R133). -/
  inGts : Bool := false
  /-- It is a disassociation notification (R127). -/
  leaves : Bool := false
  deriving DecidableEq, Repr

/-- A GTS request (R133): a request of `len` superframe slots, in which the requester receives where `rx` is set; or, with
`alloc` false, the return of its GTS of that direction. -/
structure GtsReq where
  alloc : Bool
  len : Nat
  rx : Bool
  deriving DecidableEq, Repr

/-- What a PSDU forwarded to the shadow MAC is (R145): a data frame, a Data Request, an association request with the short
address that the active side gave, if it accepted, or a GTS request. -/
inductive ShadowKind where
  | data
  | dataRequest
  | assoc (eui : Nat) (short : Option Nat)
  | gts (req : GtsReq)
  deriving DecidableEq, Repr

/-- A PSDU that the active side forwards, and what it is (R145). -/
structure ShadowPsdu where
  frame : RadioFrame
  kind : ShadowKind
  deriving DecidableEq, Repr

/-- An association request as it is received at counter value `c` (R135, R141): its frame, the extended address that asks, and what
reception met: a good FCS, the end seen in time, and a poll too late. -/
structure AssocReq where
  c : Nat
  frame : RadioFrame
  eui : Nat
  fcsOk : Bool
  endSet : Bool
  late : Bool
  deriving DecidableEq, Repr

/-- The GTS requests of one backoff period as they are received (R133, R135). -/
structure GtsReqs where
  c : Nat
  reqs : List (RadioFrame × GtsReq)
  fcsOk : Bool
  endSet : Bool
  late : Bool
  deriving DecidableEq, Repr

/-- A field port at a counter value. -/
structure PortAt where
  port : Nat
  c : Nat
  deriving DecidableEq, Repr

/-- The next two symbol boundaries after an overload, as sample indices of the analog front end (R115). -/
structure NextSymbols where
  first : Nat
  second : Nat
  deriving DecidableEq, Repr

/-- A join or registration request at a port, from an extended address (R117). -/
structure JoinReq where
  port : Nat
  eui : Nat
  deriving DecidableEq, Repr

/-- A turn of the balance engine for a seat, with the cycles that its evaluation still needs (R56, R231). -/
structure NodeTurn where
  seat : Nat
  cost : Nat
  deriving DecidableEq, Repr

/-- Which addressed memory a partial write goes to (R308). -/
inductive MemSel where
  | sram | dram
  deriving DecidableEq, Repr

/-- The atomic operations of a bank (R307); `other` is any other atomic, load-reserved or store-conditional access. -/
inductive AtomicOp where
  | add | swap | other
  deriving DecidableEq, Repr

/-- What an SRAM access answered: the cycle it was issued, its data, and whether its port saw BUSY or poison. -/
structure MemResp where
  req : Nat
  addr : Nat
  cyc : Nat
  data : Nat
  busy : Bool
  poison : Bool
  deriving DecidableEq, Repr

/-- Who reads a poisoned word (R309). -/
inductive PoisonReader where
  /-- A ledger engine, in a block of a slot's ledger. -/
  | ledger (slot block : Nat)
  /-- The cipher farm, in a line of the key cache. -/
  | keyLine (slot : Nat)
  /-- A pool buffer of the APDU that stands at an index of the decoder's input. -/
  | pool (apdu : Nat)
  /-- A house core. -/
  | core (i : Nat)
  /-- A PCIe read of a seat's window. -/
  | pcie (seat : Nat)
  deriving DecidableEq, Repr

/-- What reading a frame out of its FIFO met (R98): bits corrected in some words, a double-bit error, or, under DUAL, bytes
that were damaged. -/
inductive FifoRead where
  | clean
  | corrected (n : Nat)
  | double
  | damaged (bytes : Bytes)
  deriving DecidableEq, Repr

/-- A fragment of an APDU inside a frame of the pool (R152): which frame, its link source as a directory key, its datagram tag
or block-transfer stream, where it lies in the frame, its place in the APDU, and the APDU's length where the fragment tells
it. On a FIELDLINK port a datagram that is no block of a general-block-transfer speaks for itself. -/
structure Fragment where
  frame : Nat
  src : Nat
  tag : Nat
  off : Nat
  len : Nat
  pos : Nat
  total : Option Nat
  deriving DecidableEq, Repr

/-- A value as the meter encoded it (R164): an integer, a floating-point number `num / den`, a floating-point pattern that is
no number, or data of a type that is no number. -/
inductive MeterValue where
  | int (v : Int)
  | float (num : Int) (den : Nat)
  | nan
  | other
  deriving DecidableEq, Repr

/-- An item of a decoded APDU (R164): content of a COSEM object that the decoder makes a record of, or content that it does
not decode. `value` is the offset in the plaintext of the value's encoding, and `time` that of the 12 bytes of the entry's
date-time; what the request and the object list say of the object, and the plaintext does not, stands beside them. -/
inductive DlmsItem where
  | content (kind cls : Nat) (obis : Bytes) (attr : Nat) (scaler : Int) (unit status : Nat) (value : Nat)
      (time : Option Nat) (event period : Nat)
  | other
  deriving DecidableEq, Repr

/-- What the uplink builder sends: a seat's turn on a path (0 and 1 uplinks, 2 PCIe; `sak`: MKA has installed an SAK for the
seat on that uplink), or a frame of the house firmware on an uplink, with the counter value at which its timestamp point passes
(R78, R286, R287). -/
inductive UpSend where
  | records (seat path : Nat) (sak : Bool)
  | house (uplink : Nat) (frame : Bytes) (c : Nat)
  deriving DecidableEq, Repr

/-- What the check of a campaign's payload before a phase meets: the DRAM copy sound, only the NAND copy sound, or neither
(R258). -/
inductive ImgSeen where
  | sound | dramBad | bothBad
  deriving DecidableEq, Repr

/-- What a target answers to a campaign message (R250, R251, R253): done; its status with the blocks it lacks;
temporary-failure; another error; or a negative verification result. -/
inductive CampAnswer where
  | done
  | lacks (blocks : List Nat)
  | temporary
  | error
  | negative
  deriving DecidableEq, Repr

/-- Where a multicast block goes, by port standard (R252): ff02::1 with MAC broadcast 0xFFFF on G3-PLC, the broadcast
connection on PRIME, the broadcast address 0xFFFF on RADIO. -/
inductive McastDst where
  | g3AllNodes | primeBroadcast | radioBroadcast
  deriving DecidableEq, Repr

/-- A link that a frame comes over: deal link 0–3, or partner lane 0–1 (R326, R327). -/
inductive LinkId where
  | deal (k : Nat)
  | lane (l : Nat)
  deriving DecidableEq, Repr

/-- What a HELLO says (R327): position, side and link index of the far end. -/
structure Hello where
  pos : Nat
  side : Nat
  idx : Nat
  deriving DecidableEq, Repr

/-- What a DISCOVER says (R332), with the position and side that sent it. -/
structure Discover where
  pos : Nat
  side : Nat
  plan : Bytes
  serial : Nat
  cfl : Nat
  pref : Bool
  step : Nat
  jtick : Nat
  deriving DecidableEq, Repr

/-- What a DEALER frame says (R332). -/
structure DealerMsg where
  pos : Nat
  side : Nat
  epoch : Nat
  tick : Nat
  plan : Bytes
  deriving DecidableEq, Repr

/-- A directory update (R337): a system title at a position and slot, or its removal. -/
structure DirUpd where
  title : Nat
  pos : Nat
  slot : Nat
  removed : Bool := false
  deriving DecidableEq, Repr

/-- What a DIR frame brings (R337): updates, or a query from a position. -/
inductive DirMsg where
  | updates (us : List DirUpd)
  | query (from_ title : Nat)
  deriving DecidableEq, Repr

/-- A CHECK as the dealer hears it (R339); `same` says that the device which claims the position and side already is this one. -/
structure CheckMsg where
  pos : Nat
  side : Nat
  plan : Bytes
  tickSel : Nat
  serial : Nat
  digest : Bytes
  same : Bool
  deriving DecidableEq, Repr

/-- A heartbeat (R345). -/
structure Beat where
  tick : Nat
  role : Nat
  epoch : Nat
  pkg : Nat
  fault : Nat
  grant : Bool
  deriving DecidableEq, Repr

/-- A HEALTH report (R352), with the position, side and position epoch of its header. -/
structure HealthMsg where
  pos : Nat
  side : Nat
  epoch : Nat
  roleA : Nat
  roleB : Nat
  fault : Nat
  diverge : Nat
  tj : Nat
  spare : Nat
  deriving DecidableEq, Repr

/-- What the power stage measures over a tick (R387): VIN in 10 mV, IIN in 10 mA, PIN in 10 mW, and the power of the ten block
classes in 10 mW. -/
structure PowerIn where
  vin : Nat
  iin : Nat
  pin : Nat
  blocks : List Nat
  /-- The partner link has not finished the package that was due in the ending tick (R59, R343). -/
  pkgLate : Bool
  deriving DecidableEq, Repr

/-- Who commands a reset (R353): the active side of the position with a level, or the dealer in a MGMT frame. -/
inductive ResetCmd where
  | partner (level : Nat)
  | dealer (frame : Bytes)
  deriving DecidableEq, Repr

/-- What the device sends to the world outside it, each with the rule that sends it. -/
inductive Out where
  /-- MSI-X message of a function's vector (R284, R297). -/
  | msix (seat vec : Nat)
  /-- The answer to a register read of one of several contending agents, by requester number (R299). -/
  | answer (agent : Nat) (value : Nat)
  /-- Interrupt of the house or vault core for a mailbox (R297). -/
  | coreIrq (mbx : Nat)
  /-- A frame delivered to the house firmware behind its receive descriptor (R288). -/
  | houseFrame (desc frame : Bytes)
  /-- A frame of a seat, delivered to the seat's services (R286). -/
  | seatFrame (seat path : Nat) (frame : Bytes)
  /-- A datagram on an uplink path (R287, R291). -/
  | datagram (seat path : Nat) (bytes : Bytes)
  /-- A register access response, from OWN_IP, port UDP_RD + 1, to the request's source port (R289). -/
  | regReply (seat path port : Nat) (bytes : Bytes)
  /-- The result of a billing close action: 0 success, else an xDLMS result (R212). -/
  | actionResult (seat slot code : Nat)
  /-- Bytes that the device put into host ring `r` of a seat at an offset (R290). -/
  | ring (seat r at0 : Nat) (bytes : Bytes)
  /-- Bytes written to host memory (R274). -/
  | dmaWrite (addr : Nat) (bytes : Bytes)
  /-- A PCIe read that starts a fetch (R49, R249, R271, R356). -/
  | dmaRead (addr len : Nat)
  /-- The MAC's poll of a transceiver's status over SPI (R104). -/
  | radioPoll (port : Nat)
  /-- A frame sent on a field port (R88 to R145, R254). -/
  | portTx (port : Nat) (bytes : Bytes)
  /-- A campaign message sent to a link address, given as its directory key (R251, R292). -/
  | campUnicast (port key : Nat) (bytes : Bytes)
  /-- A multicast block of a campaign (R252). -/
  | campBlock (port : Nat) (dst : McastDst) (bytes : Bytes)
  /-- A MAC Control PAUSE sent on a FIELDLINK port, with its quanta (R97, R167). -/
  | pause (port quanta : Nat)
  /-- K28.7 sent on a PLC_AFE port: sample sync (R113). -/
  | sampleSync (port : Nat)
  /-- Characters 1 to 9 of a control block sent to an analog front end (R110). -/
  | afeControl (port : Nat) (chars : Bytes)
  /-- The HDLC client on a SERIAL port asks again for the frame with receive sequence number `nr` (R168). -/
  | hdlcAsk (port nr : Nat)
  /-- A frame sent on a PLC_AFE port, at a transmit level and under a tone mask (R108). -/
  | plcTx (port level mask : Nat) (bytes : Bytes)
  /-- What holds the four balls of a field port, A_P, A_N, B_P, B_N, from now on (R86, R90, R378). -/
  | balls (port : Nat) (drive : List Drive)
  /-- The radio reset ball of a group is driven low (true) or released (R87). -/
  | radioReset (group : Nat) (low : Bool)
  /-- A write to a transceiver register (R130). -/
  | radioInit (port : Nat) (bytes : Bytes)
  /-- An acknowledgement of `len` bytes sent by a radio port (R135). -/
  | radioAck (port seq : Nat) (pending : Bool) (len : Nat)
  /-- A beacon (R132): BSN, superframe specification, pending addresses, GTS owners with their starting slot, length and
  direction, and the hint element; `fp` says that Frame Pending is set for multicast blocks of a campaign (R252). -/
  | beacon (port bsn sf : Nat) (pendingAddrs : List Nat) (gts : List (Nat × Nat × Nat × Bool)) (hint : Bytes) (fp : Bool)
  /-- An association answered (R141): extended address, short address given, status. -/
  | assocAnswer (port eui short status : Nat)
  /-- A GTS request granted or denied (R133). -/
  | gtsAnswer (port short : Nat) (granted : Bool)
  /-- A join or registration request answered (R117), on G3-PLC under the meter's EAP-PSK pre-shared key (R160). -/
  | joinAnswer (port eui : Nat) (psk : Option Bytes)
  /-- TXGRANT driven high or low (R142). -/
  | txGrant (high : Bool)
  /-- A received PSDU sent to the partner with its T0 and duplicate verdict (R145). -/
  | shadowPsdu (port t0 : Nat) (dup : Bool) (psdu : Bytes)
  /-- A frame on the rail carrier, at a carrier frequency in units of 100 Hz (R120, R122). -/
  | rail (carrier : Nat) (bytes : Bytes)
  /-- A pilot on the rail carrier (R120, R124). -/
  | railPilot (carrier : Nat)
  /-- A frame sent on deal link `l` (R326 to R353). -/
  | deal (link : Nat) (bytes : Bytes)
  /-- A load access fault in a house core (R309). -/
  | coreFault (core : Nat)
  /-- A PCIe completion with the EP bit set (R309). -/
  | pcieEp (seat : Nat)
  /-- A frame sent on the partner link (R342 to R352). -/
  | partner (bytes : Bytes)
  deriving DecidableEq, Repr

end Sys2Proof
end

