-- ==== Sys2Proof/Machine/Parts/Camp.lean ====
section
/-!
DEFINITION. Plain-data parts of the state of the campaign engine (R247 to R258).
-/

namespace Sys2Proof.Machine

/-- The states of a target (R251). -/
inductive TgtState where
  | pending | initiated | incomplete | complete | verified | failed | notarget
  deriving DecidableEq, Repr

/-- The state record of a target (R251), with what the engine knows of it in the running phase. -/
structure Target where
  slot : Nat
  st : TgtState := .pending
  tries : Nat := 0
  missing : Nat := 0
  lastTick : Nat := 0
  /-- A request has been sent and not answered. -/
  waiting : Bool := false
  /-- Its bitmap has been read in this round, and the blocks it lacks. -/
  asked : Bool := false
  lacks : List Nat := []
  /-- Verified by the meter; the activation has still to be written (R250). -/
  armed : Bool := false
  /-- First tick at which it may be offered again (R255). -/
  notBefore : Nat := 0
  deriving DecidableEq, Repr

/-- A campaign (R247, R248, R259). -/
structure CampSt where
  /-- STATE: 0 FREE, 1 LOADING, 2 READY, 3 INITIATE, 4 MULTICAST, 5 REPAIR, 6 VERIFY, 7 DONE, 8 PAUSED, 9 ABORTED. -/
  state : Nat := 0
  kind : Nat := 0
  owner : Nat := 0
  /-- Descriptor and payload in DRAM, the copy in NAND, and the seal over the payload. -/
  body : Bytes := []
  nand : Bytes := []
  chk : Nat := 0
  round : Nat := 0
  /-- The step of R253 that the round is at: 1, 3 or 4. -/
  step : Nat := 1
  /-- Blocks to be multicast in step 3. -/
  again : List Nat := []
  /-- Per port, how many blocks of MULTICAST or of step 3 have been sent there. -/
  pos : SMap Nat := []
  /-- The phase that was paused. -/
  paused : Nat := 0
  targets : List Target := []
  tx : Nat := 0
  /-- CAMP_QREF and CAMP_VFAIL. -/
  refused : Nat := 0
  expired : Nat := 0
  vfail : Nat := 0
  deriving DecidableEq, Repr

/-- The campaign engine: its campaigns and, per port, when the next frame may start and which campaign comes next. -/
structure CampEng where
  camps : SMap CampSt := []
  gapTo : SMap Nat := []
  turn : SMap Nat := []
  /-- Multicast blocks sent in the beacon interval of a port, with the beacon's number (R252). -/
  bpb : SMap (Nat × Nat) := []
  deriving DecidableEq, Repr

end Sys2Proof.Machine
end

