-- ==== Sys2Proof/Machine/Parts/Ledger.lean ====
section
/-!
DEFINITION. Plain-data parts of the state that the ledger fabric owns: the ledger of a slot with its blocks, the engines and
their queues, the shadow engine, and the journal with what NAND holds (R15, R55 to R67, R175 to R224).
-/

namespace Sys2Proof.Machine

/-! ### Queues (R15, R61) -/

/-- What an item of an engine's queue is: a record with its seal, or an order (R193, R212, R242). -/
inductive Work where
  | record (bytes : Bytes) (chk : Nat)
  /-- A re-rate order, with the number of the GO that admitted it. -/
  | rerate (go : Nat)
  | billing
  | rebase
  | resetTrack
  deriving DecidableEq, Repr

/-- An admitted item (R15, R17). -/
structure QItem where
  work : Work
  slot : Nat
  seat : Nat
  opening : Nat
  aseq : Nat
  atick : Nat
  deriving DecidableEq, Repr

/-! ### The ledger of a slot (R179 to R185, R215, R236) -/

/-- A ring entry that is not empty (R184). `added` holds the amounts that its delta added, and `bridge` that it was a bridge
delta: the amounts that an edit takes out again (R222). -/
structure RingEntry where
  real : Bool
  est : Bool
  fwd : Bool := false
  tbad : Bool := false
  qp : Nat := 0
  rate : Nat := 1
  dfl : Bool := false
  v : List Nat
  added : List Int := [0, 0, 0, 0]
  bridge : Bool := false
  deriving DecidableEq, Repr

/-- An energy block (R181). -/
structure Energy where
  total : Nat := 0
  rates : List Nat := [0, 0, 0, 0, 0, 0, 0, 0]
  lastIdx : Nat := 0
  defcnt : Nat := 0
  deriving DecidableEq, Repr

/-- An entry of a DMAX block (R183). -/
structure Dmax where
  value : Nat := 0
  time : Nat := 0
  dfl : Nat := 0
  deriving DecidableEq, Repr

/-- A tamper code entry (R185). -/
structure TamperEnt where
  code : Nat := 0
  count : Nat := 0
  first : Nat := 0
  last : Nat := 0
  deriving DecidableEq, Repr

/-- The VEE block (R215); `cnt` holds GAPS, ESTS, EDITS, LATE, SPIKES, HIGHS, ROLLS, REVS, STUCKS, TIMES and BRIDGES, and
`acted` says that a rule has acted since the block was last reported (R224). -/
structure VeeBlk where
  avg : List Int := [0, 0, 0, 0]
  stuckRun : Nat := 0
  estRun : Nat := 0
  susp : Nat := 0
  rules : Nat := 0
  cnt : List Nat := [0, 0, 0, 0, 0, 0, 0, 0, 0, 0, 0]
  acted : Bool := false
  deriving DecidableEq, Repr

/-- The BALANCE block (R236). Floating-point fields hold their binary32 bits. -/
structure BalBlk where
  r : Nat := 0
  b : Nat := 0
  p11 : Nat := 0
  p12 : Nat := 0
  p22 : Nat := 0
  s2 : Nat := 0
  rBase : Nat := 0
  nsamp : Nat := 0
  vPend : Nat := 0
  iPend : Int := 0
  tPend : Nat := 0
  pend : Nat := 0
  vmean : Nat := 0
  vvar : Nat := 0
  cov : List Int := [0, 0, 0]
  csamp : Nat := 0
  phase : Nat := 0
  sBal : Nat := 0
  sImp : Nat := 0
  sTam : Nat := 0
  score : Nat := 0
  afl : Nat := 0
  deriving DecidableEq, Repr

/-- The ledger of a slot, and what its engine keeps with it. -/
structure Ledger where
  /-- STATE: 0 EMPTY, 1 ACTIVE, 2 REPAIR, 3 FAILED. -/
  st : Nat := 0
  /-- LVER: the ledger layout version (R180, R359). -/
  lver : Nat := 1
  palLast : Nat := 0
  billed : Bool := false
  /-- RING_TOP; `none` before the slot's first value. -/
  ringTop : Option Nat := none
  lastTick : Nat := 0
  applied : Nat := 0
  aseq : Nat := 0
  billPeriod : Nat := 0
  billIdx : Nat := 0
  tamperOvf : Nat := 0
  lastStatus : Nat := 0
  statusTime : Nat := 0
  energy : List Energy := [{}, {}, {}, {}]
  mtot : List Nat := [0, 0, 0, 0]
  mtotTime : Nat := 0
  mmd : Nat := 0
  mmdTime : Nat := 0
  mtotT : List Nat := [0, 0, 0, 0]
  dmaxCur : List Dmax := List.replicate 18 {}
  dmaxPrev : List Dmax := List.replicate 18 {}
  ring : SMap RingEntry := []
  tamper : List TamperEnt := List.replicate 8 {}
  /-- TAMPER_RECENT: MTIME and code entry. -/
  recent : List (Nat × Nat) := []
  vee : VeeBlk := {}
  bal : BalBlk := {}
  /-- Blocks changed since the previous close, one bit each (R206). -/
  changed : Nat := 0
  /-- The interval of the last delta since then that belongs to a closed period: the energy blocks report it (R196). -/
  lateAt : Option Nat := none
  /-- BILL_IDX of the billing closes that the ring still reaches behind, the latest first (R196). -/
  bills : List Nat := []
  /-- Corrected UTC of the last boundary closed, and whether catch-up closes are under way (R67). -/
  closedTo : Option Int := none
  catching : Bool := false
  /-- Records held while the slot is in REPAIR (R201), and the tick in which REPAIR began. -/
  held : List QItem := []
  repairAt : Nat := 0
  deriving DecidableEq, Repr

/-! ### Engines (R56 to R63, R203, R204) -/

/-- A ledger engine. -/
structure EngineSt where
  /-- Its input queue and its share of the carry queue, oldest first. -/
  inq : List QItem := []
  carry : List QItem := []
  /-- Admission for it is stopped (R62). -/
  stopped : Bool := false
  /-- Cycles of the running tick that it has used (R56). -/
  used : Nat := 0
  /-- Of these, the cycles of its mandatory work. -/
  mand : Nat := 0
  /-- Ticks of its mismatches within the last 1,000 ticks (R204). -/
  mism : List Nat := []
  deriving DecidableEq, Repr

/-- A record that the sampled engine applied: its pre-image and its item (R203). -/
structure ShadowItem where
  engine : Nat
  item : QItem
  pre : Ledger
  deriving DecidableEq, Repr

/-- A slot held by a shadow mismatch whose agreed result waits for the next boundary (R204). -/
structure Correction where
  engine : Nat
  slot : Nat
  /-- Tick of the mismatch. -/
  tick : Nat
  /-- The pre-image of the record, and the records that the slot has had applied from it on, oldest first. -/
  pre : Ledger
  work : List QItem
  deriving DecidableEq, Repr

/-- One record of the interval history in NAND (R176): the record with its rate and its marks, as FLAGS holds them (R207, R224). -/
structure HistRec where
  tick : Nat
  bytes : Bytes
  rate : Nat
  marks : Nat
  deriving DecidableEq, Repr

/-- What the comparison of derivation seals gave: equal, or not, and then whether two shadow results agreed (R203, R204). -/
inductive ShadowCmp where
  | equal
  | differs (agree : Bool)
  deriving DecidableEq, Repr

end Sys2Proof.Machine
end

