-- ==== Sys2Proof/Machine/Parts/Pool.lean ====
section
/-!
DEFINITION. Plain-data parts of the state between the arbiter and admission: the message pool, reassembly, the cipher farm's
key records and cache, the address directory, and parked APDUs (R148 to R167, R292).
-/

namespace Sys2Proof.Machine

/-- A frame that has passed to the pool and waits for reassembly: its bytes as read from the FIFO, the frame seal of its
EOF tag (R100), and the numbers of its buffers (R148). -/
structure PoolFrame where
  port : Nat
  bytes : Bytes
  chk : Nat
  bufs : List Nat
  deriving DecidableEq, Repr

/-- A reassembly context (R153). -/
structure ReCtx where
  port : Nat
  src : Nat
  tag : Nat
  /-- Fragments: place in the APDU and bytes. -/
  frags : List (Nat × Bytes) := []
  frames : List PoolFrame := []
  total : Option Nat := none
  lastTick : Nat := 0
  deriving DecidableEq, Repr

/-- A whole APDU: where it came from, the frames it is chained from, and its bytes. -/
structure Apdu where
  port : Nat
  /-- Link source address as a directory key (R292). -/
  src : Nat
  bytes : Bytes
  frames : List PoolFrame
  deriving DecidableEq, Repr

/-- A plaintext that the replay unit has accepted, with its plaintext seal (R155, R161). -/
structure Plain where
  slot : Nat
  seat : Nat
  port : Nat
  bytes : Bytes
  chk : Nat
  frames : List PoolFrame
  /-- One of its buffers has been found poisoned (R309). -/
  poisoned : Bool := false
  deriving DecidableEq, Repr

/-- An APDU whose next record is for a stopped engine, with the records not yet admitted; `stalled` says that its lane waits
because 64 are parked already (R166). -/
structure Parked where
  plain : Plain
  recs : List Bytes
  stalled : Bool
  deriving DecidableEq, Repr

/-- A line of the key cache: the unwrapped keys of a slot (R158). -/
structure KeyLine where
  slot : Nat
  ek : Bytes
  ak : Bytes
  deriving DecidableEq, Repr

/-- An entry of the address directory (R292); `n` orders insertions, and `port` is the field port on which the address was
last heard. -/
structure AdirEnt where
  slot : Nat
  seat : Nat
  n : Nat
  port : Option Nat := none
  deriving DecidableEq, Repr

/-- A directory change made in this tick: the key, and its new entry or its removal. -/
structure AdirChange where
  key : Nat
  ent : Option AdirEnt
  deriving DecidableEq, Repr

/-- The pool and what follows it. -/
structure PoolSt where
  /-- Buffers charged to each seat (R148), and the numbers of the buffers in use. -/
  usage : SMap Nat := []
  inUse : List Nat := []
  frames : List PoolFrame := []
  ctxs : List ReCtx := []
  apdus : List Apdu := []
  plains : List Plain := []
  parked : List Parked := []
  /-- Live key records (R157), those staged for the next boundary (R159), and the key cache by set, most recent first. -/
  keys : SMap Bytes := []
  staged : SMap Bytes := []
  cache : SMap (List KeyLine) := []
  adir : SMap AdirEnt := []
  adirNext : List AdirChange := []
  adirCount : Nat := 0
  deriving DecidableEq, Repr

end Sys2Proof.Machine
end

