-- ==== Sys2Proof/Machine/Parts/Journal.lean ====
section
/-!
DEFINITION. Plain-data parts of the state: the journal deltas of a tick, what the journal and checkpoint in NAND hold, and
the ledger fabric as a whole (R26, R55, R176, R203, R340, R343).
-/

namespace Sys2Proof.Machine

/-- A record applied in a tick (R343). -/
structure JRec where
  seat : Nat
  opening : Nat
  aseq : Nat
  slot : Nat
  chk : Nat
  deriving DecidableEq, Repr

/-- The journal deltas of one tick. A ledger delta stands as the slot's whole ledger with a mask of the blocks changed. -/
structure JTick where
  tick : Nat := 0
  /-- Records applied, and the other items of the seats' sequences whose work changed a ledger (R26). -/
  recs : List JRec := []
  others : List JRec := []
  ledgers : SMap Ledger := []
  blocks : SMap Nat := []
  keys : SMap Bytes := []
  dir : List AdirChange := []
  camps : SMap CampSt := []
  ceils : SMap Nat := []
  deriving DecidableEq, Repr

/-- What the journal and the checkpoint in NAND give at a restore (R340). -/
structure NandImg where
  ledgers : SMap Ledger := []
  keys : SMap Bytes := []
  adir : SMap AdirEnt := []
  camps : SMap CampSt := []
  ceils : SMap Nat := []
  /-- The position epoch and the dealer epoch (R335, R349, R354). -/
  epoch : Nat := 0
  dealerEpoch : Nat := 0
  /-- The highest tick in the journal (R55); `none` for an empty one. -/
  high : Option Nat := none
  /-- The constant that RENUMBER subtracted (R341). -/
  shift : Nat := 0
  deriving DecidableEq, Repr

/-- The ledger fabric. -/
structure LdgSt where
  engines : SMap EngineSt := []
  ledgers : SMap Ledger := []
  /-- Closes that a boundary found unfinished: slot and the tick they fell due in (R59). -/
  spill : List (Nat × Nat) := []
  /-- Pre-images of the tick that ended and of the running tick (R203). -/
  shadowLast : List ShadowItem := []
  shadowCur : List ShadowItem := []
  shadowUsed : Nat := 0
  /-- Records applied in the tick that ended and in the running tick, oldest first: what a correction replays (R204). -/
  appliedLast : List QItem := []
  appliedCur : List QItem := []
  shadowRecs : Nat := 0
  shadowStopped : Bool := false
  corr : List Correction := []
  hist : List HistRec := []
  /-- Re-rate orders of each seat not yet applied (R213), and how many times it has written GO. -/
  rerate : SMap Nat := []
  rerateGo : SMap Nat := []
  /-- Deltas of the running tick not yet committed, and those committed already. -/
  jrn : JTick := {}
  jdone : JTick := {}
  /-- Ticks closed and not yet committed, oldest first. -/
  jwait : List JTick := []
  nand : NandImg := {}
  deriving DecidableEq, Repr

end Sys2Proof.Machine
end

