-- ==== Sys2Proof/Machine/Parts/Cascade.lean ====
section
/-!
DEFINITION. Plain-data parts of the state of the cascade and of the partner pair: links, election, SYNC, the slot directory,
the dealer's view of the positions, and what a standby holds for its active side (R326 to R353).
-/

namespace Sys2Proof.Machine

/-- Where a device stands in the election of R333; counter values of the beginning of the phase and of the last DISCOVER. -/
inductive Election where
  | idle
  | listen (since : Nat)
  | discover (since : Nat) (last : Option Nat)
  | elect (since pos side : Nat)
  | joined
  | dealer (last : Option Nat)
  deriving DecidableEq, Repr

/-- What a SYNC says (R334). -/
structure SyncBody where
  tick : Nat
  epoch : Nat
  departCt : Int
  offset : Int
  activeMap : Nat
  utcOfs : Nat
  pos : Nat
  deriving DecidableEq, Repr

/-- A device that has checked with the dealer (R339). -/
structure Checked where
  pos : Nat
  side : Nat
  serial : Nat
  digest : Bytes
  cfl : Nat := 0
  deriving DecidableEq, Repr

/-- A record that a standby decoded and admitted in shadow (R343, R344). -/
structure ShadowRec where
  seat : Nat
  slot : Nat
  bytes : Bytes
  chk : Nat
  /-- Tick of its shadow admission. -/
  tick : Nat
  deriving DecidableEq, Repr

/-- The package of a tick (R343); `lver` is the ledger layout version of its images (R363). -/
structure Package where
  j : JTick
  useqs : SMap Nat := []
  lver : Nat := 1
  deriving DecidableEq, Repr

/-- An uplink record that the standby would have generated in a tick (R346). -/
structure Ghost where
  tick : Nat
  seat : Nat
  from_ : Option (Nat × Nat)
  ty : Nat
  flags : Nat
  atick : Nat
  body : Bytes
  deriving DecidableEq, Repr

/-- An item of the bulk copy (R350). -/
inductive BulkItem where
  | block (slot b : Nat) (image : Ledger)
  | key (slot : Nat) (bytes : Bytes)
  | dir (c : AdirChange)
  | carry (q : QItem)
  deriving DecidableEq, Repr

/-- The cascade and the partner. -/
structure CasSt where
  /-- Partner lanes that have exchanged a good HELLO. -/
  lanes : List Nat := []
  /-- Delay of each link in ns, deal links at 0–3 and lanes at 4–5, with the tick it was measured in (R327). -/
  delays : SMap (Nat × Nat) := []
  /-- Frames sent per link (R330). -/
  seqOut : SMap Nat := []
  /-- TICK and SEQ of the last authenticated frame accepted, by type and sender (R331). -/
  lastAuth : SMap (Nat × Nat) := []
  elec : Election := .idle
  heard : List Discover := []
  /-- The last candidate an ELECT named. -/
  named : Option (Nat × Nat) := none
  /-- The first SYNC has been accepted (R336). -/
  synced : Bool := false
  lastSync : Nat := 0
  /-- Dealer epoch and tick of the last SYNC forwarded. -/
  lastFwd : Nat × Nat := (0, 0)
  syncLost : Bool := false
  /-- The dealer tick and boundary of the last SYNC that the device could not take (R341). -/
  ahead : Option (Nat × Int) := none
  activeMap : Nat := 0
  /-- Consecutive SYNCs whose residual was above 100 ns (R336). -/
  alignRun : Nat := 0
  /-- The slot directory (R337), and the updates of this tick. -/
  dir : List DirUpd := []
  dirOut : List DirUpd := []
  /-- The query that waits for its answer: title. -/
  query : Option Nat := none
  checks : List Checked := []
  /-- Tick in which each position was last heard from (R352). -/
  posAt : SMap Nat := []
  healthAt : Nat := 0
  /-- The highest position epoch that the dealer has heard of each position. -/
  posEpoch : SMap Nat := []
  /-- The last heartbeat. -/
  beat : Option Beat := none
  /-- Tick in which the device was told to give up the role (R347). -/
  giveUp : Option Nat := none
  shadow : List ShadowRec := []
  /-- Ticks of the packages received, newest first. -/
  pkgs : List Nat := []
  /-- Ticks of the packages whose transfer has not completed, oldest first (R343). -/
  pkgOpen : List Nat := []
  /-- This tick's heartbeat waits for unfinished mandatory work of an ended tick (R35). -/
  beatDue : Bool := false
  /-- Each seat's last USEQ, mirrored from the active side. -/
  useqs : SMap Nat := []
  ghosts : List Ghost := []
  swapAt : Option Nat := none
  /-- Tick in which the bulk copy under way began (R350). -/
  resyncAt : Option Nat := none
  /-- Tick of the image taken last, for ledger blocks (32 × slot + block), key records and directory keys. -/
  blockTick : SMap Nat := []
  keyTick : SMap Nat := []
  dirTick : SMap Nat := []
  deriving DecidableEq, Repr

end Sys2Proof.Machine
end

