-- ==== Sys2Proof/Syntax.lean ====
section
/-!
DEFINITION. The commands that the world outside the device, its clock and its own engines give it: one constructor for each row
of the opcode table, in its order but for the last nine (the compiled form has room for 245 constructors with operands). In every
command `n` is a seat, `p` a field port, `e` a ledger engine, `m` a mailbox, `ag` who accesses a register, and `c` the value of the
free-running counter (R68) at which the command falls.
-/

namespace Sys2Proof

/-- A command. -/
inductive Instr where
  /-- POWER_ON (R366): VIN rises through the power-on threshold and the device takes an L0 reset and starts. -/
  | powerOn (away : Nat)
  /-- DEVICE_START (R338): The device runs the start sequence after L0 or L1, from the strap read to opening the seats. -/
  | deviceStart (start : StartIn)
  /-- FTL_MAP_LOAD_DONE (R320): The FTL finishes loading the map from the newest valid map checkpoint. -/
  | ftlMapLoadDone
  /-- FTL_MAP_REBUILD_DONE (R321): After an unclean stop, the full scan rebuilds the map from the page metadata and sets
  FULL_SCAN. -/
  | ftlMapRebuildDone (bad : List (Nat × Nat))
  /-- LEDGER_RESTORE (R340): Ledgers, key records, directory, campaign state and ceilings are restored from checkpoint and
  journal, and restore completes. -/
  | ledgerRestore (bad : List (Nat × Nat)) (badKeys : List Nat) (same : Bool)
  /-- BROWN_OUT (R379): VIN falls below the brown-out threshold: the RTC locks, the device quiesces, finishes pulses and turns
  off its rails. -/
  | brownOut (c : Nat) (clean : Bool)
  /-- VIN_SURGE (R381): VIN rises above 60 V, so VIN_OV is set and a major event is recorded. -/
  | vinSurge (vin : Nat)
  /-- VIN_LOW (R408): VIN enters the band between the brown-out threshold and 4.5 V, and VIN_LOW is set. -/
  | vinLow (vin : Nat)
  /-- VIN_REVERSAL (R381): VIN is reversed: the device draws under 1 mA and keeps the RTC on VBAT. -/
  | vinReversal
  /-- RESET_N_ASSERT (R374): A RESET_N low lasting 1 µs is accepted as the RESET_N reset source. -/
  | resetNAssert (c : Nat)
  /-- RESET_N_RELEASE (R374): A RESET_N high lasting 1 µs releases the reset. -/
  | resetNRelease
  /-- RESET_N_STUCK (R375): RESET_N is held low for 10 s and is declared stuck; the device leaves reset and ignores the ball. -/
  | resetNStuck
  /-- RESET_N_UNSTUCK (R375): The ball is seen high for 100 ms, IGNORED clears and the ball acts again. -/
  | resetNUnstuck
  /-- HOUSE_WDOG (R366): A house core watchdog goes unserviced for 200 ticks and raises its reset source. -/
  | houseWdog (c : Nat)
  /-- TICK_WDOG (R60): Mandatory work of tick t is unfinished at the end of t+2, and the tick watchdog reset source is raised.
  -/
  | tickWdog (c : Nat)
  /-- DEBUG_RESET (R366): A write to GLB_DEBUG_RST with the correct key, or the debug port, raises the DEBUG reset source. -/
  | debugReset (c : Nat) (v : Nat) (port : Bool)
  /-- RESET_PROPER (R371): Once pending NAND or vault pulses end and the quiesce is done, the reset proper begins. -/
  | resetProper (c : Nat)
  /-- WARM_RETURN (R373): After L2 release, SRAM is cleared, DRAM resumes, the canvas reloads and seats reopen with missed
  boundaries swept. -/
  | warmReturn
  /-- L3_RESET (R205): The ledger engines and the shadow engine are restarted, and queues and ledgers are kept. -/
  | l3Reset (c : Nat) (source : Nat)
  /-- THERM_SAMPLE (R383): The die sensors are read every 100 µs and TJ is updated. -/
  | thermSample (temps : List Int)
  /-- THERMAL_SHUTDOWN (R385): TJ stays at or above 125 °C for three readings; the device quiesces and turns off its rails. -/
  | thermalShutdown (c : Nat)
  /-- THERMAL_RESTART (R385): TJ stays below 100 °C for 10 s and the device raises THERMAL and starts as L1. -/
  | thermalRestart
  /-- XTAL_STOP (R83): The 32 kHz crystal stops, or VBAT loses retention, and RTC_STAT.VALID clears. -/
  | xtalStop (vbatLost : Bool)
  /-- REG_WRITE (R9): A register write with no row of its own acts by its field access types. -/
  | regWrite (ag : Agent) (off : Nat) (v : Word) (c : Nat) (items : List Bytes)
  /-- REG_ACCESS_MISALIGNED (R11): An access that is not 32 bits wide and aligned completes without effect and sets its block's
  ACCESS bit. -/
  | regAccessMisaligned (n : Nat) (off : Nat) (len : Nat) (wdata : Option Nat)
  /-- READ_CLEAR (R9): A read of an RC field returns it and then clears it, for a permitted reader. -/
  | readClear (ag : Agent) (off : Nat) (c : Nat)
  /-- TIME_NS32_READ (R71): Reading TIME_NS32 latches the seat's subsecond and second registers. -/
  | timeNs32Read (n : Nat) (c : Nat)
  /-- TIME_SEC_HI_READ (R71): Reading TIME_SEC_HI releases the seat's time latch. -/
  | timeSecHiRead (n : Nat)
  /-- TICK_LO_READ (R84): Reading TICK_LO or TB_CNT_LO latches the matching high word. -/
  | tickLoRead (n : Nat) (c : Nat) (cnt : Bool)
  /-- VAULT_CNT_LO_READ (R282): Reading VAULT_CNT_LO latches VAULT_CNT_HI. -/
  | vaultCntLoRead (n : Nat)
  /-- RTC_SEC_HI_READ (R82): A read of RTC_SEC_HI by the house seat ends the RTC freeze. -/
  | rtcSecHiRead (n : Nat)
  /-- TICK_BOUNDARY (R56): At each tick boundary every block closes the ending tick's work and opens the next under its budget.
  -/
  | tickBoundary (power : PowerIn)
  /-- JOURNAL_COMMIT (R26): The tick's journal deltas, including commit records, are committed to the NAND one-bit region. -/
  | journalCommit
  /-- FENCE_COMPLETE (R26): A ledger fence completes at the first boundary where pre-fence records are applied and journalled,
  and it rings its doorbell. -/
  | fenceComplete (n : Nat)
  /-- UPLINK_FENCE_MARKER (R31): After the pre-fence uplink records, a fence marker with its count is emitted on every path of
  the stream. -/
  | uplinkFenceMarker (n : Nat) (path : Nat)
  /-- DECODE_APDU (R164): A decoder lane turns an APDU into sealed canonical records, admits them and frees the buffers. -/
  | decodeApdu (its : List DlmsItem) (push : Bool) (asRead : Option Bytes)
  /-- APDU_UNPARK (R166): Admission for an engine resumes and its parked APDUs continue decoding. -/
  | apduUnpark (e : Nat)
  /-- APPLY_RECORD (R176): A ledger engine verifies seals, runs VEE, updates and reseals the blocks, journals, writes history
  and hands the uplink record on. -/
  | applyRecord (e : Nat) (cost : Nat) (bad : List Nat) (asRead : Option Bytes)
  /-- SWEEP_CLOSE (R65): In the slot's offset tick, the engine closes every interval that ended at the boundary, as mandatory
  work. -/
  | sweepClose (slot : Nat) (cost : Nat)
  /-- CATCHUP_CLOSE (R67): An engine runs a slot's pending boundary close after a forward step, ahead of records. -/
  | catchupClose (e : Nat) (cost : Nat)
  /-- SLOT_REPAIR_DONE (R201): Restoration completes, held records are applied and the slot returns to ACTIVE with cause-5
  records. -/
  | slotRepairDone (slot : Nat) (partner : Option Machine.Ledger)
  /-- SLOT_REPAIR_TIMEOUT (R202): Restoration has not completed within 100 ticks, or a 1,025th record arrives, and the slot goes
  to FAILED. -/
  | slotRepairTimeout (slot : Nat)
  /-- LDG_SLOT_REINIT (R202): REINIT puts the selected FAILED slot into EMPTY. -/
  | ldgSlotReinit
  /-- SHADOW_EXECUTE (R203): The shadow engine re-executes the sampled engine's records and compares derivation seals. -/
  | shadowExecute (cost : Nat) (cmp : Machine.ShadowCmp)
  /-- SHADOW_CORRECTION_INSTALL (R204): The agreed shadow result is installed at the next boundary with CORRECTED records. -/
  | shadowCorrectionInstall (slot : Nat)
  /-- LDG_FENCE (R25): A seat writes LDG_FENCE, cutting its admission sequence, or the fence is rejected. -/
  | ldgFence (n : Nat) (v : Nat)
  /-- LDG_RERATE_GO (R193): GO admits one re-rate order per slot of the range, or is refused. -/
  | ldgRerateGo (n : Nat)
  /-- RERATE_ORDER_APPLY (R193): An engine moves every DEF delta of the slot to its rate under the current palettes and emits
  RERATED records. -/
  | rerateOrderApply (e : Nat) (cost : Nat)
  /-- BILLING_CLOSE_ACTION (R212): Method 1 of the billing close object admits a billing order, or answers temporary-failure. -/
  | billingCloseAction (n : Nat) (slot : Nat)
  /-- BILLING_ORDER_APPLY (R212): The order makes a billing close at the latest boundary not after corrected time. -/
  | billingOrderApply (e : Nat) (cost : Nat)
  /-- READOUT_REQUEST (R291): A readout entry is served as a get or action request, checked against role rights. -/
  | readoutRequest (n : Nat)
  /-- TIME_STEP (R73): A STEP command adds the amount within 1 µs, or makes it the pending step, and cancels any slew. -/
  | timeStep (c : Nat)
  /-- TIME_STEP_APPLY (R73): A pending step larger than 1 ms is added to OFS at the next boundary. -/
  | timeStepApply
  /-- TIME_SLEW (R74): A SLEW command starts or replaces a slew, or is refused with ADJ_REJ. -/
  | timeSlew (c : Nat) (ppm : Nat)
  /-- SLEW_DONE (R74): The slew amount is used up and SLEW_ACT clears. -/
  | slewDone (c : Nat)
  /-- TIME_DISCIPLINE (R75): DISC with a source sets VALID and the source, and zeroes TIME_HOLD. -/
  | timeDiscipline (c : Nat) (src : Nat)
  /-- TIME_RATE_WRITE (R69): Writing TIME_RATE folds the accrued term into OFS and takes the new rate. -/
  | timeRateWrite (c : Nat) (v : Nat)
  /-- HOLDOVER_EXPIRE (R75): TIME_HOLD exceeds the holdover limit, so VALID clears and a major event is recorded. -/
  | holdoverExpire
  /-- LEAP_SECOND (R70): At the UTC midnight after PEND, UTC_OFS changes by one and the change is swept as a step. -/
  | leapSecond (c : Nat)
  /-- PPS_EDGE (R76): An accepted PPS edge is timestamped into PPS_TS and clears PPS_LOST. -/
  | ppsEdge (c : Nat)
  /-- PPS_LOSS (R76): No PPS edge is accepted for 1.5 s, so PPS is declared lost. -/
  | ppsLoss (c : Nat)
  /-- TRIG_ARM (R79): A TRIG_CTL write with ARM 1 arms the trigger, or refuses it and sets MISSED. -/
  | trigArm (i : Nat) (v : Nat)
  /-- TRIG_TICK_WRITE (R79): A write of TRIG_TICK while armed re-arms the trigger from the new value. -/
  | trigTickWrite (i : Nat) (v : Nat)
  /-- TRIG_FIRE (R79): A trigger fires at its boundary, starting a sample sync or ringing a control doorbell, and rearms under
  PERIOD. -/
  | trigFire (i : Nat)
  /-- RTC_CHECK (R80): Every 60 s with an outside source, the RTC is checked, aligned if needed, and LASTSYNC is written. -/
  | rtcCheck (c : Nat)
  /-- RTC_COMPENSATE (R81): The RTC reads the sensor and corrects its rate by the curve. -/
  | rtcCompensate (c : Nat) (t10 : Int) (onVbat : Bool)
  /-- RTC_CAPTURE (R82): CAPTURE copies the live RTC count into the shadows and freezes them. -/
  | rtcCapture (c : Nat)
  /-- RTC_CURVE_SAVE (R81): CURVE_SAVE writes RTC_CURVE to the vault NV array. -/
  | rtcCurveSave
  /-- OPERATING_HOUR (R277): Vault counter 4 advances at each completed hour of running. -/
  | operatingHour (c : Nat)
  /-- FRAME_INGEST (R95): A frame from the link layer is written into the filling bank with its seal, or is dropped. -/
  | frameIngest (p : Nat) (bytes : Bytes) (err : Bool)
  /-- ARBITER_ROUND (R101): A tier runs one deficit round-robin round and grants whole frames. -/
  | arbiterRound (t : Tier)
  /-- FRAME_TO_POOL (R150): A granted frame's buffers are allocated from the pool and its words pass to the pool. -/
  | frameToPool (how : FifoRead)
  /-- FIFO_PTR_MISMATCH (R98): A pointer mismatch or parity error flushes the port. -/
  | fifoPtrMismatch (p : Nat)
  /-- PORT_SHORT (R90): A driver current limit trips or a transmit pair is shorted, and the port is isolated. -/
  | portShort (p : PortAt)
  /-- PORT_OPEN (R89): An open receive pair or RXD is reported and the link is held down. -/
  | portOpen (p : Nat)
  /-- RX_PAIR_REVERSED (R91): A reversed receive pair is corrected in the cell and REV_RX is set. -/
  | rxPairReversed (p : Nat)
  /-- PORT_RETRY (R90): RETRY makes an isolated port drive again, at most once per tick. -/
  | portRetry (p : Nat)
  /-- PORT_FLUSH (R99): FLUSH empties both banks at once and aborts any frame being drained. -/
  | portFlush (p : Nat)
  /-- FIELDLINK_AUTONEG (R88): SGMII auto-negotiation brings the link up only at 1000 Mbit/s full duplex. -/
  | fieldlinkAutoneg (p : Nat) (gigFull : Bool)
  /-- PAUSE_RX (R88): A received MAC Control PAUSE is honoured; other MAC Control frames are dropped as errors. -/
  | pauseRx (p : Nat) (c : Nat) (opcode : Nat) (quanta : Nat)
  /-- PAUSE_RELEASE (R97): A FIELDLINK port sends PAUSE with quanta 0 once a MAXFRAME frame would fit. -/
  | pauseRelease (p : Nat)
  /-- EDGE_INPUT (R103): An edge on PPS_IN, a tamper input or a radio IRQ is accepted or filtered and counted. -/
  | edgeInput (e : EdgeIn) (level : Bool) (glitch : Bool) (c : Nat)
  /-- EDGE_SETTLE (R103): An input quiet for 1 ms whose settled level differs from the last accepted level takes an edge. -/
  | edgeSettle (e : EdgeIn) (c : Nat)
  /-- IRQ_STUCK (R104): A radio IRQ high for 1 tick after service is declared stuck and the MAC polls. -/
  | irqStuck (p : Nat) (c : Nat)
  /-- IRQ_POLL (R104): While the IRQ is stuck, the MAC polls the transceiver status every 1 ms. -/
  | irqPoll (p : Nat)
  /-- IRQ_UNSTUCK (R104): The IRQ ball is low for 100 ms and the MAC returns to it. -/
  | irqUnstuck (p : Nat) (c : Nat)
  /-- FP_GRP_RST_WRITE (R87): Writing FP_GRP_RST drives or releases the radio reset balls and runs the INIT writes. -/
  | fpGrpRstWrite (v : Nat)
  /-- AFE_SAMPLE_BLOCK (R111): An upstream sample block is checked, decimated, blanked and demodulated, or it is discarded. -/
  | afeSampleBlock (p : Nat) (chars : Bytes) (marks : List (Nat × PlcMark))
  /-- PLC_OVERLOAD (R115): An overload inside a frame forces a 6 dB gain step and marks erasures, aborting on the third. -/
  | plcOverload (p : Nat) (sym : NextSymbols)
  /-- AFE_STATUS_BLOCK (R118): A status block reports a zero crossing and the period is measured. -/
  | afeStatusBlock (p : Nat) (chars : Bytes)
  /-- AFE_LOCK_LOSS (R111): Lock is lost on pair A or at the AFE, and the frame being received is abandoned. -/
  | afeLockLoss (p : Nat) (atAfe : Bool)
  /-- PLC_FRAME_RX (R116): A received MAC frame enters the port's receive queue, or is discarded when the queue is full. -/
  | plcFrameRx (p : Nat) (sender : Nat) (frame : Bytes) (zc : Option (Nat × Nat))
  /-- PLC_JOIN_REQUEST (R117): A join or registration request is answered within JOIN_RATE, or deferred. -/
  | plcJoinRequest (r : JoinReq)
  /-- RAIL_FRAME_SEND (R122): The device listens, backs off and sends a rail carrier frame. -/
  | railFrameSend (c : Nat) (busy : Bool)
  /-- RAIL_FRAME_RX (R122): A rail frame is accepted on a good seal and acknowledged if requested. -/
  | railFrameRx (c : Nat) (bs : Bytes)
  /-- RAIL_ACK_TIMEOUT (R122): No ACK arrives within 9 ms, so the frame is retried and abandoned after 3 retries. -/
  | railAckTimeout
  /-- RAIL_IMPULSE (R123): A detected impulse is blanked, and regular impulses lock or unlock predictive blanking. -/
  | railImpulse (t : Nat) (above : Option Nat)
  /-- RAIL_PILOT (R124): Every idle second a pilot is sent and measured, and the coupling is declared open or closed. -/
  | railPilot (level : Int)
  /-- BEACON (R132): A beacon is sent at its instant with the pending addresses and the hint element, and the window is updated.
  -/
  | beacon (p : Nat)
  /-- RADIO_FRAME_RX (R135): A received PSDU is checked, acknowledged, duplicate-filtered and queued. -/
  | radioFrameRx (p : Nat) (c : Nat) (f : RadioFrame) (fcsOk : Bool) (endSet : Bool) (late : Bool)
  /-- DATA_REQUEST (R134): A neighbour's Data Request is acknowledged with Frame Pending from its indirect queue. -/
  | dataRequest (p : Nat) (c : Nat) (f : RadioFrame) (fcsOk : Bool) (endSet : Bool) (late : Bool)
  /-- INDIRECT_TX (R134): The oldest indirect frame is sent by slotted CSMA-CA with up to 3 retries. -/
  | indirectTx (p : Nat) (fails : Nat)
  /-- INDIRECT_EXPIRE (R134): An indirect frame not polled within the persistence is dropped and counted. -/
  | indirectExpire (p : Nat)
  /-- ASSOCIATION_REQUEST (R141): An association request is accepted within the quota, or answered PAN at capacity. -/
  | associationRequest (p : Nat) (r : AssocReq)
  /-- GTS_REQUEST (R133): A GTS request is granted or denied. -/
  | gtsRequest (p : Nat) (r : GtsReqs)
  /-- GRANT_RAISE (R143): An active device raises TXGRANT after TXGRANT_PEER has been low for 1 tick. -/
  | grantRaise (c : Nat)
  /-- GRANT_PEER_RISE (R143): TXGRANT_PEER rises, so the holder yields the grant within 1 tick. -/
  | grantPeerRise (c : Nat)
  /-- GRANT_PEER_FALL (R145): TXGRANT_PEER falls while the grant is held: INIT runs and the shadow beacon is sent. -/
  | grantPeerFall (c : Nat)
  /-- PARTNER_PSDU (R145): The shadow side takes a forwarded PSDU with its T0 and verdict into its shadow MAC. -/
  | partnerPsdu (p : Nat) (t0 : Nat) (dup : Bool) (f : ShadowPsdu)
  /-- REASSEMBLE_FRAGMENT (R152): A fragment joins its reassembly context, completing or discarding the APDU. -/
  | reassembleFragment (g : Fragment)
  /-- REASM_TIMEOUT (R153): A context idle for 200 ticks is discarded with its buffers. -/
  | reasmTimeout
  /-- CIPHER_DECRYPT (R156): The cipher farm looks up keys, checks policy, decrypts and verifies the tag, and makes the
  plaintext seal. -/
  | cipherDecrypt (is : List Nat)
  /-- CIPHER_ENCRYPT (R160): An outbound APDU is encrypted with IC_TX, or refused when it is exhausted. -/
  | cipherEncrypt (slot : Nat) (port : Nat) (sys : Bytes) (pt : Bytes)
  /-- UPLINK_SEND (R287): Staged uplink records are packed into datagrams or ring 0 by share and sent on one path. -/
  | uplinkSend (w : UpSend)
  /-- UPL_ACK (R173): UPL_ACK frees staging up to the named marker on that path. -/
  | uplAck (n : Nat) (tag : Nat) (path : Nat)
  /-- UPL_RETX (R173): UPL_RETX starts resending a marker's span with RESENT, or sets NOTAG. -/
  | uplRetx (n : Nat) (tag : Nat) (path : Nat)
  /-- UPL_RETX_DONE (R173): A retransmission ends with its marker, and RETX_BUSY clears. -/
  | uplRetxDone (n : Nat)
  /-- UPLINK_FRAME_RX (R286): An uplink frame is sorted by VLAN, MACsec-checked and delivered with its receive descriptor. -/
  | uplinkFrameRx (uplink : Nat) (c : Nat) (frame : Bytes) (mac : Option Bytes)
  /-- REG_ACCESS_DATAGRAM (R289): A register access datagram is performed as seat accesses and answered, or repeated or refused.
  -/
  | regAccessDatagram (n : Nat) (c : Nat)
  /-- RING_HOST_PTR_WRITE (R290): The host advances its ring pointer, and readout requests are taken within 1 tick. -/
  | ringHostPtrWrite (n : Nat) (r : Nat) (v : Nat) (items : List Bytes)
  /-- ADIR_INSERT (R292): INSERT adds or replaces a directory key for the seat. -/
  | adirInsert (n : Nat)
  /-- ADIR_DELETE (R292): DELETE removes a directory key. -/
  | adirDelete (n : Nat)
  /-- ADIR_LOOKUP (R292): LOOKUP writes the slot of a key to ADIR_ARG. -/
  | adirLookup (n : Nat)
  /-- VF_FLR (R285): An FLR of VF n performs L4 of seat n. -/
  | vfFlr (n : Nat)
  /-- PF_FLR (R285): An FLR of the PF clears VF Enable and performs L4 of seat 0 and every PCIe seat. -/
  | pfFlr
  /-- SEAT_L4 (R295): SEAT_CTL.L4 starts an L4 reset of the seat. -/
  | seatL4 (n : Nat)
  /-- SEAT_REOPEN (R295): The seat reopens with sequence 0, sets L4_SEEN and rings bit 28. -/
  | seatReopen (n : Nat)
  /-- MBX_DOORBELL (R297): A doorbell write sets a pending bit or merges, subject to ring rights. -/
  | mbxDoorbell (ag : Agent) (m : Nat) (v : Nat)
  /-- DOORBELL_NOTICE_VISIBLE (R33): A FENCE doorbell's notice becomes visible once the writer's posted writes have drained. -/
  | doorbellNoticeVisible (ag : Agent)
  /-- MBX_LOCK (R299): A read of MBX_LOCK requests the lock and returns the winner. -/
  | mbxLock (ags : List Agent) (m : Nat)
  /-- MBX_UNLOCK (R299): A REL write releases the lock, if it comes from a permitted releaser. -/
  | mbxUnlock (ag : Agent) (m : Nat) (v : Nat)
  /-- DOORBELL_AGED (R300): A bit pending for 1,000 ticks sets AGED and records a notice event. -/
  | doorbellAged (m : Nat)
  /-- LOCK_TIMEOUT (R300): A lock held for 100 ticks is released by the device and counted. -/
  | lockTimeout (m : Nat)
  /-- SRAM_ACCESS (R305): A bank serves up to two requesters per cycle with ageing, resolving same-word collisions. -/
  | sramAccess (c : Nat) (reqs : List MemReq) (ups : List Upset)
  /-- SRAM_ATOMIC (R307): A bank performs an atomic add or swap and returns the old value. -/
  | sramAtomic (c : Nat) (req : Nat) (addr : Nat) (n : Nat) (op : AtomicOp) (v : Nat) (ups : List Upset)
  /-- PARTIAL_WRITE (R308): A sub-word write is merged, corrected, or refused on a poisoned word. -/
  | partialWrite (sel : MemSel) (addr : Nat) (bs : Bytes) (ups : List Upset)
  /-- POISON_READ (R309): A read of a poisoned word is handled by its reader as a seal failure, miss, fault or EP completion. -/
  | poisonRead (r : PoisonReader)
  /-- PATROL_SCRUB (R304): In an idle cycle the scrubber reads a word and writes back any correction. -/
  | patrolScrub (w : Nat) (ups : List Upset)
  /-- DRAM_SCRUB (R313): The DRAM patrol scrubber reads a word and corrects it, covering 16 GiB each day. -/
  | dramScrub (w : Nat) (ups : List Upset)
  /-- BANK_RETENTION (R310): A bank idle for its group's idle time enters retention. -/
  | bankRetention (c : Nat) (bank : Nat)
  /-- MEM_CLR_COLLIDE (R306): CLR_COLLIDE sets MEM_COLLIDE to 0. -/
  | memClrCollide (v : Nat)
  /-- CHECKPOINT_PASS_DONE (R319): A checkpoint pass completes and older journal pages are trimmed. -/
  | checkpointPassDone
  /-- FOLD (R318): With fewer than 256 free one-bit blocks, the oldest is folded into TLC and then erased. -/
  | fold
  /-- GARBAGE_COLLECT (R322): The closed block with the fewest valid pages is rewritten within its stream. -/
  | garbageCollect (stream : Nat)
  /-- WEAR_LEVEL_MOVE (R323): With an erase spread above 200, COLD data moves from the least-erased block. -/
  | wearLevelMove
  /-- NAND_PROGRAM_FAIL (R324): A failed program or erase retires the block as grown bad and rewrites its pages. -/
  | nandProgramFail (id : Nat)
  /-- NAND_REFRESH (R324): A block with many reads, or with high sampled bit errors, is rewritten. -/
  | nandRefresh (id : Nat) (highErrors : Bool)
  /-- CANVAS_STAGE (R49): STAGE starts a PCIe fetch of a canvas, or reports 0x001E. -/
  | canvasStage (mode : Nat)
  /-- CANVAS_FETCH_DONE (R46): The canvas fetch ends, successfully or with 0x0020, and validation starts. -/
  | canvasFetchDone (bytes : Option Bytes)
  /-- CANVAS_CHECK_DONE (R46): Validation ends with a pass or with a rejection code and its info. -/
  | canvasCheckDone
  /-- CANVAS_STAGED (R49): The valid canvas is written to the free store and sent to the standby, and STATE reads STAGED. -/
  | canvasStaged
  /-- PARTNER_CANVAS (R49): The standby receives a canvas over the partner link and validates it. -/
  | partnerCanvas (m : CanvasMsg)
  /-- PARTNER_VALIDATION_REPORT (R51): The partner reports its validation and PARTNER_OK is set. -/
  | partnerValidationReport (code : Nat)
  /-- CANVAS_ARM (R51): ARM sets the apply tick for a staged MODE 0 canvas, or reports 0x001D. -/
  | canvasArm
  /-- CANVAS_APPLY_ABANDON (R51): The partner is not ready by the boundary T − 2/T − 1 and the application is abandoned. -/
  | canvasApplyAbandon
  /-- CANVAS_APPLY (R52): At T, every run-time section replaces its counterpart, the serial updates and the commit is
  journalled. -/
  | canvasApply
  /-- CANVAS_COMMIT (R50): COMMIT schedules a MODE 1 canvas's commit record for the next tick's journal. -/
  | canvasCommit
  /-- CANVAS_RELOAD (R50): RELOAD raises the canvas reload reset source. -/
  | canvasReload (c : Nat)
  /-- CANVAS_CANCEL (R53): CANCEL abandons a fetch, check, staging or arming before T. -/
  | canvasCancel
  /-- CANVAS_CTL_CONFLICT (R53): A CANVAS_CTL write setting more than one command is ignored. -/
  | canvasCtlConflict (v : Nat)
  /-- CAMP_CREATE (R248): CREATE fetches a campaign body into DRAM and NAND, or is refused. -/
  | campCreate (n : Nat)
  /-- CAMP_FETCH_DONE (R249): The campaign body is in place and the campaign is READY, or creation is refused with a reason. -/
  | campFetchDone (i : Nat) (body : Option Bytes)
  /-- CAMP_START (R256): START moves a READY campaign into its first phase. -/
  | campStart (n : Nat) (seen : ImgSeen)
  /-- CAMP_PAUSE (R256): PAUSE stops new campaign frames. -/
  | campPause (n : Nat)
  /-- CAMP_RESUME (R256): RESUME continues the paused phase at the step it reached. -/
  | campResume (n : Nat)
  /-- CAMP_ABORT (R256): ABORT makes the campaign ABORTED while its targets keep their records. -/
  | campAbort (n : Nat)
  /-- CAMP_RELEASE (R256): RELEASE frees a DONE or ABORTED campaign and its image area. -/
  | campRelease (n : Nat)
  /-- CAMP_TX_SLOT (R254): In a port's transmit slot, the engine starts one campaign frame if the gap and conditions allow. -/
  | campTxSlot (p : Nat) (sys : Bytes) (airtime : Nat) (busy : Bool) (seen : ImgSeen)
  /-- CAMP_RESPONSE (R251): A target's response advances its state or counts a failed attempt. -/
  | campResponse (i : Nat) (slot : Nat) (answer : CampAnswer)
  /-- CAMP_ATTEMPT_TIMEOUT (R251): No response within 30 s counts a failed attempt, and MAXTRY failures make the target FAILED.
  -/
  | campAttemptTimeout (i : Nat) (slot : Nat)
  /-- VAULT_ENROL (R263): ENROL derives the owner secret into slot 1 and publishes dpub, bind and conf, or is refused. -/
  | vaultEnrol (n : Nat) (ps : Pulses)
  /-- VAULT_ZEROISE (R262): ZEROISE with its key erases the root, enrolment, slots and vault store. -/
  | vaultZeroise (n : Nat) (zkey : Nat)
  /-- VAULT_SUBMIT (R271): SUBMIT queues the seat's update message for fetch, or answers busy. -/
  | vaultSubmit (n : Nat)
  /-- VAULT_MSG_CHECK (R271): The fetched message is checked in order and refused at the first failure. -/
  | vaultMsgCheck (m : Option Bytes)
  /-- VAULT_PUT (R270): PUT unwraps a key into an EMPTY slot and commits it. -/
  | vaultPut (ps : Pulses)
  /-- VAULT_REPLACE (R270): REPLACE writes a new key into the slot with the same ATTR and parent. -/
  | vaultReplace (ps : Pulses)
  /-- VAULT_DESTROY (R269): DESTROY empties a slot and starts the orphan sweep of its descendants. -/
  | vaultDestroy (ps : Pulses)
  /-- VAULT_DERIVE (R270): DERIVE writes an EMPTY slot with an HKDF child of a derivation base. -/
  | vaultDerive (ps : Pulses)
  /-- METER_KEY (R275): METER_KEY advances the counter and stages a meter key record for the journal. -/
  | meterKey (ps : Pulses)
  /-- ORPHAN_SWEEP_DONE (R269): The sweep has written ORPHAN into every descendant, and SWEEP clears. -/
  | orphanSweepDone
  /-- VAULT_CHAL (R276): CHAL computes the HMAC challenge response for a permitted slot. -/
  | vaultChal (n : Nat)
  /-- VAULT_EXPORT (R274): EXPORT writes the selected slot's key, wrapped under its parent's K_tx, to host memory. -/
  | vaultExport (n : Nat)
  /-- LINK_HELLO (R327): A HELLO on a deal or partner link brings the link up, or holds it down as miswired. -/
  | linkHello (l : LinkId) (h : Hello)
  /-- LINK_DELAY_MEASURE (R327): Every 100 ticks each link's delay is measured by two-way timestamps. -/
  | linkDelayMeasure (l : LinkId) (ns : Nat)
  /-- DEAL_FRAME_FORWARD (R328): A frame on a deal ring is forwarded toward its destination, dropped at TTL 0, or passed to the
  partner. -/
  | dealFrameForward (k : Nat) (b : Bytes)
  /-- DISCOVER (R332): A DISCOVER frame is collected for election. -/
  | discover (x : Discover)
  /-- ELECT (R333): An ELECT frame names a candidate dealer. -/
  | elect (pos : Nat) (side : Nat) (plan : Bytes)
  /-- DEALER (R333): A DEALER frame makes the device join that dealer or withdraw. -/
  | dealer (m : DealerMsg)
  /-- MGMT (R331): An authenticated MGMT read, write or reset is performed and answered, or dropped. -/
  | mgmt (rail : Bool) (c : Nat) (b : Bytes)
  /-- ELECTION_LISTEN_EXPIRE (R333): No DEALER is heard for 1 s, so the device starts sending DISCOVER. -/
  | electionListenExpire (c : Nat)
  /-- DISCOVER_SEND (R333): DISCOVER is sent every 200 ms with jitter during discovery. -/
  | discoverSend (c : Nat)
  /-- DISCOVER_END (R333): After 1 s of DISCOVER, the device chooses its candidate and sends ELECT. -/
  | discoverEnd (c : Nat)
  /-- ELECT_WAIT_EXPIRE (R333): With no lower DEALER within 200 ms, the candidate becomes dealer. -/
  | electWaitExpire (c : Nat)
  /-- DEALER_ANNOUNCE (R333): The dealer sends DEALER every 1 s. -/
  | dealerAnnounce (c : Nat)
  /-- SYNC (R334): A SYNC is forwarded with residence time and accepted by dealer epoch, aligning the lattice and time. -/
  | sync (k : Nat) (b : Bytes) (at0 : Int) (resid : Nat) (c : Nat)
  /-- SYNC_LOSS (R335): No SYNC for 10 ticks, so SYNC_LOST is set and the device runs its own lattice. -/
  | syncLoss
  /-- SYNC_REELECT (R335): No SYNC for 100 ticks, so the running positions re-elect. -/
  | syncReelect (c : Nat)
  /-- ALIGN_FAULT (R336): The residual exceeds 100 ns for 10 ticks, so ALIGN is set. -/
  | alignFault
  /-- CAS_RENUMBER (R341): RENUMBER shifts the device's journal tick numbers below the dealer's and continues start. -/
  | casRenumber (c : Nat)
  /-- DIR (R337): A directory update reaches the dealer and is forwarded, with duplicates flagged. -/
  | dir (m : DirMsg)
  /-- CAS_DIR_QUERY (R337): A house seat queries the slot directory. -/
  | casDirQuery
  /-- DIR_ANSWER (R337): The directory answer arrives in CAS_DIR_RES. -/
  | dirAnswer (title : Nat) (r : Option (Nat × Nat))
  /-- CHECK (R339): The dealer checks a device's plan, position and digest, and accepts or rejects it with 0x001F. -/
  | check (m : CheckMsg)
  /-- CHECK_ANSWER (R339): The device receives its check answer and proceeds, or stays at step 5. -/
  | checkAnswer (code : Nat)
  /-- PARTIAL (R244): The dealer collects a partial and evaluates the node when NPART partials have arrived. -/
  | partialIn (bs : Bytes)
  /-- SPAN_EVAL_TIMEOUT (R244): XWAIT passes after the first partial and the dealer evaluates INCOMPLETE. -/
  | spanEvalTimeout
  /-- RESULT (R244): A position writes the dealer's spanning result into its history and applies the alarm rule. -/
  | result (bs : Bytes)
  /-- NODE_EVALUATE (R232): The balance engine evaluates a boundary's nodes, writes history entries and sends partials. -/
  | nodeEvaluate (x : NodeTurn)
  /-- BAL_REBASE (R242): REBASE admits a rebase order for the selected slot. -/
  | balRebase (n : Nat)
  /-- BAL_RESET_TRACK (R242): RESET_TRACK admits a tracker reset order for the selected slot. -/
  | balResetTrack (n : Nat)
  /-- TRACKER_ORDER_APPLY (R242): A rebase or tracker reset order is applied in sequence. -/
  | trackerOrderApply (e : Nat) (cost : Nat)
  /-- HEALTH (R352): The dealer records a position's HEALTH report. -/
  | health (m : HealthMsg)
  /-- HEALTH_SEND (R352): An active side sends HEALTH every 100 ticks. -/
  | healthSend
  /-- POSITION_LOST (R352): A position not heard from for 300 ticks reads LOST. -/
  | positionLost (p : Nat)
  /-- PAIRING (R342): Partner HELLOs decide the active side by journal tick and strap preference. -/
  | pairing (jtick : Nat) (pref : Bool)
  /-- HEARTBEAT (R345): A partner heartbeat is received and recorded. -/
  | heartbeat (h : Beat)
  /-- TAKEOVER (R346): A standby missing two heartbeats takes over: it raises the epoch and grant, admits shadow records and
  resends. -/
  | takeover
  /-- TAKEOVER_NOTICE (R346): The dealer receives TAKEOVER and marks the position's active side. -/
  | takeoverNotice (k : Nat) (b : Bytes)
  /-- ROLE_RELINQUISH (R347): An active side told of the partner's takeover gives up the role and becomes DETACHED. -/
  | roleRelinquish
  /-- PACKAGE (R344): The standby compares and installs the package's records and deltas and journals them. -/
  | package (pk : Machine.Package)
  /-- SHADOW_LEFTOVER (R344): A shadow record unlisted for 8 ticks is discarded and counted. -/
  | shadowLeftover
  /-- BULK (R350): The standby takes a bulk item, keeping the later image. -/
  | bulk (item : Machine.BulkItem) (tick : Nat)
  /-- RESYNC_DONE (R350): The bulk copy completes and RESYNCED is set. -/
  | resyncDone
  /-- RESYNC_TIMEOUT (R350): The copy is not complete in 300 ticks, so RESYNC_FAIL is set and the copy restarts. -/
  | resyncTimeout
  /-- CAS_SWAP (R351): SWAP schedules a role swap at tick T, or sets SWAP_REJ. -/
  | casSwap
  /-- ROLE_SWAP (R351): At T the old active yields the grant and the new active takes EPOCH + 1 and continues USEQ. -/
  | roleSwap
  /-- CAS_RESET (R353): A partner or dealer command reset is taken at the deeper of LEVEL and the mapped level. -/
  | casReset (c : Nat) (r : ResetCmd)
  /-- UPD_STAGE (R356): STAGE starts the fetch of an own-firmware image. -/
  | updStage (downgrade : Bool)
  /-- UPD_STAGE_DONE (R356): The image is checked and written to the free store as STAGED, or rejected. -/
  | updStageDone (img : Option Bytes)
  /-- ENGINE_MICROCODE_SWAP (R358): In tick T + 1 + e, engine e loads new microcode while the shadow runs its work. -/
  | engineMicrocodeSwap (e : Nat)
  /-- UPD_RESTART (R359): RESTART raises the canvas reload source to activate a RESTART image. -/
  | updRestart (c : Nat)
  /-- UPD_REVERT (R362): REVERT during TRIAL falls back to the previous image. -/
  | updRevert (c : Nat)
  /-- TRIAL_DEADLINE (R362): TRIAL lasts 3 × WIN ticks unconfirmed and the device falls back. -/
  | trialDeadline (c : Nat)
  /-- EVT_FETCH (R399): FETCH starts a fetch of the entry at or above the requested ESEQ in the selected view. -/
  | evtFetch (n : Nat)
  /-- EVT_FETCH_DONE (R399): The fetched entry is loaded into EVT_DATA with GAP, NONE or SEAL as needed. -/
  | evtFetchDone (n : Nat) (asRead : Option Bytes)
  /-- CHARACTER_LOCK (R89): A PLC_AFE or FIELDLINK receiver gains character lock on its receive pair, so RX_LOCK is set and the
  link leaves the down state. -/
  | characterLock (p : Nat)
  /-- BLOCK_LOCK_LOSS (R327): A deal link or partner lane loses block lock and goes down, clearing its LINKS bit or PARTNER_UP.
  -/
  | blockLockLoss (l : LinkId)
  /-- DRAM_POWER_DOWN (R382): A DRAM channel idle for DRAM_PD enters power-down. -/
  | dramPowerDown (c : Nat) (ch : Nat)
  /-- LANE_SLEEP (R382): An idle SerDes lane sleeps after 1 ms without traffic and wakes within 5 µs when traffic returns. -/
  | laneSleep (lane : Nat) (c : Nat) (traffic : Bool)
  /-- UPD_ARM (R357): ARM schedules hitless activation at tick T, or reports 0x08. -/
  | updArm
  /-- UPD_ACTIVATE (R357): At T the house cores hand over to the new image and the shadow loads the new microcode. -/
  | updActivate
  /-- MICROCODE_SWAP_DONE (R358): At T + 17 the shadow returns to sampling and SWAP_DONE is set. -/
  | microcodeSwapDone
  /-- UPD_CANCEL (R356): CANCEL frees a STAGED or ARMED image. -/
  | updCancel
  /-- UPD_HEALTHY (R361): The house firmware reports health by writing HEALTHY. -/
  | updHealthy
  /-- UPD_CONFIRM (R361): At a boundary with WIN clean ticks and fresh health, the image is confirmed. -/
  | updConfirm
  /-- EVENT_FLUSH (R395): Front-buffer entries are written to the NAND log at a boundary or when 256 are waiting. -/
  | eventFlush
  /-- EVENT_SUMMARY (R397): 100 ticks after an uncarried suppression, a summary entry with SUPP is recorded. -/
  | eventSummary
  /-- EVT_INJECT (R400): INJECT records EVT_INJ's code with seat 0. -/
  | evtInject
  deriving DecidableEq, Repr

end Sys2Proof
end

