-- ==== Sys2Proof/Decode.lean ====
section
/-!
DEFINITION. The command that a word spells. The device is a block and has no instruction words: no row of the opcode table gives
bits, so no word spells a command.
-/

namespace Sys2Proof

/-- The command that a word spells by the opcode table's bits: none. -/
def decodeTableWord (_nbits _w : Nat) : Option Instr := none

end Sys2Proof
end

