-- ==== Sys2Proof/Config.lean ====
section
/-!
DEFINITION. What the spec leaves open: free values, each an opaque constant that nothing can evaluate, and the few
constants that an implementation fixes. A claim that holds of this model holds whatever these values are.
-/

namespace Sys2Proof.Config

/-- A fresh value that the spec leaves undefined; `k` names the use and `n` counts the uses. -/
opaque freeValue : (k : Nat) → (n : Nat) → Nat

/-- R78: the device's fixed internal latency of an uplink, in ns: ingress (false) or egress (true). -/
opaque ptpLatency : Bool → Nat

/-- R107, R113: the output of the decimation filter of a standard and band for the ADC samples its history spans, newest
first. -/
opaque decimate : (std band : Nat) → List Int → Int

/-- R238: which way a stored fixed-point field is rounded when the exact value `num / den` lies halfway (true: up). -/
opaque tie : (num : Int) → (den : Nat) → Bool

/-- R236: a value `num / den` that binary32 does not hold is stored as the neighbour away from zero (true) or toward it. -/
opaque roundAway : (num : Int) → (den : Nat) → Bool

/-- R42, R46: is a layout version of a known section type supported? -/
opaque sverKnown : (ty sver : Nat) → Bool

/-- R232: the loss in 0.1 Wh over `p` minutes of a node with a rating of 0 VA, for its no-load loss, load loss and power. -/
opaque lossUnrated : (nl ll pin p : Nat) → Int

/-- R252: the authentication key that stands beside the broadcast key of a vault slot in a multicast block's additional
authenticated data. -/
opaque bcastAk : (slot : Nat) → List (BitVec 8)

/-- R119, R293: the half-word of a neighbour table entry of 32 bytes at which its PHASE word stands. -/
opaque phasePlace : Nat

/-- R123: the spacing of the samples of the rail carrier's receiver, in units of 10 ns. -/
opaque railSample : Nat

/-- R355: the Efder release keys of the boot ROM, by number 0 to 3, as 32-byte public keys. -/
opaque romKey : (i : Nat) → List (BitVec 8)

end Sys2Proof.Config
end

