-- ==== Sys2Proof/Machine/Canvas.lean ====
section
/-!
DEFINITION. The fields of a canvas (R40 to R45): the header, the section table, the section bodies, and the fields of
each section that its chapter defines. A canvas is its byte string; a field of an absent section reads as zero.
-/

namespace Sys2Proof.Machine

/-- A canvas is a byte string (R40). -/
abbrev Canvas := Bytes

namespace Canvas

/-! ### Header (R41) and section table (R42) -/

def totalLen (c : Canvas) : Nat := u c 8 4
def partType (c : Canvas) : Nat := u c 12 2
def minStep (c : Canvas) : Nat := u c 14 1
/-- CLASS: 0 compact, 1 full-ledger (R2). -/
def cls (c : Canvas) : Nat := u c 15 1
def serial (c : Canvas) : Nat := u c 16 4
def sectCount (c : Canvas) : Nat := u c 20 2
def tickSel (c : Canvas) : Nat := u c 22 1
def position (c : Canvas) : Nat := u c 23 1
def slots (c : Canvas) : Nat := u c 24 4

/-- L in ns (R55). -/
def tickNs (c : Canvas) : Nat :=
  match tickSel c with
  | 1 => 5000000
  | 2 => 20000000
  | _ => 10000000

def entType (c : Canvas) (i : Nat) : Nat := u c (64 + 16 * i) 1
def entFlags (c : Canvas) (i : Nat) : Nat := u c (64 + 16 * i + 1) 1
def entSver (c : Canvas) (i : Nat) : Nat := u c (64 + 16 * i + 2) 2
def entOff (c : Canvas) (i : Nat) : Nat := u c (64 + 16 * i + 4) 4
def entLen (c : Canvas) (i : Nat) : Nat := u c (64 + 16 * i + 8) 4
def entSeal (c : Canvas) (i : Nat) : Nat := u c (64 + 16 * i + 12) 4

/-- Index of the section of a type. -/
def sectIdx (c : Canvas) (ty : Nat) : Option Nat := (List.range (sectCount c)).find? fun i => entType c i == ty

/-- Body of the section at a table index. -/
def bodyAt (c : Canvas) (i : Nat) : Bytes := slice c (entOff c i) (entLen c i)

/-- Body of the section of a type; empty when the canvas has none. -/
def body (c : Canvas) (ty : Nat) : Bytes :=
  match sectIdx c ty with
  | some i => bodyAt c i
  | none => []

def tyPORTS : Nat := 0x01
def tyFIFO : Nat := 0x02
def tyPOOL : Nat := 0x03
def tyENGINES : Nat := 0x04
def tySEATS : Nat := 0x05
def tyTOPOLOGY : Nat := 0x06
def tyVEE : Nat := 0x07
def tyPALETTES : Nat := 0x08
def tyACCESS : Nat := 0x09
def tyPOWER : Nat := 0x0A
def tyCASCADE : Nat := 0x0B
def tyRESET : Nat := 0x0C
def tyBANDPLAN : Nat := 0x0D
def tyTIMEBASE : Nat := 0x0E
def tyHOUSE : Nat := 0x0F

/-- The `n`-byte field at `off` of the section of a type. -/
def f (c : Canvas) (ty off n : Nat) : Nat := u (body c ty) off n

/-! ### SEATS (R283) -/

def seatF (c : Canvas) (n off len : Nat) : Nat := f c tySEATS (128 * n + off) len
def seatProv (c : Canvas) (n : Nat) : Bool := bitOf (seatF c n 0 1) 0
def seatPcie (c : Canvas) (n : Nat) : Bool := bitOf (seatF c n 0 1) 1
def seatVlan (c : Canvas) (n : Nat) : Bool := bitOf (seatF c n 0 1) 2
def seatPeriod (c : Canvas) (n : Nat) : Nat := seatF c n 1 1
def seatIvl (c : Canvas) (n i : Nat) : Nat := seatF c n (2 + i) 1
def seatLvlPcie (c : Canvas) (n : Nat) : Nat := bitsOf (seatF c n 5 1) 1 0
def seatLvlUp (c : Canvas) (n : Nat) : Nat := bitsOf (seatF c n 5 1) 3 2
def seatVid (c : Canvas) (n : Nat) : Nat := bitsOf (seatF c n 6 2) 11 0
def seatFirst (c : Canvas) (n : Nat) : Nat := seatF c n 8 4
def seatCount (c : Canvas) (n : Nat) : Nat := seatF c n 12 4
def seatPort (c : Canvas) (n p : Nat) : Bool := bitOf (seatF c n (16 + p / 8) 1) (p % 8)
def seatAuth (c : Canvas) (n : Nat) : Nat := seatF c n 48 2
def seatVlo (c : Canvas) (n : Nat) : Nat := seatF c n 50 2
def seatVhi (c : Canvas) (n : Nat) : Nat := seatF c n 52 2
def seatShare (c : Canvas) (n : Nat) : Nat := seatF c n 54 2
def seatRx (c : Canvas) (n m : Nat) : Bool := bitOf (seatF c n 56 8) m
def seatTx (c : Canvas) (n m : Nat) : Bool := bitOf (seatF c n 64 8) m
def seatMtu (c : Canvas) (n : Nat) : Nat := seatF c n 108 2
def seatCak (c : Canvas) (n : Nat) : Nat := seatF c n 110 2
def seatMsgmem (c : Canvas) (n : Nat) : Nat := seatF c n 112 2

/-- The provisioned seats. -/
def seats (c : Canvas) : List Nat := (List.range 64).filter (seatProv c)

/-- The seat whose partition holds a slot (R15). -/
def seatOfSlot (c : Canvas) (s : Nat) : Option Nat :=
  (seats c).find? fun n => seatFirst c n ≤ s && s < seatFirst c n + seatCount c n

/-- A seat's own mailboxes in mailbox order (R296). -/
def seatMbxs (c : Canvas) (n : Nat) : List Nat := (List.range 64).filter fun m => seatRx c n m || seatTx c n m

/-- The seat that receives a mailbox. -/
def mbxSeat (c : Canvas) (m : Nat) : Option Nat := (seats c).find? fun n => seatRx c n m

/-- The house mailboxes: those that no seat receives, the vault's apart (R296). -/
def houseMbxs (c : Canvas) : List Nat := (List.range 63).filter fun m => (mbxSeat c m).isNone

/-! ### POOL (R148, R433) -/

def apduMax (c : Canvas) : Nat := f c tyPOOL 0 2
def poolReserve (c : Canvas) (n : Nat) : Nat := f c tyPOOL (64 + 2 * n) 2
/-- The home seat of a port (R148). -/
def homeSeat (c : Canvas) (p : Nat) : Nat := f c tyPOOL (192 + p) 1

/-! ### HOUSE (R398) -/

def rlDef (c : Canvas) : Nat := f c tyHOUSE 0 2
def rlCount (c : Canvas) : Nat := f c tyHOUSE 2 2
def confWin (c : Canvas) : Nat := f c tyHOUSE 4 4
def balWs (c : Canvas) : Nat := f c tyHOUSE 8 2
def uplStage (c : Canvas) : Nat := f c tyHOUSE 10 2
def campArea (c : Canvas) : Nat := f c tyHOUSE 12 2

/-- The limit L of a code in entries per second (R397, R398); the default 10 stands while no canvas gives one. -/
def rateLimit (c : Canvas) (code : Nat) : Nat :=
  match (List.range (rlCount c)).find? fun i => f c tyHOUSE (64 + 4 * i) 2 == code with
  | some i => f c tyHOUSE (64 + 4 * i + 2) 2
  | none => if rlDef c = 0 then 10 else rlDef c

/-! ### TIMEBASE (R428) -/

def span (c : Canvas) : Nat := f c tyTIMEBASE 0 2
def holdover (c : Canvas) : Nat := f c tyTIMEBASE 4 4
def carryMib (c : Canvas) : Nat := f c tyTIMEBASE 8 2
def mcap (c : Canvas) (e : Nat) : Nat := f c tyTIMEBASE (64 + 4 * e) 4
def mload (c : Canvas) (e : Nat) : Nat := f c tyTIMEBASE (128 + 4 * e) 4

/-- Entries of one engine's share of the carry queue (R61): 64-byte entries split evenly among 16 engines. -/
def carryShare (c : Canvas) : Nat := carryMib c * 1048576 / 64 / 16

/-! ### PORTS (R429) and FIFO (R430) -/

/-- The modes of R85. -/
def mOFF : Nat := 0
def mPLC : Nat := 1
def mRADIO : Nat := 2
def mFIELDLINK : Nat := 3
def mSERIAL : Nat := 4

def portF (c : Canvas) (p off n : Nat) : Nat := f c tyPORTS (64 + 16 * p + off) n
def portMode (c : Canvas) (p : Nat) : Nat := portF c p 0 1 % 8
def portTxInv (c : Canvas) (p : Nat) : Nat := portF c p 1 1 % 2
def fifoBank (c : Canvas) (p : Nat) : Nat := f c tyFIFO p 1 % 4
def fifoProt (c : Canvas) (p : Nat) : Nat := f c tyFIFO p 1 / 4 % 2

/-- Bytes of one bank of a port (R430). -/
def bankBytes (c : Canvas) (p : Nat) : Nat := 2048 * 2 ^ fifoBank c p

/-- MAXFRAME of a port (R96). -/
def maxFrame (c : Canvas) (p : Nat) : Nat :=
  if portMode c p = mFIELDLINK then portF c p 2 2 else if portMode c p = mOFF then 0 else 2047

/-! ### BANDPLAN (R431, R432) -/

def bpF (c : Canvas) (p off n : Nat) : Nat := f c tyBANDPLAN (256 * p + off) n
def plcStd (c : Canvas) (p : Nat) : Nat := bpF c p 1 1
def plcBand (c : Canvas) (p : Nat) : Nat := bpF c p 2 1
def plcTxlvl (c : Canvas) (p : Nat) : Nat := bpF c p 3 1
def plcToneMask (c : Canvas) (p : Nat) : Nat := bpF c p 8 9
def plcJoinRate (c : Canvas) (p : Nat) : Nat := bpF c p 6 1

/-- The decimation ratio of a band (R108). -/
def plcDecim (c : Canvas) (p : Nat) : Nat := if plcStd c p = 1 then 24 else if plcBand c p = 1 then 5 else 15

def radRate (c : Canvas) (p : Nat) : Nat := bpF c p 1 1
def radFcs4 (c : Canvas) (p : Nat) : Nat := bpF c p 8 1
def radBO (c : Canvas) (p : Nat) : Nat := bpF c p 6 1
def radSO (c : Canvas) (p : Nat) : Nat := bpF c p 7 1
def radGtsMax (c : Canvas) (p : Nat) : Nat := bpF c p 9 1
def radJoinRate (c : Canvas) (p : Nat) : Nat := bpF c p 10 1
def radMod (c : Canvas) (p : Nat) : Nat := bpF c p 11 1
def radPersist (c : Canvas) (p : Nat) : Nat := bpF c p 12 1
def radDupHold (c : Canvas) (p : Nat) : Nat := bpF c p 13 1
def radNcap (c : Canvas) (p : Nat) : Nat := bpF c p 14 2
def radRxLat (c : Canvas) (p : Nat) : Nat := bpF c p 23 1
def radNinit (c : Canvas) (p : Nat) : Nat := bpF c p 33 1

/-- The INIT writes of a port's transceiver (R130). -/
def radInit (c : Canvas) (p : Nat) : Bytes := slice (body c tyBANDPLAN) (256 * p + 64) (3 * radNinit c p)

/-- The beacon interval in ns (R131): 960 × 2^BO symbols of one bit each. -/
def radBI (c : Canvas) (p : Nat) : Nat := 960 * 2 ^ radBO c p * 1000000 / (50 * (radRate c p + 1))

/-! ### CASCADE (R329) -/

def npos (c : Canvas) : Nat := f c tyCASCADE 0 1
def chord (c : Canvas) : Nat := f c tyCASCADE 1 1
def cfl (c : Canvas) : Nat := f c tyCASCADE 2 1
def eligible (c : Canvas) : Bool := bitOf (cfl c) 0
def autoSwap (c : Canvas) : Bool := bitOf (cfl c) 1
def planId (c : Canvas) : Bytes := slice (body c tyCASCADE) 32 32

/-- Has the position a partner (R51, R329)? -/
def hasPartner (c : Canvas) : Bool := position c != 0xFF && bitOf (cfl c) 2

end Canvas

end Sys2Proof.Machine
end

