-- ==== Sys2Proof/Machine/Crypto.lean ====
section
/-!
DEFINITION. The device's arithmetic on byte strings: the CRC-32C seal of R154, the CRC of the analog front-end link
(R110), and the standard algorithms that the spec names by standard and clause: SHA-256 and SHA-512 (FIPS 180-4),
HMAC and HKDF (RFC 2104, RFC 5869), AES (FIPS 197), AES key wrap (RFC 3394), AES-GCM (SP 800-38D), X25519 (RFC 7748) and
Ed25519 verification under R426 (RFC 8032). The constants of the hash functions are computed from their definition.
-/

namespace Sys2Proof.Machine

/-! ### Cyclic redundancy checks -/

/-- One bit of a reflected CRC-32C division (R154, polynomial 0x1EDC6F41 reflected). -/
def crc32cBit (c : Nat) : Nat := if c % 2 = 1 then (c / 2) ^^^ 0x82F63B78 else c / 2

/-- One byte of the CRC-32C. -/
def crc32cByte (c : Nat) (b : Byte) : Nat := Nat.repeat crc32cBit 8 (c ^^^ b.toNat)

/-- The CRC-32C register after the bytes, from `init`, before the final XOR. -/
def crc32cFrom (init : Nat) (bs : Bytes) : Nat := bs.foldl crc32cByte init

/-- Every seal of the device (R154): initial value 0, final XOR 0x5EA1_9240. -/
@[irreducible] def sealOf (bs : Bytes) : Nat := crc32cFrom 0 bs ^^^ 0x5EA19240

/-- One byte of the analog front-end link's CRC (R110): polynomial 0x1021, initial value 0xFFFF, no reflection. -/
def crc16Byte (c : Nat) (b : Byte) : Nat :=
  Nat.repeat (fun c => if c ≥ 0x8000 then ((c * 2) % 0x10000) ^^^ 0x1021 else c * 2) 8 (c ^^^ (b.toNat * 256))

/-- The CRC of a block of the analog front-end link (R110). -/
@[irreducible] def crcAfe (bs : Bytes) : Nat := bs.foldl crc16Byte 0xFFFF

/-! ### SHA-2 -/

/-- The first eighty primes. -/
def primes80 : List Nat :=
  [2, 3, 5, 7, 11, 13, 17, 19, 23, 29, 31, 37, 41, 43, 47, 53, 59, 61, 67, 71, 73, 79, 83, 89, 97, 101, 103, 107, 109,
   113, 127, 131, 137, 139, 149, 151, 157, 163, 167, 173] ++
  [179, 181, 191, 193, 197, 199, 211, 223, 227, 229, 233, 239, 241, 251, 257, 263, 269, 271, 277, 281, 283, 293, 307,
   311, 313, 317, 331, 337, 347, 349, 353, 359, 367, 373, 379, 383, 389, 397, 401, 409]

/-- The greatest `r` below `2 ^ n` (added to `acc`) whose `k`-th power does not pass `v`. -/
def iroot (k v : Nat) : Nat → Nat → Nat
  | 0, acc => acc
  | n + 1, acc => iroot k v n (if (acc + 2 ^ n) ^ k ≤ v then acc + 2 ^ n else acc)

/-- The round constants of SHA-512: the fractional parts of the cube roots of the primes. -/
def k512 : List Nat := primes80.map fun p => iroot 3 (p * 2 ^ 192) 68 0 % 2 ^ 64

/-- The initial hash value of SHA-512: the fractional parts of the square roots of the first eight primes. -/
def h512 : List Nat := (primes80.take 8).map fun p => iroot 2 (p * 2 ^ 128) 68 0 % 2 ^ 64

/-- The round constants of SHA-256: the high halves of those of SHA-512. -/
def k256 : List Nat := (k512.take 64).map (· / 2 ^ 32)

/-- The initial hash value of SHA-256. -/
def h256 : List Nat := h512.map (· / 2 ^ 32)

/-- The parameters in which SHA-256 and SHA-512 differ. -/
structure ShaCfg where
  w : Nat
  rounds : Nat
  k : List Nat
  h : List Nat
  bigA : Nat × Nat × Nat
  bigE : Nat × Nat × Nat
  smA : Nat × Nat × Nat
  smB : Nat × Nat × Nat
  deriving DecidableEq, Repr

/-- FIPS 180-4: SHA-256. -/
def sha256Cfg : ShaCfg := ⟨32, 64, k256, h256, (2, 13, 22), (6, 11, 25), (7, 18, 3), (17, 19, 10)⟩

/-- FIPS 180-4: SHA-512. -/
def sha512Cfg : ShaCfg := ⟨64, 80, k512, h512, (28, 34, 39), (14, 18, 41), (1, 8, 7), (19, 61, 6)⟩

/-- Rotate a `w`-bit word right. -/
def rotr (w n x : Nat) : Nat := (x / 2 ^ n) ||| ((x * 2 ^ (w - n)) % 2 ^ w)

/-- The sums of three rotations. -/
def shaBig (w : Nat) (r : Nat × Nat × Nat) (x : Nat) : Nat := rotr w r.1 x ^^^ rotr w r.2.1 x ^^^ rotr w r.2.2 x

/-- The message-schedule sums of two rotations and a shift. -/
def shaSmall (w : Nat) (r : Nat × Nat × Nat) (x : Nat) : Nat := rotr w r.1 x ^^^ rotr w r.2.1 x ^^^ (x / 2 ^ r.2.2)

/-- Extend a message schedule held newest word first. -/
def shaSched (c : ShaCfg) : Nat → List Nat → List Nat
  | 0, ws => ws
  | n + 1, ws =>
    let g i := ws.getD i 0
    shaSched c n (((shaSmall c.w c.smB (g 1) + g 6 + shaSmall c.w c.smA (g 14) + g 15) % 2 ^ c.w) :: ws)

/-- One compression round over the eight working words. -/
def shaRound (c : ShaCfg) (st : List Nat) (kw : Nat × Nat) : List Nat :=
  match st with
  | [a, b, cc, d, e, f, g, h] =>
    let ch := (e &&& f) ^^^ ((2 ^ c.w - 1 - e) &&& g)
    let t1 := h + shaBig c.w c.bigE e + ch + kw.1 + kw.2
    let t2 := shaBig c.w c.bigA a + ((a &&& b) ^^^ (a &&& cc) ^^^ (b &&& cc))
    [(t1 + t2) % 2 ^ c.w, a, b, cc, (d + t1) % 2 ^ c.w, e, f, g]
  | _ => st

/-- Absorb one block. -/
def shaBlock (c : ShaCfg) (h : List Nat) (blk : Bytes) : List Nat :=
  let nb := c.w / 8
  let w0 := (List.range 16).map fun i => ofBe (slice blk (nb * i) nb)
  let ws := (shaSched c (c.rounds - 16) w0.reverse).reverse
  let st := (c.k.zip ws).foldl (shaRound c) h
  (h.zip st).map fun p => (p.1 + p.2) % 2 ^ c.w

/-- The padded message. -/
def shaPad (c : ShaCfg) (m : Bytes) : Bytes :=
  let blk := 2 * c.w
  let lenf := c.w / 4
  m ++ [0x80] ++ zeros ((2 * blk - (m.length + 1 + lenf) % blk) % blk) ++ beBytes lenf (8 * m.length)

/-- Absorb `n` blocks. -/
def shaBlocks (c : ShaCfg) : Nat → List Nat → Bytes → List Nat
  | 0, h, _ => h
  | n + 1, h, m => shaBlocks c n (shaBlock c h (m.take (2 * c.w))) (m.drop (2 * c.w))

/-- The digest. -/
def shaDigest (c : ShaCfg) (m : Bytes) : Bytes :=
  let p := shaPad c m
  (shaBlocks c (p.length / (2 * c.w)) c.h p).flatMap (beBytes (c.w / 8))

/-- SHA-256. -/
@[irreducible] def sha256 (m : Bytes) : Bytes := shaDigest sha256Cfg m

/-- SHA-512. -/
@[irreducible] def sha512 (m : Bytes) : Bytes := shaDigest sha512Cfg m

/-- HMAC-SHA-256. -/
def hmac (key m : Bytes) : Bytes :=
  let k0 := if key.length > 64 then sha256 key else key
  let k := k0 ++ zeros (64 - k0.length)
  sha256 (k.map (· ^^^ 0x5C) ++ sha256 (k.map (· ^^^ 0x36) ++ m))

/-- The output blocks of HKDF-Expand. -/
def hkdfExpand (prk info : Bytes) : Nat → Nat → Bytes → Bytes
  | 0, _, _ => []
  | n + 1, i, prev =>
    let t := hmac prk (prev ++ info ++ [BitVec.ofNat 8 i])
    t ++ hkdfExpand prk info n (i + 1) t

/-- HKDF-SHA-256 (RFC 5869) of `len` bytes. -/
def hkdf (ikm salt info : Bytes) (len : Nat) : Bytes :=
  (hkdfExpand (hmac salt ikm) info ((len + 31) / 32) 1 []).take len

/-- The salt the vault uses unless a rule names one: 32 zero bytes. -/
def noSalt : Bytes := zeros 32

/-- The bytes of an ASCII text. -/
def ascii (s : String) : Bytes := s.toList.map fun c => BitVec.ofNat 8 c.toNat

/-! ### AES -/

/-- Multiplication by x in the field of AES. -/
def gfDouble (a : Nat) : Nat := if a ≥ 128 then ((a * 2) % 256) ^^^ 0x1B else a * 2

/-- Multiplication in the field of AES. -/
def gfMul (a b : Nat) : Nat :=
  ((List.range 8).foldl (fun (p : Nat × Nat) i =>
    (if bitOf b i then p.1 ^^^ p.2 else p.1, gfDouble p.2)) (0, a)).1

/-- The multiplicative inverse: the 254th power. -/
def gfInv (a : Nat) : Nat :=
  let a2 := gfMul a a
  let a3 := gfMul a2 a
  let a6 := gfMul a3 a3
  let a12 := gfMul a6 a6
  let a15 := gfMul a12 a3
  let a30 := gfMul a15 a15
  let a60 := gfMul a30 a30
  let a120 := gfMul a60 a60
  let a240 := gfMul a120 a120
  gfMul a240 (gfMul a12 a2)

/-- Rotate a byte left. -/
def rotl8 (x n : Nat) : Nat := ((x * 2 ^ n) % 256) ||| (x / 2 ^ (8 - n))

/-- The substitution of one byte. -/
def sboxOf (x : Nat) : Nat :=
  let v := gfInv x
  v ^^^ rotl8 v 1 ^^^ rotl8 v 2 ^^^ rotl8 v 3 ^^^ rotl8 v 4 ^^^ 0x63

/-- The substitution box of AES. -/
def sbox : List Nat := (List.range 256).map sboxOf

/-- The inverse substitution box. -/
def sboxInv : List Nat := (List.range 256).map fun y => (sbox.findIdx? (· == y)).getD 0

/-- Exclusive or of two equal-length lists. -/
def xorL (a b : List Nat) : List Nat := a.zipWith (· ^^^ ·) b

/-- Expand the key: four-byte words, newest first. -/
def aesExpand (nk : Nat) : Nat → Nat → Nat → List (List Nat) → List (List Nat)
  | 0, _, _, ws => ws
  | n + 1, i, rcon, ws =>
    let prev := ws.getD 0 []
    let back := ws.getD (nk - 1) []
    let sub := fun (w : List Nat) => w.map fun x => sbox.getD x 0
    let t := if i % nk = 0 then xorL (sub (prev.drop 1 ++ prev.take 1)) [rcon, 0, 0, 0]
             else if nk > 6 && i % nk = 4 then sub prev else prev
    aesExpand nk n (i + 1) (if i % nk = 0 then gfDouble rcon else rcon) (xorL back t :: ws)

/-- The round keys, sixteen bytes each. -/
def aesKeys (key : Bytes) : List (List Nat) :=
  let k := key.map (·.toNat)
  let nk := key.length / 4
  let w0 := (List.range nk).map fun i => (k.drop (4 * i)).take 4
  let rounds := nk + 6
  let ws := (aesExpand nk (4 * (rounds + 1) - nk) nk 1 w0.reverse).reverse
  (List.range (rounds + 1)).map fun r => ((ws.drop (4 * r)).take 4).flatten

/-- Row shift: byte `r + 4c` comes from column `c + r` (or `c - r` when inverting). -/
def shiftRows (inv : Bool) (s : List Nat) : List Nat :=
  (List.range 16).map fun i =>
    let r := i % 4
    let c := i / 4
    s.getD (r + 4 * ((if inv then c + 4 - r else c + r) % 4)) 0

/-- Column mix with the first row of the matrix given. -/
def mixCols (m : List Nat) (s : List Nat) : List Nat :=
  (List.range 16).map fun i =>
    let r := i % 4
    let c := i / 4
    (List.range 4).foldl (fun a j => a ^^^ gfMul (m.getD ((j + 4 - r) % 4) 0) (s.getD (4 * c + j) 0)) 0

/-- Encrypt one block with expanded keys. -/
def aesEncBlock (ks : List (List Nat)) (blk : Bytes) : Bytes :=
  let sub := fun (s : List Nat) => s.map fun x => sbox.getD x 0
  let s0 := xorL (blk.map (·.toNat)) (ks.getD 0 [])
  let mid := (ks.drop 1).dropLast
  let s1 := mid.foldl (fun s k => xorL (mixCols [2, 3, 1, 1] (shiftRows false (sub s))) k) s0
  (xorL (shiftRows false (sub s1)) (ks.getLastD [])).map (BitVec.ofNat 8)

/-- Decrypt one block with expanded keys. -/
def aesDecBlock (ks : List (List Nat)) (blk : Bytes) : Bytes :=
  let sub := fun (s : List Nat) => s.map fun x => sboxInv.getD x 0
  let rk := ks.reverse
  let s0 := xorL (blk.map (·.toNat)) (rk.getD 0 [])
  let mid := (rk.drop 1).dropLast
  let s1 := mid.foldl (fun s k => mixCols [14, 11, 13, 9] (xorL (sub (shiftRows true s)) k)) s0
  (xorL (sub (shiftRows true s1)) (rk.getLastD [])).map (BitVec.ofNat 8)

/-- One pass of the key-wrap steps over the registers R[1..n]; `t` counts steps. -/
def kwPass (ks : List (List Nat)) : Nat → Bytes → List Bytes → Bytes × List Bytes
  | _, a, [] => (a, [])
  | t, a, r :: rs =>
    let b := aesEncBlock ks (a ++ r)
    let a' := (b.take 8).zipWith (· ^^^ ·) (beBytes 8 t)
    let p := kwPass ks (t + 1) a' rs
    (p.1, b.drop 8 :: p.2)

/-- The eight-byte pieces of a byte string. -/
def pieces8 (bs : Bytes) : List Bytes := (List.range (bs.length / 8)).map fun i => slice bs (8 * i) 8

/-- AES key wrap (RFC 3394) with the default initial value. -/
@[irreducible] def keyWrap (kek key : Bytes) : Bytes :=
  let ks := aesKeys kek
  let n := key.length / 8
  let p := (List.range 6).foldl (fun p j => kwPass ks (n * j + 1) p.1 p.2) (List.replicate 8 (0xA6 : Byte), pieces8 key)
  p.1 ++ p.2.flatten

/-- One pass of unwrapping, over the registers in reverse order; `t` counts steps down. -/
def kuPass (ks : List (List Nat)) : Nat → Bytes → List Bytes → Bytes × List Bytes
  | _, a, [] => (a, [])
  | t, a, r :: rs =>
    let b := aesDecBlock ks (a.zipWith (· ^^^ ·) (beBytes 8 t) ++ r)
    let p := kuPass ks (t - 1) (b.take 8) rs
    (p.1, b.drop 8 :: p.2)

/-- AES key unwrap; nothing where the integrity check fails. -/
@[irreducible] def keyUnwrap (kek w : Bytes) : Option Bytes :=
  if w.length % 8 ≠ 0 ∨ w.length < 24 then none else
  let ks := aesKeys kek
  let n := w.length / 8 - 1
  let p := (List.range 6).foldl (fun p j => kuPass ks (n * (6 - j)) p.1 p.2) (w.take 8, (pieces8 (w.drop 8)).reverse)
  if p.1 = List.replicate 8 (0xA6 : Byte) then some p.2.reverse.flatten else none

/-- Multiplication in the field of GHASH (bit 0 the most significant). -/
def ghMul (x y : Nat) : Nat :=
  ((List.range 128).foldl (fun (p : Nat × Nat) i =>
    let z := if bitOf x (127 - i) then p.1 ^^^ p.2 else p.1
    (z, if p.2 % 2 = 1 then (p.2 / 2) ^^^ (0xE1 * 2 ^ 120) else p.2 / 2)) (0, y)).1

/-- The sixteen-byte pieces of a byte string, the last one padded with zeros. -/
def pieces16 (bs : Bytes) : List Bytes := (List.range ((bs.length + 15) / 16)).map fun i => slice bs (16 * i) 16

/-- GHASH over the additional data, the text and their lengths. -/
def ghash (h : Nat) (aad ct : Bytes) : Nat :=
  let blocks := pieces16 aad ++ pieces16 ct ++ [beBytes 8 (8 * aad.length) ++ beBytes 8 (8 * ct.length)]
  blocks.foldl (fun y b => ghMul (y ^^^ ofBe b) h) 0

/-- AES in counter mode from block counter 2. -/
def gcmCtr (ks : List (List Nat)) (iv bs : Bytes) : Bytes :=
  let stream := (List.range ((bs.length + 15) / 16)).flatMap fun i => aesEncBlock ks (iv ++ beBytes 4 (i + 2))
  bs.zipWith (· ^^^ ·) stream

/-- The GCM tag of a ciphertext. -/
def gcmTag (ks : List (List Nat)) (iv aad ct : Bytes) (n : Nat) : Bytes :=
  let h := ofBe (aesEncBlock ks (zeros 16))
  let s := beBytes 16 (ghash h aad ct)
  ((aesEncBlock ks (iv ++ beBytes 4 1)).zipWith (· ^^^ ·) s).take n

/-- AES-GCM encryption: the ciphertext and an `n`-byte tag. -/
@[irreducible] def gcmSeal (key iv aad pt : Bytes) (n : Nat) : Bytes × Bytes :=
  let ks := aesKeys key
  let ct := gcmCtr ks iv pt
  (ct, gcmTag ks iv aad ct n)

/-- AES-GCM decryption; nothing where the tag does not verify. -/
@[irreducible] def gcmOpen (key iv aad ct tag : Bytes) : Option Bytes :=
  let ks := aesKeys key
  if gcmTag ks iv aad ct tag.length = tag then some (gcmCtr ks iv ct) else none

/-! ### Curve25519 -/

/-- The field prime 2^255 - 19. -/
def p25519 : Nat := 2 ^ 255 - 19

/-- Modular power by squaring over the `n` low bits of the exponent. -/
def powMod (m b e : Nat) : Nat → Nat
  | 0 => 1
  | n + 1 =>
    let r := powMod m b (e / 2) n
    if e % 2 = 1 then (r * r % m) * b % m else r * r % m

/-- The inverse in the field of Curve25519. -/
def inv25519 (x : Nat) : Nat := powMod p25519 x (p25519 - 2) 255

/-- Subtraction in the field. -/
def fsub (a b : Nat) : Nat := (a + p25519 - b % p25519) % p25519

/-- One step of the Montgomery ladder over (x2, z2, x3, z3). -/
def ladderStep (x1 : Nat) (q : Nat × Nat × Nat × Nat) (bit : Bool) : Nat × Nat × Nat × Nat :=
  let P := p25519
  let q := if bit then (q.2.2.1, q.2.2.2, q.1, q.2.1) else q
  let a := (q.1 + q.2.1) % P
  let aa := a * a % P
  let b := fsub q.1 q.2.1
  let bb := b * b % P
  let e := fsub aa bb
  let c := (q.2.2.1 + q.2.2.2) % P
  let d := fsub q.2.2.1 q.2.2.2
  let da := d * a % P
  let cb := c * b % P
  let s := (da + cb) % P
  let f := fsub da cb
  let r := (aa * bb % P, e * ((aa + 121665 * e) % P) % P, s * s % P, x1 * (f * f % P) % P)
  if bit then (r.2.2.1, r.2.2.2, r.1, r.2.1) else r

/-- RFC 7748: clear bits 0-2 and 255 of the scalar, set bit 254. -/
def clamp25519 (k : Nat) : Nat := (k % 2 ^ 254 / 8) * 8 + 2 ^ 254

/-- X25519 (RFC 7748) of a 32-byte scalar (clamped here) and a 32-byte coordinate. -/
@[irreducible] def x25519 (scalar ucoord : Bytes) : Bytes :=
  let k := clamp25519 (ofLe scalar)
  let x1 := ofLe ucoord % 2 ^ 255 % p25519
  let q := (List.range 255).foldl (fun q i => ladderStep x1 q (bitOf k (254 - i))) (1, 0, x1, 1)
  leBytes 32 (q.1 * inv25519 q.2.1 % p25519)

/-- The base point of X25519. -/
def base25519 : Bytes := leBytes 32 9

/-- The constant d of the twisted Edwards curve. -/
def edD : Nat := fsub 0 (121665 * inv25519 121666 % p25519)

/-- A point in extended coordinates (X, Y, Z, T). -/
abbrev EdPoint := Nat × Nat × Nat × Nat

/-- The neutral element. -/
def edZero : EdPoint := (0, 1, 1, 0)

/-- Point addition (complete, RFC 8032 section 5.1.4). -/
def edAdd (a b : EdPoint) : EdPoint :=
  let P := p25519
  let A := fsub a.2.1 a.1 * fsub b.2.1 b.1 % P
  let B := ((a.2.1 + a.1) % P) * ((b.2.1 + b.1) % P) % P
  let C := 2 * (a.2.2.2 * b.2.2.2 % P) * edD % P
  let D := 2 * a.2.2.1 * b.2.2.1 % P
  let E := fsub B A
  let F := fsub D C
  let G := (D + C) % P
  let H := (B + A) % P
  (E * F % P, G * H % P, F * G % P, E * H % P)

/-- Scalar multiplication over the `n` low bits. -/
def edMul (a : EdPoint) (k : Nat) : Nat → EdPoint
  | 0 => edZero
  | n + 1 =>
    let r := edMul a (k / 2) n
    let r2 := edAdd r r
    if k % 2 = 1 then edAdd r2 a else r2

/-- Equality of points. -/
def edEq (a b : EdPoint) : Bool :=
  a.1 * b.2.2.1 % p25519 == b.1 * a.2.2.1 % p25519 && a.2.1 * b.2.2.1 % p25519 == b.2.1 * a.2.2.1 % p25519

/-- Decode a point: only the canonical encoding of a point on the curve is taken (R426). -/
def edDecode (bs : Bytes) : Option EdPoint :=
  let P := p25519
  let v := ofLe bs
  let y := v % 2 ^ 255
  let sign := v / 2 ^ 255
  if y ≥ P then none else
  let y2 := y * y % P
  let uu := fsub y2 1
  let vv := (edD * y2 + 1) % P
  let w := uu * inv25519 vv % P
  let x0 := powMod P w ((P + 3) / 8) 255
  let x := if x0 * x0 % P = w then x0 else x0 * powMod P 2 ((P - 1) / 4) 255 % P
  if x * x % P ≠ w then none
  else if x = 0 ∧ sign = 1 then none
  else
    let x := if x % 2 = sign then x else P - x
    some (x, y, 1, x * y % P)

/-- The base point of Ed25519. -/
def edBase : EdPoint := (edDecode (leBytes 32 (4 * inv25519 5 % p25519))).getD edZero

/-- The group order. -/
def edL : Nat := 2 ^ 252 + 27742317777372353535851937790883648493

/-- R426: the cofactored Ed25519 verification, with its three refusals first. -/
@[irreducible] def edVerify (pub msg sig : Bytes) : Bool :=
  let rB := slice sig 0 32
  let s := u sig 32 32
  if s ≥ edL then false else
  match edDecode rB, edDecode pub with
  | some R, some A =>
    let k := ofLe (sha512 (rB ++ pub ++ msg)) % edL
    let m8 := fun q => edMul q 8 4
    edEq (m8 (edMul edBase s 253)) (edAdd (m8 R) (m8 (edMul A k 253)))
  | _, _ => false

end Sys2Proof.Machine
end

