-- ==== Sys2Proof/Machine/Parts/Balance.lean ====
section
/-!
DEFINITION. Plain-data parts of the state of the balance engine (R226 to R245).
-/

namespace Sys2Proof.Machine

/-- An entry of a reference ring (R237): MTIME, the voltages in 0.1 V and their deviations in 0.01 V. -/
structure RefEntry where
  mtime : Nat
  v : List Nat
  dev : List Int
  deriving DecidableEq, Repr

/-- The reference state of a TRANSFORMER node (R237): means in 0.01 V and variances in 0.0001 V². -/
structure RefSt where
  ring : List RefEntry := []
  mean : List Nat := [0, 0, 0]
  var : List Nat := [0, 0, 0]
  /-- Voltages of one MTIME that do not make an entry yet. -/
  pendT : Nat := 0
  pendV : List (Option Nat) := [none, none, none]
  deriving DecidableEq, Repr

/-- What a node keeps (R233 to R235, R237). -/
structure NodeSt where
  /-- History entries of 32 bytes, newest first. -/
  hist : List Bytes := []
  /-- Entries written to the ring so far. -/
  histN : Nat := 0
  alarm : Bool := false
  run : Nat := 0
  /-- S_NODE and interval of the latest scored evaluation. -/
  sNode : Nat := 0
  sIdx : Option Nat := none
  ref : RefSt := {}
  /-- What the ledger engines see since the last boundary (R235). -/
  visS : Nat := 0
  visIdx : Option Nat := none
  visRef : RefSt := {}
  deriving DecidableEq, Repr

/-- The accumulator of a node and interval (R230): sums over drops, and the supply contribution. -/
structure NodeAcc where
  node : Nat
  idx : Nat
  net : Int := 0
  lDrop : Int := 0
  est : Nat := 0
  supply : Option (Int × Bool) := none
  deriving DecidableEq, Repr

/-- A partial that a position sent (R243). -/
structure Partial where
  pos : Nat
  home : Bool
  estIn : Bool
  eIn : Int
  eOut : Int
  lTech : Nat
  lDrop : Nat
  eEst : Nat
  deriving DecidableEq, Repr

/-- A collection of the dealer (R244): partials of one (GNODE, IDX), since the tick of the first. -/
structure Collect where
  gnode : Nat
  idx : Nat
  since : Nat
  parts : List Partial
  done : Bool := false
  deriving DecidableEq, Repr

/-- The last catch-up close of a seat's boundary, and its tick (R231). -/
structure Caught where
  seat : Nat
  utc : Int
  tick : Nat
  deriving DecidableEq, Repr

/-- The balance engine. -/
structure BalSt where
  nodes : SMap NodeSt := []
  acc : List NodeAcc := []
  /-- Corrected UTC of each seat's last boundary evaluated or abandoned. -/
  evalTo : SMap Int := []
  /-- The last catch-up close of each boundary that waits for its evaluation (R231). -/
  caught : List Caught := []
  /-- Cycles of the running tick that the engine has used (R56). -/
  used : Nat := 0
  /-- Boundaries whose boundary tick lies before this are written INCOMPLETE (R245). -/
  topoTick : Nat := 0
  collects : List Collect := []
  deriving DecidableEq, Repr

end Sys2Proof.Machine
end

