-- ==== Sys2Proof/Machine/Parts/Base.lean ====
section
/-!
DEFINITION. Plain-data parts of the state that the whole device shares: the clock and time base, the real-time clock,
the event recorder, the mailboxes, the seats and the running canvas.
-/

namespace Sys2Proof.Machine

/-! ### Time (R55 to R84) -/

/-- A seat's latch of the subsecond and second registers (R71). -/
structure Latch where
  held : Bool := false
  subsec : Nat := 0
  secLo : Nat := 0
  secHi : Nat := 0
  deriving DecidableEq, Repr

/-- A seat's latched high words of TICK and TB_CNT (R84); `none` until the low word is read. -/
structure HiLatch where
  tickHi : Option Nat := none
  cntHi : Option Nat := none
  deriving DecidableEq, Repr

/-- A slew in progress (R74): the counter at its start, its amount and its rate in ns per ms. -/
structure Slew where
  start : Nat
  amount : Int
  ppm : Nat
  deriving DecidableEq, Repr

/-- The real-time clock on VBAT (R80 to R83). -/
structure Rtc where
  /-- Count in units of 1/32,768 s when the counter read `at0`. -/
  units : Nat := 0
  at0 : Nat := 0
  /-- Fractional accumulator of the compensation, in units of 10^-8 / 32,768 s. -/
  acc : Int := 0
  
  deriving DecidableEq, Repr

/-- An interval boundary of a seat that corrected UTC has reached: its instant in UTC seconds and its boundary tick
(R65, R67). -/
structure Bound where
  seat : Nat
  utc : Int
  tick : Nat
  deriving DecidableEq, Repr

/-- The time base (R55, R68 to R77). -/
structure TimeSt where
  /-- The free-running counter, as last observed (R68). -/
  cnt : Nat := 0
  /-- The tick number t (R55). -/
  tick : Nat := 0
  /-- TICK_BASE: tick t opens when the counter reaches `base + t * L` (R55). -/
  base : Int := 0
  /-- OFS of R69, a signed 64-bit number. -/
  ofs : Int := 0
  /-- C_A of R69. -/
  ca : Nat := 0
  /-- The slew in progress (R74). -/
  slew : Option Slew := none
  /-- The step above 1 ms that waits for the next boundary (R73). -/
  stepPend : Option Int := none
  /-- Tick in which the pending step was written. -/
  stepTick : Nat := 0
  latches : SMap Latch := []
  hiLatches : SMap HiLatch := []
  /-- Targets of the armed triggers (R79). -/
  trigT : SMap Nat := []
  /-- TIME_HOLD was `holdBase` when the counter read `holdAt` (R75, R77). -/
  holdBase : Nat := 0
  holdAt : Nat := 0
  /-- Counter value of the last accepted PPS edge (R76). -/
  ppsAt : Nat := 0
  /-- Counter value at the last start or at the last completed operating hour (R277, R388). -/
  hourAt : Nat := 0
  /-- Boundaries reached so far, oldest first, and the corrected UTC second up to which they have been found (R67). -/
  bounds : List Bound := []
  sweptTo : Int := 0
  /-- Corrected UTC in ns when a leap second was announced, or the least that a later step has brought it back to (R70). -/
  leapFrom : Int := 0
  /-- RTC seconds less RTC_LASTSYNC when corrected time was loaded from a valid RTC (R77). -/
  rtcAge : Option Nat := none
  rtc : Rtc := {}
  deriving DecidableEq, Repr

/-! ### Events (R388 to R400) -/

/-- One event entry (R388). -/
structure Evt where
  code : Nat
  sev : Nat
  tvalid : Bool
  summary : Bool
  lastgasp : Bool
  seat : Nat
  hours : Nat
  secs : Nat
  cycles : Nat
  tick : Nat
  ctime : Int
  eseq : Nat
  supp : Nat
  pos : Nat
  payload : Bytes
  /-- The stored seal; a fetch checks it against the entry (R399). -/
  chk : Nat
  deriving DecidableEq, Repr

/-- Suppressed occurrences of one code in one view that no entry has carried yet (R397). -/
structure Supp where
  code : Nat
  sev : Nat
  view : Nat
  count : Nat
  first : Nat
  deriving DecidableEq, Repr

/-- The event recorder. -/
structure EvtSt where
  /-- The front buffer in SRAM, oldest first (R395). -/
  front : List Evt := []
  /-- The NAND log, oldest first; it survives every reset (R400). -/
  log : List Evt := []
  /-- Entries that an L2 quiesce copied into DRAM (R395). -/
  dram : List Evt := []
  /-- Next ESEQ of each view (R394). -/
  nextSeq : SMap Nat := []
  /-- Non-summary entries of the last 100 ticks: code, view, tick (R397). -/
  recent : List (Nat × Nat × Nat) := []
  supp : List Supp := []
  /-- Each seat's fetch in progress: view and ESEQ requested (R399). -/
  fetch : SMap (Option (Nat × Nat)) := []
  /-- The last-gasp cell in the RTC domain (R395). -/
  lastGasp : Option Evt := none
  deriving DecidableEq, Repr

/-! ### Mailboxes (R296 to R301) -/

/-- What a mailbox holds beside its registers. -/
structure MbxSt where
  /-- Tick in which the oldest pending bit was set, while one is pending (R300). -/
  pendSince : SMap Nat := []
  /-- One notice event per mailbox until the bit is cleared (R300). -/
  agedDone : Bool := false
  /-- Tick in which the lock was taken (R300). -/
  lockTick : Nat := 0
  deriving DecidableEq, Repr

/-- A ring with FENCE whose notice is held until the writer's posted writes drain (R33). -/
structure HeldRing where
  writer : Nat
  mbx : Nat
  bit : Nat
  deriving DecidableEq, Repr

/-! ### Seats (R283 to R303) -/

/-- One ledger fence outstanding (R25 to R28). -/
structure Fence where
  tag : Nat
  mark : Bool
  notify : Bool
  db : Nat
  /-- The cut: records with a sequence number below it are before the fence. -/
  cut : Nat
  /-- Tick in which the write was accepted. -/
  tick : Nat
  deriving DecidableEq, Repr

/-- One uplink record in staging (R170, R173). -/
structure Staged where
  useq : Nat
  bytes : Bytes
  /-- The path it was sent on, once sent, and how many markers that path had carried before it. -/
  path : Option Nat := none
  ord : Nat := 0
  /-- Opening and admission sequence number of the record it came from; `none` for a record that no admission made. -/
  from_ : Option (Nat × Nat) := none
  /-- Tick in which it was generated: it goes out behind the journal deltas of that tick (R14). -/
  tick : Nat := 0
  deriving DecidableEq, Repr

/-- A fence marker sent on one path (R31, R172). -/
structure Marker where
  tag : Nat
  path : Nat
  count : Nat
  /-- How many markers the path had carried before it. -/
  ord : Nat
  bytes : Bytes
  deriving DecidableEq, Repr

/-- A retransmission in progress (R173). -/
structure Retx where
  tag : Nat
  path : Nat
  span : List Bytes
  deriving DecidableEq, Repr

/-- A register access request that waits: its path, its source port and its bytes (R289). -/
structure DgramReq where
  path : Nat
  port : Nat
  bytes : Bytes
  deriving DecidableEq, Repr

/-- The request whose response a seat's register access keeps (R289). -/
structure DgramLast where
  tag : Nat
  op : Nat
  off : Nat
  count : Nat
  resp : Bytes
  deriving DecidableEq, Repr

/-- One MSI-X vector of a function (R284, R405). -/
structure Msix where
  addr : Nat := 0
  data : Nat := 0
  masked : Bool := true
  pending : Bool := false
  deriving DecidableEq, Repr

/-- A fence completed with MARK (R31): its tag, cut and opening, its completion tick, and the paths that still lack the
marker. -/
structure MarkDue where
  tag : Nat
  opening : Nat
  cut : Nat
  tick : Nat
  paths : List Nat
  deriving DecidableEq, Repr

/-- A readout request taken and not yet answered (R291): its path, SL word, tag and APDU. -/
structure Readout where
  path : Nat
  sl : Nat
  tag : Nat
  apdu : Bytes
  deriving DecidableEq, Repr

/-- What a seat holds beside its registers. -/
structure SeatSt where
  /-- Opening count (R17). -/
  opening : Nat := 0
  /-- Next admission sequence number (R15). -/
  nextAseq : Nat := 0
  /-- Next USEQ (R170). -/
  useq : Nat := 0
  fences : List Fence := []
  /-- How many of the oldest fences the boundary that opened this tick completes (R26). -/
  fencesDue : Nat := 0
  /-- Fences completed with MARK whose marker is not yet on every path (R31). -/
  marks : List MarkDue := []
  staging : List Staged := []
  markers : List Marker := []
  /-- Uplink records sent on each path since the previous marker (R31). -/
  since : SMap Nat := []
  /-- Markers that each path has carried since the seat was opened, and the tag of its last one (R172). -/
  ords : SMap Nat := []
  lastTag : SMap Nat := []
  retx : Option Retx := none
  /-- Register access requests received over the uplinks and not yet served, oldest first (R289). -/
  dgramWait : List DgramReq := []
  dgramLast : Option DgramLast := none
  /-- Bytes written to message memory through the window (R293). -/
  msgmem : SMap Byte := []
  /-- The seat's MSI-X vectors. -/
  msix : SMap Msix := []
  /-- Tick of the last challenge (R276). -/
  chalTick : Option Nat := none
  /-- Readout requests in flight (R291). -/
  readouts : List Readout := []
  /-- Blocks of a response above 2,048 bytes that get-request next has still to fetch (R291): path, SL word, block number and
  bytes left. -/
  blocks : List (Nat × Nat × Nat × Bytes) := []
  /-- Rings 0 and 2 to which the device added in this tick (R290). -/
  ringAdded : List Nat := []
  /-- Uplink deficit counters of the two uplinks, in bytes (R287). -/
  deficit : SMap Nat := []
  /-- The datagram being built on each uplink (R287). -/
  dgram : SMap Bytes := []
  deriving DecidableEq, Repr

/-! ### The canvas (R37 to R54) -/

/-- One of the two canvas stores in NAND (R37). -/
structure CvStore where
  bytes : Bytes := []
  committed : Bool := false
  deriving DecidableEq, Repr

/-- A canvas that has passed validation and stands in a store (R49). -/
structure CvStaged where
  bytes : Bytes
  mode : Nat
  store : Nat
  deriving DecidableEq, Repr

/-- A commit record waiting for the journal (R50, R52). -/
structure CvCommit where
  /-- The tick in whose mandatory work it is written. -/
  tick : Nat
  bytes : Bytes
  mode : Nat
  store : Nat
  /-- Serial of the canvas it replaces (R47). -/
  oldSerial : Nat
  deriving DecidableEq, Repr

/-- The canvas machinery beside its registers. -/
structure CanvasSt where
  /-- The running canvas; `none` in the unconfigured state and before start (R39). -/
  run : Option Bytes := none
  /-- The store that holds the running canvas. -/
  runStore : Option Nat := none
  store0 : CvStore := {}
  store1 : CvStore := {}
  /-- MODE of the stage in progress. -/
  mode : Nat := 0
  /-- Bytes fetched and being checked. -/
  fetched : Option Bytes := none
  staged : Option CvStaged := none
  /-- Target tick T of an armed canvas (R51). -/
  armT : Nat := 0
  commit : Option CvCommit := none
  /-- The canvas that ran last, as NAND has it, while none runs (R48). -/
  last : Bytes := []
  /-- An L2 has set what registers show of the canvas to 0, until it is loaded again (R54, R125). -/
  hidden : Bool := false
  /-- On the standby: the active side holds a staged canvas that this side has not validated (R53). -/
  peerStaged : Bool := false
  deriving DecidableEq, Repr

end Sys2Proof.Machine
end

