-- ==== Sys2Proof/Machine/Parts/Field.lean ====
section
/-!
DEFINITION. Plain-data parts of the state of the power-line ports, the rail carrier, the radio ports and the transmit grant
(R107 to R147).
-/

namespace Sys2Proof.Machine

/-- The phase state of a neighbour (R119): its PHASE word, the sector of the run, and offsets taken since the last
assignment of SECTOR. -/
structure NeighPhase where
  sector : Nat := 0
  offset : Nat := 0
  run : Nat := 0
  runSector : Nat := 0
  since : Nat := 0
  deriving DecidableEq, Repr

/-- A sample as the decimator takes it (R110, R111): its value, its valid flag, and the gain that takes effect at it. -/
structure AfeSample where
  v : Int
  valid : Bool := true
  gain : Option Nat := none
  deriving DecidableEq, Repr

/-- What a PLC_AFE port holds beside its registers (R109 to R119). -/
structure PlcSt where
  /-- ADC samples since the last filter output. -/
  phase : Nat := 0
  /-- ADC samples that the filter spans, newest first, each with its valid flag. -/
  hist : List (Int × Bool) := []
  /-- Filter outputs still invalid after a sample sync (R113). -/
  settle : Nat := 0
  /-- The last 64 valid, unblanked outputs (R114), newest first. -/
  rms : List Int := []
  /-- Outputs that a guard still blanks. -/
  guardLeft : Nat := 0
  /-- Length of the run of ADC samples at or above 0.9 of full scale (R115). -/
  run : Nat := 0
  /-- Index of the next ADC sample in the AFE's counter (R109). -/
  idx : Nat := 0
  /-- An overload inside a frame that has not been acted on, the sample index at its detection, and symbols ended since. -/
  overload : Bool := false
  detAt : Nat := 0
  ended : Nat := 0
  /-- Forced steps in this frame. -/
  forced : Nat := 0
  /-- Outputs, blanked outputs and invalid outputs of the running symbol. -/
  symOut : Nat := 0
  symBlank : Nat := 0
  symBad : Bool := false
  /-- Symbols that a forced step still makes erasures. -/
  eraseLeft : Nat := 0
  /-- SEQ of the last sample block (R110). -/
  seq : Option Nat := none
  /-- Sample indices of the latest accepted rising zero crossings, newest first, the measured period, and periods in range still
  needed (R118). -/
  zcs : List Nat := []
  zcPeriod : Nat := 0
  zcNeed : Nat := 0
  /-- AFE temperature in 0.5 °C (R110). -/
  temp : Int := 0
  neigh : SMap NeighPhase := []
  /-- Ticks of the joins answered in the sliding window (R117). -/
  joins : List Nat := []
  deriving DecidableEq, Repr

/-- A rail frame to send (R121), with the attempts made. -/
structure RailTx where
  bytes : Bytes
  ackReq : Bool
  tries : Nat := 0
  deriving DecidableEq, Repr

/-- The rail carrier MAC (R120 to R124). -/
structure RailSt where
  /-- Frames waiting, oldest first. -/
  queue : List RailTx := []
  /-- The frame sent whose ACK is awaited. -/
  waiting : Option RailTx := none
  seq : Nat := 0
  /-- The random value drawn once per start (R121). -/
  nonce : Nat := 0
  /-- SRC_POS, SIDE, SEQ and NONCE of the last frame accepted (R122). -/
  last : Option (Nat × Nat × Nat × Nat) := none
  /-- Windows that the receiver blanked, in order of their start, in units of 10 ns, and the erasures of the last frame's body (R123). -/
  blanks : List (Nat × Nat) := []
  erased : Nat := 0
  /-- Frames passed on, newest first: type and payload. -/
  passed : List (Nat × Bytes) := []
  /-- Counter value until which the device does not listen (R122). -/
  holdTo : Nat := 0
  /-- Impulses (R123): time of the last in 10 ns, the interval, the length of the stable run, and predictions missed. -/
  impLast : Option Nat := none
  impPeriod : Nat := 0
  impRun : Nat := 0
  impMissed : Nat := 0
  /-- Consecutive weak pilots (R124). -/
  weak : Nat := 0
  deriving DecidableEq, Repr

/-- An associated neighbour (R137, R141). -/
structure Neigh where
  eui : Nat
  /-- Sequence number, counter value and Frame Pending answer of the last frame accepted. -/
  seq : Option Nat := none
  at0 : Nat := 0
  pending : Bool := false
  deriving DecidableEq, Repr

/-- Who offered an indirect frame: a campaign for a slot, or another producer (R134, R255). -/
inductive Producer where
  | campaign (id slot : Nat)
  | other
  deriving DecidableEq, Repr

/-- A frame of the indirect queue (R134). -/
structure Indirect where
  dst : Nat
  bytes : Bytes
  from_ : Producer
  /-- Beacon intervals it has waited. -/
  age : Nat := 0
  deriving DecidableEq, Repr

/-- A guaranteed time slot (R133): owner, length in superframe slots, direction, and superframes since it was used. -/
structure Gts where
  owner : Nat
  len : Nat
  rx : Bool := false
  idle : Nat := 0
  deriving DecidableEq, Repr

/-- A frame of an unassociated sender remembered for the duplicate check (R137). -/
structure ExtSeen where
  eui : Nat
  seq : Nat
  at0 : Nat
  deriving DecidableEq, Repr

/-- What a RADIO port holds beside its registers (R127 to R145). -/
structure RadioSt where
  /-- BEACON_BASE and the number k of the next beacon (R131). -/
  base : Int := 0
  k : Nat := 0
  /-- The number of the last beacon that this device itself sent. -/
  sent : Option Nat := none
  /-- This interval's beacon carries Frame Pending for multicast blocks of a campaign (R252). -/
  fp : Bool := false
  neigh : SMap Neigh := []
  ext : List ExtSeen := []
  indirect : List Indirect := []
  /-- Neighbours whose Data Request was answered with Frame Pending, oldest first. -/
  polled : List Nat := []
  gts : List Gts := []
  /-- Window state for the next beacon (R141); what the last beacon carried stands in RADIO_HINT and RADIO_STAT. -/
  w : Nat := 1
  start : Nat := 0
  hold : Bool := false
  storm : Bool := true
  full : Nat := 0
  /-- Eligible requests and accepted requests of this interval. -/
  eligible : Nat := 0
  accepted : Nat := 0
  deriving DecidableEq, Repr

/-- The transmit grant lines (R142, R143): counter value of the last change of TXGRANT_PEER, and that this device has just taken
over. -/
structure GrantSt where
  peerAt : Nat := 0
  tookOver : Bool := false
  deriving DecidableEq, Repr

end Sys2Proof.Machine
end

