-- ==== Sys2Proof/Machine/Parts/Ftl.lean ====
section
/-!
DEFINITION. Plain-data parts of the state that the flash translation layer owns: blocks with the metadata of their
pages, the map, and the checkpoint pass (R315 to R324).
-/

namespace Sys2Proof.Machine

/-- Metadata of one programmed page (R317), and whether its block still holds it as valid. -/
structure Page where
  lpa : Nat
  seq : Nat
  stream : Nat
  folded : Bool := false
  /-- ERASES: the erase count of the block when the page was programmed. -/
  erases : Nat := 0
  ctick : Nat := 0
  /-- Tick in which the page was programmed: an event-log page's age (R316). -/
  wtick : Nat := 0
  valid : Bool := true
  /-- The page decodes and its seal matches (R321). -/
  good : Bool := true
  deriving DecidableEq, Repr

/-- A block: free, open or closed in a stream, or retired as grown bad. -/
inductive BlockState where
  | free | opened | closed | bad
  deriving DecidableEq, Repr

/-- One NAND block (R315). -/
structure NandBlock where
  oneBit : Bool
  st : BlockState := .free
  stream : Nat := 0
  erases : Nat := 0
  reads : Nat := 0
  /-- Sequence number of its first page: the age of the block. -/
  born : Nat := 0
  pages : List Page := []
  deriving DecidableEq, Repr

/-- The flash translation layer. -/
structure FtlSt where
  /-- Blocks that have been written or changed; the others are as made. -/
  blocks : SMap NandBlock := []
  /-- Sequence number of the next page (R317). -/
  seq : Nat := 0
  /-- Logical page to block and page within it (R320); empty until the map is whole. -/
  map : SMap (Nat × Nat) := []
  /-- The map checkpoint of a clean stop, if it is the last page programmed (R320). -/
  ckptMap : Option (SMap (Nat × Nat)) := none
  /-- A page has been programmed since start: the open record stands (R320). -/
  openRec : Bool := false
  /-- The map is taken from DRAM, after an L2 (R373). -/
  fromDram : Bool := false
  /-- Tick at which the running map load began (R320). -/
  loadFrom : Nat := 0
  /-- Next page of the checkpoint pass, and the tick it began in (R319). -/
  ckptPage : Nat := 0
  passStart : Nat := 0
  /-- Journal pages not trimmed: tick whose deltas the page holds, and its logical page (R319). -/
  journal : List (Nat × Nat) := []
  nextJournal : Nat := 0
  nextHistory : Nat := 0
  nextEvent : Nat := 0
  /-- The wear-levelling move last started (R323) and whether moves are going on. -/
  wearTick : Nat := 0
  wearOn : Bool := false
  /-- The one-bit block opened last: they are used in rotation (R323). -/
  rot : Nat := 0
  /-- Spare blocks used so far (R324). -/
  grown : Nat := 0
  deriving DecidableEq, Repr

end Sys2Proof.Machine
end

