-- ==== Sys2Proof/Machine/Parts/Port.lean ====
section
/-!
DEFINITION. Plain-data parts of the state of the field ports: their FIFO banks, the arbiter, and the edge inputs
(R85 to R104).
-/

namespace Sys2Proof.Machine

/-- One frame in a FIFO bank: its bytes, the frame seal of R100 and the ERR bit of its EOF tag (R93). -/
structure Frame where
  bytes : Bytes
  chk : Nat
  err : Bool := false
  deriving DecidableEq, Repr

/-- What a field port holds beside its registers. -/
structure PortSt where
  /-- Banks 0 and 1, oldest frame first (R95). FP_STAT.FILL says which is filling. -/
  bank0 : List Frame := []
  bank1 : List Frame := []
  /-- MAC frames that wait for FIFO room, oldest first (R116, R135). -/
  rxq : List Bytes := []
  /-- Tick of the last RETRY, and the counter value at which one last made the cell drive again (R90). -/
  retryTick : Option Nat := none
  drivenAt : Option Nat := none
  /-- The receiver has character lock, and auto-negotiation accepted the partner (R88, R89). -/
  charLock : Bool := false
  autoneg : Bool := false
  /-- Counter value until which a received PAUSE holds transmission (R88). -/
  pausedTo : Nat := 0
  /-- Frames that wait to be sent: a PAUSE holds them, or the grant is not held (R88, R142). -/
  txq : List Bytes := []
  /-- Counter value at which the MAC last serviced the port's transceiver (R104). -/
  served : Option Nat := none
  deriving DecidableEq, Repr

/-- A frame that the ingress tier has granted: its port, and the pool buffers allocated for it (R148, R150). -/
structure PoolGrant where
  port : Nat
  bufs : List Nat
  deriving DecidableEq, Repr

/-- The arbiter (R101): round-robin pointers, deficits, and the ports whose frames each tier has granted, in order. -/
structure ArbSt where
  portPtr : SMap Nat := []
  groupPtr : SMap Nat := []
  ingressPtr : Nat := 0
  groupDef : SMap Nat := []
  quadDef : SMap Nat := []
  /-- Frames granted by the port tier of a group, waiting for the group tier. -/
  byGroup : SMap (List Nat) := []
  /-- Frames granted by the group tier of a quad, waiting for the ingress tier. -/
  byQuad : SMap (List Nat) := []
  /-- Frames granted by the ingress tier, passing to the pool. -/
  toPool : List PoolGrant := []
  deriving DecidableEq, Repr

/-- An edge input (R103), with counter values of its edges. -/
structure EdgeSt where
  raw : Bool := false
  accepted : Bool := false
  rise : Option Nat := none
  fall : Option Nat := none
  lastEdge : Nat := 0
  deriving DecidableEq, Repr

end Sys2Proof.Machine
end

