-- ==== Sys2Proof/Machine/Parts/Sys.lean ====
section
/-!
DEFINITION. Plain-data parts of the state of reset, supply and temperature (R365 to R387), and of the device's own firmware
images (R355 to R364).
-/

namespace Sys2Proof.Machine

/-- Where the device stands between resets. -/
inductive Phase where
  /-- The rails are off. -/
  | off
  /-- A reset of L2 or deeper has been accepted; the device quiesces (R370, R371). -/
  | quiesced
  /-- The reset proper has begun; the device waits for its release. -/
  | inReset
  /-- Starting, or running with seats open; CAS_STAT.STEP tells which. -/
  | up
  deriving DecidableEq, Repr

/-- A reset that has been accepted (R368): its source, level, and the counter value of its acceptance. -/
structure Accepted where
  source : Nat
  level : Nat
  at0 : Nat
  escalated : Bool := false
  deriving DecidableEq, Repr

/-- Reset, supply and temperature. -/
structure SysSt where
  phase : Phase := .off
  accepted : Option Accepted := none
  /-- VIN has recovered while a BROWN_OUT sequence runs (R379). -/
  vinBack : Bool := false
  /-- Consecutive readings of TJ at or above 125 °C, and below 100 °C while the device is shut down (R383, R385). -/
  hot : Nat := 0
  cool : Nat := 0
  /-- A thermal shutdown has been decided; the rails are then off. -/
  thermal : Bool := false
  /-- An L1 or deeper reset was taken; the next start is DEVICE_START and not a warm return. -/
  cold : Bool := true
  /-- RESET_N is ignored: a stuck press has ended, and the ball has not yet been high for 100 ms (R375). -/
  ballStuck : Bool := false
  /-- The events that wait until the device is running again: RESET_N stuck (R375). -/
  stuckEvt : Bool := false
  /-- SerDes lanes asleep, and the counter value of each lane's last traffic (R382). -/
  asleep : List Nat := []
  /-- VF Enable of the physical function's SR-IOV capability (R285). -/
  vfEnable : Bool := false
  laneUse : SMap Nat := []
  deriving DecidableEq, Repr

/-- An own-firmware image that has passed its checks (R355). -/
structure Image where
  version : Nat
  restart : Bool := false
  lverFrom : Nat := 1
  lverTo : Nat := 1
  sfmt : Nat := 1
  bytes : Bytes := []
  deriving DecidableEq, Repr

/-- How far an activation has come (R357, R358). -/
structure Swap where
  /-- The activation tick T. -/
  t : Nat
  /-- Engines that run the new microcode. -/
  engines : List Nat := []
  deriving DecidableEq, Repr

/-- The device's own firmware (R355 to R364). -/
structure UpdSt where
  /-- The two image stores in NAND, and which holds the running image. -/
  store0 : Option Image := some { version := 0 }
  store1 : Option Image := none
  running : Nat := 0
  /-- Downgrade was allowed for the fetch in progress. -/
  downgrade : Bool := false
  armT : Nat := 0
  /-- Tick in which TRIAL began. -/
  trialAt : Nat := 0
  /-- Tick of the last HEALTHY (R361). -/
  healthy : Option Nat := none
  swap : Option Swap := none
  /-- The store whose image the next start is to run (R359), and that the next start falls back from a TRIAL, with the cause:
  1 REVERT, 2 the deadline, 3 a reset (R362). -/
  restartTo : Option Nat := none
  fallTo : Option Nat := none
  /-- Settings are kept in two formats until confirmation (R360). -/
  twoFormats : Bool := false
  deriving DecidableEq, Repr

end Sys2Proof.Machine
end

