-- ==== Sys2Proof/Machine/Parts/Vault.lean ====
section
/-!
DEFINITION. Plain-data parts of the state that the vault owns: its non-volatile array, its blob store in NAND, its
monotonic counters, and the requests it is serving (R260 to R281).
-/

namespace Sys2Proof.Machine

/-- What a copy in the array reads as: fully erased, with a good seal, or with a seal that fails (R278). -/
inductive CopyState where
  | erased | good | bad
  deriving DecidableEq, Repr

/-- One 16-byte copy of a counter cell: VALUE, TGT or HTAG, PEND (R278). -/
structure CntCopy where
  st : CopyState := .erased
  value : Nat := 0
  aux : Nat := 0
  pend : Bool := false
  deriving DecidableEq, Repr

/-- A monotonic counter: two copies of each cell (R278). -/
structure Counter where
  hi0 : CntCopy := {}
  hi1 : CntCopy := {}
  lo0 : CntCopy := {}
  lo1 : CntCopy := {}
  deriving DecidableEq, Repr

/-- A two-copy item of the array (R260): what each copy reads as and holds, and which holds the later content. -/
structure TwoCopy where
  st0 : CopyState := .erased
  st1 : CopyState := .erased
  bytes0 : Bytes := []
  bytes1 : Bytes := []
  later1 : Bool := false
  deriving DecidableEq, Repr

/-- A slot record (R266) with its blob in the NAND vault store. -/
structure VSlot where
  attr : Nat := 0
  link : Nat := 0
  check : Bytes := []
  blob : Bytes := []
  deriving DecidableEq, Repr

/-- The update mark (R273); the new blob is already in the vault store when it is written. -/
structure VMark where
  slot : Nat
  record : VSlot
  ctr : Nat
  value : Nat
  deriving DecidableEq, Repr

/-- A slot as the rest of the device uses it since the last boundary (R268). -/
structure VEff where
  attr : Nat := 0
  link : Nat := 0
  usable : Bool := false
  key : Bytes := []
  deriving DecidableEq, Repr

/-- An update message that passed every check and waits for its commit (R271, R273). -/
structure VMsg where
  seat : Nat
  op : Nat
  slot : Nat
  attr : Nat
  auth : Nat
  counter : Nat
  payload : Bytes
  deriving DecidableEq, Repr

/-- A METER_KEY that waits for the journal commit of its record (R275). -/
structure MeterKeyWait where
  seat : Nat
  slot : Nat
  /-- Tick whose journal deltas hold the record. -/
  tick : Nat
  deriving DecidableEq, Repr

/-- The vault. -/
structure VaultSt where
  root : TwoCopy := {}
  enrol : TwoCopy := {}
  /-- The RTC compensation curve, 16 signed words (R81, R260). -/
  curve : TwoCopy := {}

  counters : SMap Counter := []
  slots : SMap VSlot := []
  mark : Option VMark := none
  /-- Slots whose own check failed at start (R268). -/
  failed : List Nat := []
  eff : SMap VEff := []
  /-- Seats whose SUBMIT waits, in the order served (R271). -/
  queue : List Nat := []
  /-- The message of the seat being served that has been accepted (R271). -/
  accepted : Option VMsg := none
  meterKeys : List MeterKeyWait := []
  /-- Slots that an orphan sweep has still to mark, and the slots whose change started it (R269). -/
  sweep : List Nat := []
  sweepRoots : List Nat := []
  /-- Running frame counters of broadcast slots in SRAM (R281). -/
  bcast : SMap Nat := []
  /-- Ceilings of the partner's broadcast slots, mirrored in journal deltas (R281). -/
  mirrorCeil : SMap Nat := []
  /-- Each seat's latched VAULT_CNT_HI (R282). -/
  cntHi : SMap Nat := []
  deriving DecidableEq, Repr

end Sys2Proof.Machine
end

