-- ==== Sys2Proof/Machine/Dev.lean ====
section
/-!
DEFINITION. The device: everything the spec gives it but the addressed memory arrays and the command queue, which stand
beside it in State.
-/

namespace Sys2Proof.Machine

/-- The device. Every field but the last three is the spec's; `free`, `out` and `rdata` are the model's own. -/
structure Dev where
  /-- The register file: key `2^24 * copy + offset`; an unlisted register holds its value at L0 (R12, R401). -/
  regs : SMap Word := []
  time : TimeSt := {}
  evt : EvtSt := {}
  mbx : SMap MbxSt := []
  held : List HeldRing := []
  seats : SMap SeatSt := []
  cv : CanvasSt := {}
  vault : VaultSt := {}
  ftl : FtlSt := {}
  ports : SMap PortSt := []
  arb : ArbSt := {}
  /-- Edge inputs: 0 PPS_IN, 1 to 4 TAMPER_0 to 3, 16 + n the IRQ of port n (R103). -/
  edges : SMap EdgeSt := []
  plc : SMap PlcSt := []
  rail : RailSt := {}
  radio : SMap RadioSt := []
  grant : GrantSt := {}
  pool : PoolSt := {}
  ldg : LdgSt := {}
  camp : CampEng := {}
  bal : BalSt := {}
  cas : CasSt := {}
  upd : UpdSt := {}
  sys : SysSt := {}
  /-- Counts the free values taken so far; no statement rests on it. -/
  free : Nat := 0
  /-- What the device has sent to the world outside, newest first. -/
  out : List Out := []
  /-- What the last register read returned. -/
  rdata : Word := 0
  deriving DecidableEq, Repr

end Sys2Proof.Machine
end

