-- ==== Sys2Proof/Machine/RegMap.lean ====
section
/-!
DEFINITION. The register map of the device (R401: every register, its offset, its array, who sees it; and each field's
bits, access type and values at L0 and L2), written from the field maps of the chapters and from the Register Map
Summary. Beside the rows stand one name for every field and one for every sticky bit with its event code and severity
(R390, R391). Offsets are offsets in the register address space (R19, R20).
-/

namespace Sys2Proof.Machine

/-- The access types of R9. -/
inductive Acc where
  | ro | rw | wo | w1c | rc | rws
  deriving DecidableEq, Repr

/-- How seats 1 to 63 see a register (R402): readable; an own copy; an own index; listed ports; zero; the mailbox
array, renumbered; the per-seat registers, found at index 0. -/
inductive View where
  | r | o | i | p | z | m | s
  deriving DecidableEq, Repr

/-- One field of a register: bits, access type, value at L0, and value at L2 (`none`: kept). -/
structure FieldDef where
  hi : Nat
  lo : Nat
  acc : Acc
  l0 : Nat
  l2 : Option Nat
  deriving DecidableEq, Repr

/-- One register or array of registers. -/
structure RegRow where
  off : Nat
  stride : Nat
  count : Nat
  view : View
  fields : List FieldDef
  deriving DecidableEq, Repr

/-- The place of a field: offset of entry 0, stride of its array, and bits. -/
structure Fld where
  off : Nat
  stride : Nat
  hi : Nat
  lo : Nat
  deriving DecidableEq, Repr

/-- A sticky bit: its field, the event code it raises (R390) and that code's severity (R391). -/
structure Sticky where
  fld : Fld
  code : Nat
  sev : Nat
  deriving DecidableEq, Repr

/-- A field whose value at L2 is given. -/
def fd (hi lo : Nat) (acc : Acc) (l0 l2 : Nat) : FieldDef := ⟨hi, lo, acc, l0, some l2⟩

/-- A field that L2 keeps. -/
def fk (hi lo : Nat) (acc : Acc) (l0 : Nat) : FieldDef := ⟨hi, lo, acc, l0, none⟩

namespace Reg

def GLB_ID.PART_TYPE : Fld := ⟨0x0, 0x4, 15, 0⟩
def GLB_ID.STEP : Fld := ⟨0x0, 0x4, 23, 16⟩
def GLB_STRAP.CODE : Fld := ⟨0x4, 0x4, 3, 0⟩
def GLB_STRAP.BOOT : Fld := ⟨0x4, 0x4, 5, 4⟩
def GLB_STRAP.ENROL : Fld := ⟨0x4, 0x4, 6, 6⟩
def GLB_STRAP.SIDE : Fld := ⟨0x4, 0x4, 7, 7⟩
def GLB_STRAP.PREF : Fld := ⟨0x4, 0x4, 8, 8⟩
def GLB_STRAP.RAIL : Fld := ⟨0x4, 0x4, 9, 9⟩
def GLB_STRAP.BAD : Fld := ⟨0x4, 0x4, 10, 10⟩
def GLB_STRAP.RAW : Fld := ⟨0x4, 0x4, 25, 16⟩
def GLB_RESET_CAUSE.SOURCE : Fld := ⟨0x8, 0x4, 3, 0⟩
def GLB_RESET_CAUSE.LEVEL : Fld := ⟨0x8, 0x4, 6, 4⟩
def GLB_RESET_CAUSE.DEFERRED : Fld := ⟨0x8, 0x4, 7, 7⟩
def GLB_RESET_CAUSE.ESCALATED : Fld := ⟨0x8, 0x4, 8, 8⟩
def GLB_DEBUG_RST.LEVEL : Fld := ⟨0xC, 0x4, 2, 0⟩
def GLB_DEBUG_RST.KEY : Fld := ⟨0xC, 0x4, 31, 16⟩
def GLB_RSTN.LEVEL : Fld := ⟨0x10, 0x4, 0, 0⟩
def GLB_RSTN.IGNORED : Fld := ⟨0x10, 0x4, 1, 1⟩
def GLB_ERR_STICKY.ACCESS : Fld := ⟨0x14, 0x4, 0, 0⟩
def GLB_ERR_STICKY.STRAP_BAD : Fld := ⟨0x14, 0x4, 1, 1⟩
def GLB_ERR_STICKY.RSTN_STUCK : Fld := ⟨0x14, 0x4, 2, 2⟩
def GLB_ERR_STICKY.BROWNOUT : Fld := ⟨0x14, 0x4, 3, 3⟩
def GLB_ERR_STICKY.HOUSE_WDOG : Fld := ⟨0x14, 0x4, 4, 4⟩
def GLB_RESET_MAP.FUSE : Fld := ⟨0x40, 0x4, 2, 0⟩
def GLB_RESET_MAP.EFF : Fld := ⟨0x40, 0x4, 6, 4⟩
def CANVAS_CTL.STAGE : Fld := ⟨0x10000, 0x4, 0, 0⟩
def CANVAS_CTL.MODE : Fld := ⟨0x10000, 0x4, 1, 1⟩
def CANVAS_CTL.ARM : Fld := ⟨0x10000, 0x4, 2, 2⟩
def CANVAS_CTL.COMMIT : Fld := ⟨0x10000, 0x4, 3, 3⟩
def CANVAS_CTL.RELOAD : Fld := ⟨0x10000, 0x4, 4, 4⟩
def CANVAS_CTL.CANCEL : Fld := ⟨0x10000, 0x4, 5, 5⟩
def CANVAS_STAT.STATE : Fld := ⟨0x10004, 0x4, 3, 0⟩
def CANVAS_STAT.CLASS : Fld := ⟨0x10004, 0x4, 4, 4⟩
def CANVAS_STAT.PARTNER_OK : Fld := ⟨0x10004, 0x4, 5, 5⟩
def CANVAS_STAT.ABANDONED : Fld := ⟨0x10004, 0x4, 6, 6⟩
def CANVAS_STAT.REJECTED : Fld := ⟨0x10004, 0x4, 7, 7⟩
def CANVAS_STAT.COMMITTED : Fld := ⟨0x10004, 0x4, 8, 8⟩
def CANVAS_STAT.REJECT : Fld := ⟨0x10004, 0x4, 31, 16⟩
def CANVAS_REJ_INFO.SECTION : Fld := ⟨0x10008, 0x4, 7, 0⟩
def CANVAS_REJ_INFO.OFFSET : Fld := ⟨0x10008, 0x4, 31, 8⟩
def CANVAS_SERIAL.SERIAL : Fld := ⟨0x1000C, 0x4, 31, 0⟩
def CANVAS_DIGEST.DIGEST : Fld := ⟨0x10010, 0x4, 31, 0⟩
def CANVAS_SRC_ADDR.ADDR : Fld := ⟨0x10030, 0x4, 31, 0⟩
def CANVAS_SRC_LEN.LEN : Fld := ⟨0x10038, 0x4, 31, 0⟩
def CANVAS_APPLY_TICK.TICK : Fld := ⟨0x1003C, 0x4, 31, 0⟩
def CANVAS_ERR_STICKY.ACCESS : Fld := ⟨0x10044, 0x4, 0, 0⟩
def CANVAS_ERR_STICKY.STORE_BAD : Fld := ⟨0x10044, 0x4, 1, 1⟩
def CANVAS_ERR_STICKY.FLOOR_SAT : Fld := ⟨0x10044, 0x4, 2, 2⟩
def TICK.TICK : Fld := ⟨0x20000, 0x4, 31, 0⟩
def TB_CNT.CNT : Fld := ⟨0x20008, 0x4, 31, 0⟩
def TIME_NS32.NS : Fld := ⟨0x20010, 0x4, 31, 0⟩
def TIME_SUBSEC.SUBSEC : Fld := ⟨0x20014, 0x4, 29, 0⟩
def TIME_SEC_LO.SEC : Fld := ⟨0x20018, 0x4, 31, 0⟩
def TIME_SEC_HI.SEC_HI : Fld := ⟨0x2001C, 0x4, 15, 0⟩
def TIME_OFS.OFS : Fld := ⟨0x20020, 0x4, 31, 0⟩
def TIME_RATE.RATE : Fld := ⟨0x20028, 0x4, 31, 0⟩
def TIME_STEP.AMOUNT : Fld := ⟨0x2002C, 0x4, 31, 0⟩
def TIME_ADJ_CTL.STEP : Fld := ⟨0x20034, 0x4, 0, 0⟩
def TIME_ADJ_CTL.SLEW : Fld := ⟨0x20034, 0x4, 1, 1⟩
def TIME_ADJ_CTL.DISC : Fld := ⟨0x20034, 0x4, 2, 2⟩
def TIME_ADJ_CTL.SRC : Fld := ⟨0x20034, 0x4, 5, 3⟩
def TIME_ADJ_CTL.SLEW_PPM : Fld := ⟨0x20034, 0x4, 25, 16⟩
def TIME_STAT.VALID : Fld := ⟨0x20038, 0x4, 0, 0⟩
def TIME_STAT.SRC : Fld := ⟨0x20038, 0x4, 3, 1⟩
def TIME_STAT.STEP_PEND : Fld := ⟨0x20038, 0x4, 4, 4⟩
def TIME_STAT.SLEW_ACT : Fld := ⟨0x20038, 0x4, 5, 5⟩
def TIME_STAT.PPS_LOST : Fld := ⟨0x20038, 0x4, 6, 6⟩
def TIME_HOLD.SECONDS : Fld := ⟨0x2003C, 0x4, 31, 0⟩
def PPS_TS.NS : Fld := ⟨0x20040, 0x4, 31, 0⟩
def PTP_CORR.RX : Fld := ⟨0x20044, 0x4, 15, 0⟩
def PTP_CORR.TX : Fld := ⟨0x20044, 0x4, 31, 16⟩
def PTP_EGR_TS.NS : Fld := ⟨0x2004C, 0x4, 31, 0⟩
def PTP_EGR_SEQ.SEQ : Fld := ⟨0x20054, 0x4, 15, 0⟩
def PTP_EGR_SEQ.FRESH : Fld := ⟨0x20054, 0x4, 16, 16⟩
def TIME_UTC_OFS.OFS : Fld := ⟨0x2005C, 0x4, 15, 0⟩
def TIME_UTC_OFS.PEND : Fld := ⟨0x2005C, 0x4, 16, 16⟩
def TIME_UTC_OFS.DIR : Fld := ⟨0x2005C, 0x4, 17, 17⟩
def TRIG_CTL.ARM : Fld := ⟨0x20080, 0x8, 0, 0⟩
def TRIG_CTL.ACTION : Fld := ⟨0x20080, 0x8, 1, 1⟩
def TRIG_CTL.GROUP : Fld := ⟨0x20080, 0x8, 7, 2⟩
def TRIG_CTL.MISSED : Fld := ⟨0x20080, 0x8, 8, 8⟩
def TRIG_CTL.PERIOD : Fld := ⟨0x20080, 0x8, 31, 16⟩
def TRIG_TICK.TICK : Fld := ⟨0x20084, 0x8, 31, 0⟩
def RTC_CTL.CAPTURE : Fld := ⟨0x200C0, 0x4, 0, 0⟩
def RTC_CTL.CURVE_SAVE : Fld := ⟨0x200C0, 0x4, 1, 1⟩
def RTC_SUB.SUB : Fld := ⟨0x200C4, 0x4, 14, 0⟩
def RTC_SEC_LO.SEC : Fld := ⟨0x200C8, 0x4, 31, 0⟩
def RTC_SEC_HI.SEC_HI : Fld := ⟨0x200CC, 0x4, 15, 0⟩
def RTC_STAT.VALID : Fld := ⟨0x200D0, 0x4, 0, 0⟩
def RTC_STAT.FROZEN : Fld := ⟨0x200D0, 0x4, 1, 1⟩
def RTC_STAT.LOCKED : Fld := ⟨0x200D0, 0x4, 2, 2⟩
def RTC_STAT.TEMP : Fld := ⟨0x200D0, 0x4, 31, 16⟩
def RTC_LASTSYNC.SEC : Fld := ⟨0x200D4, 0x4, 31, 0⟩
def RTC_CURVE.PPM : Fld := ⟨0x20100, 0x4, 15, 0⟩
def TICK_LOAD.MAND : Fld := ⟨0x20140, 0x4, 15, 0⟩
def TICK_LOAD.REC : Fld := ⟨0x20140, 0x4, 31, 16⟩
def CARRY_OCC.ENTRIES : Fld := ⟨0x20184, 0x4, 24, 0⟩
def CARRY_PEAK.PEAK : Fld := ⟨0x20188, 0x4, 24, 0⟩
def MAND_OVR_ENG.ENG : Fld := ⟨0x2018C, 0x4, 15, 0⟩
def TIME_ERR_STICKY.ACCESS : Fld := ⟨0x20190, 0x4, 0, 0⟩
def TIME_ERR_STICKY.MAND_OVR : Fld := ⟨0x20190, 0x4, 1, 1⟩
def TIME_ERR_STICKY.TICK_WDOG : Fld := ⟨0x20190, 0x4, 2, 2⟩
def TIME_ERR_STICKY.CARRY_HIGH : Fld := ⟨0x20190, 0x4, 3, 3⟩
def TIME_ERR_STICKY.HOLDOVER_EXP : Fld := ⟨0x20190, 0x4, 4, 4⟩
def TIME_ERR_STICKY.PPS_LOST : Fld := ⟨0x20190, 0x4, 5, 5⟩
def TIME_ERR_STICKY.ADJ_REJ : Fld := ⟨0x20190, 0x4, 6, 6⟩
def TIME_ERR_STICKY.EGR_OVR : Fld := ⟨0x20190, 0x4, 7, 7⟩
def TIME_ERR_STICKY.RTC_LOCK_WR : Fld := ⟨0x20190, 0x4, 8, 8⟩
def EVT_SEL.VIEW : Fld := ⟨0x30000, 0x4, 7, 0⟩
def EVT_SEL_SEQ.ESEQ : Fld := ⟨0x30004, 0x4, 31, 0⟩
def EVT_CTL.FETCH : Fld := ⟨0x30008, 0x4, 0, 0⟩
def EVT_CTL.INJECT : Fld := ⟨0x30008, 0x4, 1, 1⟩
def EVT_STAT.BUSY : Fld := ⟨0x3000C, 0x4, 0, 0⟩
def EVT_STAT.GAP : Fld := ⟨0x3000C, 0x4, 1, 1⟩
def EVT_STAT.NONE : Fld := ⟨0x3000C, 0x4, 2, 2⟩
def EVT_STAT.EMPTY : Fld := ⟨0x3000C, 0x4, 3, 3⟩
def EVT_STAT.FB_OCC : Fld := ⟨0x3000C, 0x4, 28, 16⟩
def EVT_HEAD.ESEQ : Fld := ⟨0x30010, 0x4, 31, 0⟩
def EVT_NOTIFY.MINSEV : Fld := ⟨0x30014, 0x4, 2, 0⟩
def EVT_NOTIFY.EN : Fld := ⟨0x30014, 0x4, 3, 3⟩
def EVT_INJ.CODE : Fld := ⟨0x30018, 0x4, 15, 0⟩
def EVT_INJ.SEV : Fld := ⟨0x30018, 0x4, 18, 16⟩
def EVT_LOST.FB_LOST : Fld := ⟨0x3001C, 0x4, 15, 0⟩
def EVT_LOST.LOG_REFUSED : Fld := ⟨0x3001C, 0x4, 31, 16⟩
def EVT_ERR_STICKY.ACCESS : Fld := ⟨0x30020, 0x4, 0, 0⟩
def EVT_ERR_STICKY.FB_OVERWRITE : Fld := ⟨0x30020, 0x4, 1, 1⟩
def EVT_ERR_STICKY.LOG_REFUSED : Fld := ⟨0x30020, 0x4, 2, 2⟩
def EVT_ERR_STICKY.SEAL : Fld := ⟨0x30020, 0x4, 3, 3⟩
def EVT_ERR_STICKY.LASTGASP : Fld := ⟨0x30020, 0x4, 4, 4⟩
def EVT_DATA.DATA : Fld := ⟨0x30040, 0x4, 31, 0⟩
def MBX_DOORBELL.BIT : Fld := ⟨0x40000, 0x40, 4, 0⟩
def MBX_DOORBELL.FENCE : Fld := ⟨0x40000, 0x40, 5, 5⟩
def MBX_PEND.PEND : Fld := ⟨0x40004, 0x40, 31, 0⟩
def MBX_MASK.MASK : Fld := ⟨0x40008, 0x40, 31, 0⟩
def MBX_LOCK.OWNER : Fld := ⟨0x4000C, 0x40, 6, 0⟩
def MBX_UNLOCK.REL : Fld := ⟨0x40010, 0x40, 0, 0⟩
def MBX_NOTICE_LO.PTR : Fld := ⟨0x40014, 0x40, 31, 0⟩
def MBX_NOTICE_HI.PTR : Fld := ⟨0x40018, 0x40, 31, 0⟩
def MBX_INFO.RECV : Fld := ⟨0x4001C, 0x40, 7, 0⟩
def MBX_CNT.MERGED : Fld := ⟨0x40020, 0x40, 15, 0⟩
def MBX_CNT.LOCK_TMO : Fld := ⟨0x40020, 0x40, 31, 16⟩
def MBX_ERR_STICKY.ACCESS : Fld := ⟨0x41000, 0x4, 0, 0⟩
def MBX_ERR_STICKY.LOCK_TMO : Fld := ⟨0x41000, 0x4, 1, 1⟩
def MBX_ERR_STICKY.AGED : Fld := ⟨0x41000, 0x4, 2, 2⟩
def MBX_ERR_STICKY.RING_DENIED : Fld := ⟨0x41000, 0x4, 3, 3⟩
def VAULT_CTL.ENROL : Fld := ⟨0x50000, 0x4, 0, 0⟩
def VAULT_CTL.SUBMIT : Fld := ⟨0x50000, 0x4, 1, 1⟩
def VAULT_CTL.CHAL : Fld := ⟨0x50000, 0x4, 2, 2⟩
def VAULT_CTL.EXPORT : Fld := ⟨0x50000, 0x4, 3, 3⟩
def VAULT_CTL.ZEROISE : Fld := ⟨0x50000, 0x4, 4, 4⟩
def VAULT_CTL.ZKEY : Fld := ⟨0x50000, 0x4, 31, 16⟩
def VAULT_STAT.STATE : Fld := ⟨0x50004, 0x4, 2, 0⟩
def VAULT_STAT.ENROL_PERMIT : Fld := ⟨0x50004, 0x4, 3, 3⟩
def VAULT_STAT.BUSY : Fld := ⟨0x50004, 0x4, 4, 4⟩
def VAULT_STAT.SWEEP : Fld := ⟨0x50004, 0x4, 5, 5⟩
def VAULT_STAT.BAD : Fld := ⟨0x50004, 0x4, 27, 16⟩
def VAULT_MSG_ADDR_LO.VALUE : Fld := ⟨0x50008, 0x4, 31, 0⟩
def VAULT_MSG_ADDR_HI.VALUE : Fld := ⟨0x5000C, 0x4, 31, 0⟩
def VAULT_MSG_LEN.VALUE : Fld := ⟨0x50010, 0x4, 31, 0⟩
def VAULT_RESULT.CODE : Fld := ⟨0x50014, 0x4, 7, 0⟩
def VAULT_RESULT.OP : Fld := ⟨0x50014, 0x4, 11, 8⟩
def VAULT_RESULT.SLOT : Fld := ⟨0x50014, 0x4, 27, 16⟩
def VAULT_SLOT_SEL.SLOT : Fld := ⟨0x50018, 0x4, 11, 0⟩
def VAULT_SLOT_STAT.ATTR : Fld := ⟨0x5001C, 0x4, 15, 0⟩
def VAULT_SLOT_STAT.LINK : Fld := ⟨0x5001C, 0x4, 27, 16⟩
def VAULT_SLOT_STAT.USABLE : Fld := ⟨0x5001C, 0x4, 28, 28⟩
def VAULT_SLOT_STAT.CHECK_FAIL : Fld := ⟨0x5001C, 0x4, 29, 29⟩
def VAULT_BIND.BIND : Fld := ⟨0x50020, 0x4, 31, 0⟩
def VAULT_CNT_SEL.INDEX : Fld := ⟨0x50030, 0x4, 6, 0⟩
def VAULT_CNT_LO.VALUE : Fld := ⟨0x50034, 0x4, 31, 0⟩
def VAULT_CNT_HI.VALUE : Fld := ⟨0x50038, 0x4, 31, 0⟩
def VAULT_ERR_STICKY.ACCESS : Fld := ⟨0x5003C, 0x4, 0, 0⟩
def VAULT_ERR_STICKY.ROOT_BAD : Fld := ⟨0x5003C, 0x4, 1, 1⟩
def VAULT_ERR_STICKY.TRNG_FAIL : Fld := ⟨0x5003C, 0x4, 2, 2⟩
def VAULT_ERR_STICKY.SLOT_BAD : Fld := ⟨0x5003C, 0x4, 3, 3⟩
def VAULT_ERR_STICKY.COUNTER_BAD : Fld := ⟨0x5003C, 0x4, 4, 4⟩
def VAULT_ERR_STICKY.MSG_REJ : Fld := ⟨0x5003C, 0x4, 5, 5⟩
def VAULT_ERR_STICKY.ENROL_REJ : Fld := ⟨0x5003C, 0x4, 6, 6⟩
def VAULT_ERR_STICKY.PEND_REDO : Fld := ⟨0x5003C, 0x4, 7, 7⟩
def VAULT_ERR_STICKY.ORPHANED : Fld := ⟨0x5003C, 0x4, 8, 8⟩
def VAULT_ERR_STICKY.NV_FAIL : Fld := ⟨0x5003C, 0x4, 9, 9⟩
def VAULT_ENROL_NONCE.VALUE : Fld := ⟨0x50040, 0x4, 31, 0⟩
def VAULT_ENROL_PUB.VALUE : Fld := ⟨0x50060, 0x4, 31, 0⟩
def VAULT_DEV_PUB.VALUE : Fld := ⟨0x50080, 0x4, 31, 0⟩
def VAULT_ENROL_CONF.VALUE : Fld := ⟨0x500A0, 0x4, 31, 0⟩
def VAULT_CHAL_SLOT.SLOT : Fld := ⟨0x500C0, 0x4, 11, 0⟩
def VAULT_CHAL_NONCE.VALUE : Fld := ⟨0x500E0, 0x4, 31, 0⟩
def VAULT_CHAL_RESP.VALUE : Fld := ⟨0x50100, 0x4, 31, 0⟩
def PWR_VIN.VIN : Fld := ⟨0x60000, 0x4, 15, 0⟩
def PWR_VIN.IIN : Fld := ⟨0x60000, 0x4, 31, 16⟩
def PWR_PIN.PIN : Fld := ⟨0x60004, 0x4, 15, 0⟩
def PWR_PIN.PEAK : Fld := ⟨0x60004, 0x4, 31, 16⟩
def PWR_STAT.VIN_OV : Fld := ⟨0x60008, 0x4, 0, 0⟩
def PWR_STAT.VIN_LOW : Fld := ⟨0x60008, 0x4, 1, 1⟩
def THERM_STAT.TJ : Fld := ⟨0x60010, 0x4, 15, 0⟩
def THERM_STAT.WARN : Fld := ⟨0x60010, 0x4, 16, 16⟩
def THERM_STAT.SHUT_PEND : Fld := ⟨0x60010, 0x4, 17, 17⟩
def THERM_STAT.SENSOR : Fld := ⟨0x60010, 0x4, 19, 18⟩
def THERM_PEAK.PEAK : Fld := ⟨0x60014, 0x4, 15, 0⟩
def PWR_ERR_STICKY.ACCESS : Fld := ⟨0x60018, 0x4, 0, 0⟩
def PWR_ERR_STICKY.VIN_OV : Fld := ⟨0x60018, 0x4, 1, 1⟩
def PWR_ERR_STICKY.VIN_LOW : Fld := ⟨0x60018, 0x4, 2, 2⟩
def PWR_ERR_STICKY.THERM_WARN : Fld := ⟨0x60018, 0x4, 3, 3⟩
def PWR_ERR_STICKY.THERM_SHUTDOWN : Fld := ⟨0x60018, 0x4, 4, 4⟩
def PWR_BLOCK.POWER : Fld := ⟨0x60040, 0x4, 15, 0⟩
def FP_CFG.MODE : Fld := ⟨0x80000, 0x100, 2, 0⟩
def FP_CFG.PROT : Fld := ⟨0x80000, 0x100, 3, 3⟩
def FP_CFG.BANK : Fld := ⟨0x80000, 0x100, 5, 4⟩
def FP_CFG.TX_INV : Fld := ⟨0x80000, 0x100, 6, 6⟩
def FP_CFG.MAXFRAME : Fld := ⟨0x80000, 0x100, 21, 8⟩
def FP_CTL.FLUSH : Fld := ⟨0x80004, 0x100, 0, 0⟩
def FP_CTL.RETRY : Fld := ⟨0x80004, 0x100, 1, 1⟩
def FP_STAT.LINK : Fld := ⟨0x80008, 0x100, 1, 0⟩
def FP_STAT.FLUSHING : Fld := ⟨0x80008, 0x100, 2, 2⟩
def FP_STAT.REV_RX : Fld := ⟨0x80008, 0x100, 3, 3⟩
def FP_STAT.PAUSE_TX : Fld := ⟨0x80008, 0x100, 4, 4⟩
def FP_STAT.IRQ_POLL : Fld := ⟨0x80008, 0x100, 5, 5⟩
def FP_STAT.FILL : Fld := ⟨0x80008, 0x100, 6, 6⟩
def FP_FRAMES.FRAMES : Fld := ⟨0x8000C, 0x100, 31, 0⟩
def FP_DROP_A.OVER : Fld := ⟨0x80010, 0x100, 15, 0⟩
def FP_DROP_A.FULL : Fld := ⟨0x80010, 0x100, 31, 16⟩
def FP_DROP_B.ERR : Fld := ⟨0x80014, 0x100, 15, 0⟩
def FP_DROP_B.FLUSH : Fld := ⟨0x80014, 0x100, 31, 16⟩
def FP_ECC.COR : Fld := ⟨0x80018, 0x100, 15, 0⟩
def FP_ECC.UNC : Fld := ⟨0x80018, 0x100, 31, 16⟩
def FP_FAST.EDGES : Fld := ⟨0x8001C, 0x100, 31, 0⟩
def FP_ERR_STICKY.PTR_MISMATCH : Fld := ⟨0x80020, 0x100, 0, 0⟩
def FP_ERR_STICKY.ECC_UNC : Fld := ⟨0x80020, 0x100, 1, 1⟩
def FP_ERR_STICKY.SHORT : Fld := ⟨0x80020, 0x100, 2, 2⟩
def FP_ERR_STICKY.OPEN : Fld := ⟨0x80020, 0x100, 3, 3⟩
def FP_ERR_STICKY.OVERSIZE : Fld := ⟨0x80020, 0x100, 4, 4⟩
def FP_ERR_STICKY.FULL_DROP : Fld := ⟨0x80020, 0x100, 5, 5⟩
def FP_ERR_STICKY.FLUSH_ABORT : Fld := ⟨0x80020, 0x100, 6, 6⟩
def FP_ERR_STICKY.IRQ_FAST : Fld := ⟨0x80020, 0x100, 7, 7⟩
def FP_ERR_STICKY.IRQ_STUCK : Fld := ⟨0x80020, 0x100, 8, 8⟩
def FP_ERR_STICKY.REVERSED : Fld := ⟨0x80020, 0x100, 9, 9⟩
def FPG_ACTIVE.ACTIVE : Fld := ⟨0x90000, 0x4, 6, 0⟩
def FPQ_ACTIVE.ACTIVE : Fld := ⟨0x90040, 0x4, 6, 0⟩
def FP_QUANTUM.Q : Fld := ⟨0x90050, 0x4, 15, 0⟩
def FP_GRP_RST.RELEASE : Fld := ⟨0x90054, 0x4, 15, 0⟩
def EDGE_FAST.EDGES : Fld := ⟨0x90060, 0x4, 31, 0⟩
def EDGE_STAT.TAMPER : Fld := ⟨0x90074, 0x4, 3, 0⟩
def FP_GLB_ERR_STICKY.ACCESS : Fld := ⟨0x90078, 0x4, 0, 0⟩
def FP_GLB_ERR_STICKY.PPS_FAST : Fld := ⟨0x90078, 0x4, 1, 1⟩
def FP_GLB_ERR_STICKY.TAMPER0_FAST : Fld := ⟨0x90078, 0x4, 2, 2⟩
def FP_GLB_ERR_STICKY.TAMPER1_FAST : Fld := ⟨0x90078, 0x4, 3, 3⟩
def FP_GLB_ERR_STICKY.TAMPER2_FAST : Fld := ⟨0x90078, 0x4, 4, 4⟩
def FP_GLB_ERR_STICKY.TAMPER3_FAST : Fld := ⟨0x90078, 0x4, 5, 5⟩
def PLC_CFG.STD : Fld := ⟨0xA0000, 0x80, 0, 0⟩
def PLC_CFG.BAND : Fld := ⟨0xA0000, 0x80, 3, 1⟩
def PLC_CFG.DECIM : Fld := ⟨0xA0000, 0x80, 8, 4⟩
def PLC_CFG.TXLVL : Fld := ⟨0xA0000, 0x80, 11, 9⟩
def PLC_CFG.JOIN_RATE : Fld := ⟨0xA0000, 0x80, 19, 12⟩
def PLC_STAT.GAIN : Fld := ⟨0xA0004, 0x80, 3, 0⟩
def PLC_STAT.RX_LOCK : Fld := ⟨0xA0004, 0x80, 4, 4⟩
def PLC_STAT.SYNCED : Fld := ⟨0xA0004, 0x80, 5, 5⟩
def PLC_STAT.TXON : Fld := ⟨0xA0004, 0x80, 6, 6⟩
def PLC_STAT.IN_FRAME : Fld := ⟨0xA0004, 0x80, 7, 7⟩
def PLC_BLANK.THR : Fld := ⟨0xA0008, 0x80, 4, 0⟩
def PLC_BLANK.GUARD : Fld := ⟨0xA0008, 0x80, 9, 5⟩
def PLC_RXCNT.FRAMES : Fld := ⟨0xA000C, 0x80, 31, 0⟩
def PLC_ERASE.FORCED : Fld := ⟨0xA0010, 0x80, 15, 0⟩
def PLC_ERASE.ERASED : Fld := ⟨0xA0010, 0x80, 31, 16⟩
def PLC_BLANKED.SAMPLES : Fld := ⟨0xA0014, 0x80, 31, 0⟩
def PLC_RXQ_DROP.QFULL : Fld := ⟨0xA0018, 0x80, 15, 0⟩
def PLC_RXQ_DROP.ABORT : Fld := ⟨0xA0018, 0x80, 31, 16⟩
def PLC_JOIN.ANSWERED : Fld := ⟨0xA001C, 0x80, 15, 0⟩
def PLC_JOIN.DEFERRED : Fld := ⟨0xA001C, 0x80, 31, 16⟩
def PLC_LINKERR.CRC : Fld := ⟨0xA0020, 0x80, 15, 0⟩
def PLC_LINKERR.SEQ : Fld := ⟨0xA0020, 0x80, 31, 16⟩
def PLC_ERR_STICKY.LINK_CRC : Fld := ⟨0xA0024, 0x80, 0, 0⟩
def PLC_ERR_STICKY.LOCK_LOST : Fld := ⟨0xA0024, 0x80, 1, 1⟩
def PLC_ERR_STICKY.FORCED_STEP : Fld := ⟨0xA0024, 0x80, 2, 2⟩
def PLC_ERR_STICKY.RX_ABORT : Fld := ⟨0xA0024, 0x80, 3, 3⟩
def PLC_ERR_STICKY.QFULL : Fld := ⟨0xA0024, 0x80, 4, 4⟩
def PLC_ERR_STICKY.ZC_BAD : Fld := ⟨0xA0024, 0x80, 5, 5⟩
def RAIL_CFG.CARRIER : Fld := ⟨0xB0000, 0x4, 2, 0⟩
def RAIL_CFG.BTHR : Fld := ⟨0xB0000, 0x4, 7, 3⟩
def RAIL_CFG.ENABLED : Fld := ⟨0xB0000, 0x4, 8, 8⟩
def RAIL_STAT.COUPLING : Fld := ⟨0xB0004, 0x4, 0, 0⟩
def RAIL_STAT.PLOCK : Fld := ⟨0xB0004, 0x4, 1, 1⟩
def RAIL_STAT.BUSY : Fld := ⟨0xB0004, 0x4, 2, 2⟩
def RAIL_STAT.PERIOD : Fld := ⟨0xB0004, 0x4, 31, 16⟩
def RAIL_CNT.RX : Fld := ⟨0xB0008, 0x4, 15, 0⟩
def RAIL_CNT.TX : Fld := ⟨0xB0008, 0x4, 31, 16⟩
def RAIL_ERRCNT.SEAL : Fld := ⟨0xB000C, 0x4, 15, 0⟩
def RAIL_ERRCNT.RETRY : Fld := ⟨0xB000C, 0x4, 31, 16⟩
def RAIL_ERR_STICKY.ACCESS : Fld := ⟨0xB0010, 0x4, 0, 0⟩
def RAIL_ERR_STICKY.OPEN : Fld := ⟨0xB0010, 0x4, 1, 1⟩
def RAIL_ERR_STICKY.SEAL : Fld := ⟨0xB0010, 0x4, 2, 2⟩
def RAIL_ERR_STICKY.RETRY_EXH : Fld := ⟨0xB0010, 0x4, 3, 3⟩
def RADIO_CFG.RATE : Fld := ⟨0xC0000, 0x80, 1, 0⟩
def RADIO_CFG.BO : Fld := ⟨0xC0000, 0x80, 5, 2⟩
def RADIO_CFG.SO : Fld := ⟨0xC0000, 0x80, 9, 6⟩
def RADIO_CFG.FCS4 : Fld := ⟨0xC0000, 0x80, 10, 10⟩
def RADIO_CFG.GTS_MAX : Fld := ⟨0xC0000, 0x80, 13, 11⟩
def RADIO_CFG.JOIN_RATE : Fld := ⟨0xC0000, 0x80, 21, 14⟩
def RADIO_CFG.MOD : Fld := ⟨0xC0000, 0x80, 25, 22⟩
def RADIO_STAT.ASSOC : Fld := ⟨0xC0004, 0x80, 14, 0⟩
def RADIO_STAT.STORM : Fld := ⟨0xC0004, 0x80, 15, 15⟩
def RADIO_STAT.HOLD : Fld := ⟨0xC0004, 0x80, 16, 16⟩
def RADIO_HINT.WIN : Fld := ⟨0xC0008, 0x80, 15, 0⟩
def RADIO_HINT.START : Fld := ⟨0xC0008, 0x80, 31, 16⟩
def RADIO_RXCNT.FRAMES : Fld := ⟨0xC000C, 0x80, 31, 0⟩
def RADIO_DROP.QFULL : Fld := ⟨0xC0010, 0x80, 15, 0⟩
def RADIO_DROP.SECURED : Fld := ⟨0xC0010, 0x80, 31, 16⟩
def RADIO_DUP.DUP : Fld := ⟨0xC0014, 0x80, 15, 0⟩
def RADIO_DUP.ACK_LATE : Fld := ⟨0xC0014, 0x80, 31, 16⟩
def RADIO_JOIN.ANSWERED : Fld := ⟨0xC0018, 0x80, 15, 0⟩
def RADIO_JOIN.DEFERRED : Fld := ⟨0xC0018, 0x80, 31, 16⟩
def RADIO_INDIR.EXPIRED : Fld := ⟨0xC001C, 0x80, 15, 0⟩
def RADIO_INDIR.SERVED : Fld := ⟨0xC001C, 0x80, 31, 16⟩
def RADIO_ERR_STICKY.QFULL : Fld := ⟨0xC0020, 0x80, 0, 0⟩
def RADIO_ERR_STICKY.ACK_LATE : Fld := ⟨0xC0020, 0x80, 1, 1⟩
def RADIO_ERR_STICKY.TABLE_FULL : Fld := ⟨0xC0020, 0x80, 2, 2⟩
def RADIO_ERR_STICKY.SECURED : Fld := ⟨0xC0020, 0x80, 3, 3⟩
def RADIO_ERR_STICKY.SPI_ERR : Fld := ⟨0xC0020, 0x80, 4, 4⟩
def TXG_STAT.OWN : Fld := ⟨0xD0000, 0x4, 0, 0⟩
def TXG_STAT.PEER : Fld := ⟨0xD0000, 0x4, 1, 1⟩
def RADIO_GLB_ERR_STICKY.ACCESS : Fld := ⟨0xD0004, 0x4, 0, 0⟩
def RADIO_GLB_ERR_STICKY.GRANT_BOTH : Fld := ⟨0xD0004, 0x4, 1, 1⟩
def RADIO_GLB_ERR_STICKY.GRANT_YIELD : Fld := ⟨0xD0004, 0x4, 2, 2⟩
def ING_POOL.FREE : Fld := ⟨0xE0000, 0x4, 15, 0⟩
def ING_POOL.MIN : Fld := ⟨0xE0000, 0x4, 31, 16⟩
def ING_POOL_CFG.APDU_MAX : Fld := ⟨0xE0004, 0x4, 15, 0⟩
def ING_HOLD.LOW : Fld := ⟨0xE0008, 0x4, 15, 0⟩
def ING_HOLD.HIGH : Fld := ⟨0xE0008, 0x4, 31, 16⟩
def ING_STAT.HOLD : Fld := ⟨0xE000C, 0x4, 0, 0⟩
def ING_STAT.PARKED : Fld := ⟨0xE000C, 0x4, 10, 4⟩
def ING_STAT.CTX : Fld := ⟨0xE000C, 0x4, 26, 16⟩
def KC_HIT.COUNT : Fld := ⟨0xE0010, 0x4, 31, 0⟩
def KC_MISS.COUNT : Fld := ⟨0xE0014, 0x4, 31, 0⟩
def ING_ERR_STICKY.ACCESS : Fld := ⟨0xE0018, 0x4, 0, 0⟩
def ING_ERR_STICKY.FRAME_SEAL : Fld := ⟨0xE0018, 0x4, 1, 1⟩
def ING_ERR_STICKY.PT_SEAL : Fld := ⟨0xE0018, 0x4, 2, 2⟩
def ING_ERR_STICKY.KEY_BAD : Fld := ⟨0xE0018, 0x4, 3, 3⟩
def ING_ERR_STICKY.KEY_EXH : Fld := ⟨0xE0018, 0x4, 4, 4⟩
def ING_ERR_STICKY.REASM_DROP : Fld := ⟨0xE0018, 0x4, 5, 5⟩
def ING_ERR_STICKY.PARK_FULL : Fld := ⟨0xE0018, 0x4, 6, 6⟩
def ING_ERR_STICKY.TOO_MANY : Fld := ⟨0xE0018, 0x4, 7, 7⟩
def ING_ERR_STICKY.HOLD_ENTERED : Fld := ⟨0xE0018, 0x4, 8, 8⟩
def ING_ERR_STICKY.POOL_EMPTY : Fld := ⟨0xE0018, 0x4, 9, 9⟩
def ING_SEAT_CNT_0.APDU_OK : Fld := ⟨0xE1000, 0x20, 31, 0⟩
def ING_SEAT_CNT_1.RECORDS : Fld := ⟨0xE1004, 0x20, 31, 0⟩
def ING_SEAT_CNT_2.AUTH : Fld := ⟨0xE1008, 0x20, 15, 0⟩
def ING_SEAT_CNT_2.REPLAY : Fld := ⟨0xE1008, 0x20, 31, 16⟩
def ING_SEAT_CNT_3.SEAL : Fld := ⟨0xE100C, 0x20, 15, 0⟩
def ING_SEAT_CNT_3.POLICY : Fld := ⟨0xE100C, 0x20, 31, 16⟩
def ING_SEAT_CNT_4.REASM : Fld := ⟨0xE1010, 0x20, 15, 0⟩
def ING_SEAT_CNT_4.KEY : Fld := ⟨0xE1010, 0x20, 31, 16⟩
def ING_SEAT_CNT_5.DUP : Fld := ⟨0xE1014, 0x20, 15, 0⟩
def ING_SEAT_CNT_5.SKIPPED : Fld := ⟨0xE1014, 0x20, 31, 16⟩
def UPL_ACK.TAG : Fld := ⟨0xE2000, 0x4, 15, 0⟩
def UPL_ACK.PATH : Fld := ⟨0xE2000, 0x4, 17, 16⟩
def UPL_RETX.TAG : Fld := ⟨0xE2004, 0x4, 15, 0⟩
def UPL_RETX.PATH : Fld := ⟨0xE2004, 0x4, 17, 16⟩
def UPL_STAT.PARTIAL : Fld := ⟨0xE2008, 0x4, 0, 0⟩
def UPL_STAT.NOTAG : Fld := ⟨0xE2008, 0x4, 1, 1⟩
def UPL_STAT.RETX_BUSY : Fld := ⟨0xE2008, 0x4, 2, 2⟩
def UPL_STAT.RETX_LOST : Fld := ⟨0xE2008, 0x4, 3, 3⟩
def UPL_STAT.STAGING_FULL : Fld := ⟨0xE2008, 0x4, 4, 4⟩
def UPL_NOTGEN.COUNT : Fld := ⟨0xE200C, 0x4, 31, 0⟩
def LDG_SEAT_INFO.SLOTS : Fld := ⟨0x100000, 0x4, 20, 0⟩
def LDG_SEAT_INFO.PERIOD : Fld := ⟨0x100000, 0x4, 31, 24⟩
def LDG_ENG_MASK.MASK : Fld := ⟨0x100004, 0x4, 15, 0⟩
def LDG_SHADOW.EN : Fld := ⟨0x100008, 0x4, 0, 0⟩
def LDG_SHADOW.ENG : Fld := ⟨0x100008, 0x4, 7, 4⟩
def LDG_SHADOW.RECS : Fld := ⟨0x100008, 0x4, 31, 16⟩
def LDG_SHADOW_MISM.MISM : Fld := ⟨0x10000C, 0x4, 15, 0⟩
def LDG_SHADOW_MISM.SHADOW_SELF : Fld := ⟨0x10000C, 0x4, 16, 16⟩
def LDG_ENG_FAULT.FAULT : Fld := ⟨0x100010, 0x4, 15, 0⟩
def LDG_RERATE_FIRST.SLOT : Fld := ⟨0x100020, 0x4, 19, 0⟩
def LDG_RERATE_LAST.SLOT : Fld := ⟨0x100024, 0x4, 19, 0⟩
def LDG_RERATE_CTL.GO : Fld := ⟨0x100028, 0x4, 0, 0⟩
def LDG_RERATE_CTL.BUSY : Fld := ⟨0x100028, 0x4, 1, 1⟩
def LDG_RERATE_CTL.REJ : Fld := ⟨0x100028, 0x4, 2, 2⟩
def LDG_SLOT_SEL.SLOT : Fld := ⟨0x100030, 0x4, 19, 0⟩
def LDG_SLOT_STAT.STATE : Fld := ⟨0x100034, 0x4, 2, 0⟩
def LDG_SLOT_STAT.HELD : Fld := ⟨0x100034, 0x4, 26, 16⟩
def LDG_SLOT_CTL.REINIT : Fld := ⟨0x100038, 0x4, 0, 0⟩
def LDG_FENCE.TAG : Fld := ⟨0x100040, 0x4, 15, 0⟩
def LDG_FENCE.MARK : Fld := ⟨0x100040, 0x4, 16, 16⟩
def LDG_FENCE.NOTIFY : Fld := ⟨0x100040, 0x4, 17, 17⟩
def LDG_FENCE.DB : Fld := ⟨0x100040, 0x4, 22, 18⟩
def LDG_FENCE_STAT.DONE_TAG : Fld := ⟨0x100044, 0x4, 15, 0⟩
def LDG_FENCE_STAT.OUTSTANDING : Fld := ⟨0x100044, 0x4, 18, 16⟩
def LDG_FENCE_STAT.REJ : Fld := ⟨0x100044, 0x4, 20, 20⟩
def LDG_FENCE_STAT.LOST : Fld := ⟨0x100044, 0x4, 21, 21⟩
def LDG_ERR_STICKY.ACCESS : Fld := ⟨0x100048, 0x4, 0, 0⟩
def LDG_ERR_STICKY.REC_SEAL : Fld := ⟨0x100048, 0x4, 1, 1⟩
def LDG_ERR_STICKY.BLK_SEAL : Fld := ⟨0x100048, 0x4, 2, 2⟩
def LDG_ERR_STICKY.REPAIR_FAIL : Fld := ⟨0x100048, 0x4, 3, 3⟩
def LDG_ERR_STICKY.TAMPER_OVF : Fld := ⟨0x100048, 0x4, 4, 4⟩
def LDG_ERR_STICKY.UNIT_ERR : Fld := ⟨0x100048, 0x4, 5, 5⟩
def LDG_SEAT_CNT_0.APPLIED : Fld := ⟨0x101000, 0x20, 31, 0⟩
def LDG_SEAT_CNT_1.REC_SEAL : Fld := ⟨0x101004, 0x20, 15, 0⟩
def LDG_SEAT_CNT_1.DENIED : Fld := ⟨0x101004, 0x20, 31, 16⟩
def LDG_SEAT_CNT_2.DEF_RATED : Fld := ⟨0x101008, 0x20, 15, 0⟩
def LDG_SEAT_CNT_2.RERATED : Fld := ⟨0x101008, 0x20, 31, 16⟩
def LDG_SEAT_CNT_3.HIST_ONLY : Fld := ⟨0x10100C, 0x20, 15, 0⟩
def LDG_SEAT_CNT_3.UNIT_ERR : Fld := ⟨0x10100C, 0x20, 31, 16⟩
def LDG_SEAT_CNT_4.REPAIRED : Fld := ⟨0x101010, 0x20, 15, 0⟩
def LDG_SEAT_CNT_4.FAILED : Fld := ⟨0x101010, 0x20, 31, 16⟩
def VEE_SEAT_SEL.SEAT : Fld := ⟨0x120000, 0x4, 5, 0⟩
def VEE_SET_INFO.SET : Fld := ⟨0x120004, 0x4, 3, 0⟩
def VEE_SET_INFO.EMPTY : Fld := ⟨0x120004, 0x4, 4, 4⟩
def VEE_ERR_STICKY.ACCESS : Fld := ⟨0x120008, 0x4, 0, 0⟩
def VEE_ERR_STICKY.HIGH : Fld := ⟨0x120008, 0x4, 1, 1⟩
def VEE_ERR_STICKY.REV : Fld := ⟨0x120008, 0x4, 2, 2⟩
def VEE_ERR_STICKY.STUCK : Fld := ⟨0x120008, 0x4, 3, 3⟩
def VEE_ERR_STICKY.TIME_REJ : Fld := ⟨0x120008, 0x4, 4, 4⟩
def VEE_ERR_STICKY.BRIDGE : Fld := ⟨0x120008, 0x4, 5, 5⟩
def VEE_RULE.WORD : Fld := ⟨0x120010, 0x4, 31, 0⟩
def VEE_SEAT_CNT_0.GAPS : Fld := ⟨0x121000, 0x20, 15, 0⟩
def VEE_SEAT_CNT_0.ESTS : Fld := ⟨0x121000, 0x20, 31, 16⟩
def VEE_SEAT_CNT_1.EDITS : Fld := ⟨0x121004, 0x20, 15, 0⟩
def VEE_SEAT_CNT_1.LATE : Fld := ⟨0x121004, 0x20, 31, 16⟩
def VEE_SEAT_CNT_2.SPIKES : Fld := ⟨0x121008, 0x20, 15, 0⟩
def VEE_SEAT_CNT_2.HIGHS : Fld := ⟨0x121008, 0x20, 31, 16⟩
def VEE_SEAT_CNT_3.ROLLS : Fld := ⟨0x12100C, 0x20, 15, 0⟩
def VEE_SEAT_CNT_3.REVS : Fld := ⟨0x12100C, 0x20, 31, 16⟩
def VEE_SEAT_CNT_4.STUCKS : Fld := ⟨0x121010, 0x20, 15, 0⟩
def VEE_SEAT_CNT_4.TIMES : Fld := ⟨0x121010, 0x20, 31, 16⟩
def VEE_SEAT_CNT_5.BRIDGES : Fld := ⟨0x121014, 0x20, 15, 0⟩
def BAL_INFO.NODES : Fld := ⟨0x140000, 0x4, 17, 0⟩
def BAL_INFO.ACTIVE : Fld := ⟨0x140000, 0x4, 31, 31⟩
def BAL_STAT.BACKLOG : Fld := ⟨0x140004, 0x4, 15, 0⟩
def BAL_LAST_IDX.IDX : Fld := ⟨0x140008, 0x4, 31, 0⟩
def BAL_NODE_SEL.INDEX : Fld := ⟨0x140010, 0x4, 16, 0⟩
def BAL_NODE_RES.RBP : Fld := ⟨0x140014, 0x4, 15, 0⟩
def BAL_NODE_RES.SNODE : Fld := ⟨0x140014, 0x4, 23, 16⟩
def BAL_NODE_RES.NFLAGS : Fld := ⟨0x140014, 0x4, 31, 24⟩
def BAL_NODE_ALARM.ALARM : Fld := ⟨0x140018, 0x4, 0, 0⟩
def BAL_NODE_ALARM.RUN : Fld := ⟨0x140018, 0x4, 4, 1⟩
def BAL_SLOT_SEL.INDEX : Fld := ⟨0x140020, 0x4, 19, 0⟩
def BAL_SLOT_SCORE.SCORE : Fld := ⟨0x140024, 0x4, 7, 0⟩
def BAL_SLOT_SCORE.PHASE : Fld := ⟨0x140024, 0x4, 15, 8⟩
def BAL_SLOT_SCORE.ALARM : Fld := ⟨0x140024, 0x4, 16, 16⟩
def BAL_SLOT_CTL.REBASE : Fld := ⟨0x140028, 0x4, 0, 0⟩
def BAL_SLOT_CTL.RESET_TRACK : Fld := ⟨0x140028, 0x4, 1, 1⟩
def BAL_SLOT_CTL.REJ : Fld := ⟨0x140028, 0x4, 2, 2⟩
def BAL_ERR_STICKY.ACCESS : Fld := ⟨0x14002C, 0x4, 0, 0⟩
def BAL_ERR_STICKY.BACKLOG : Fld := ⟨0x14002C, 0x4, 1, 1⟩
def BAL_ERR_STICKY.XMISS : Fld := ⟨0x14002C, 0x4, 2, 2⟩
def BAL_ERR_STICKY.XLATE : Fld := ⟨0x14002C, 0x4, 3, 3⟩
def BAL_ERR_STICKY.PHASE_MISMATCH : Fld := ⟨0x14002C, 0x4, 4, 4⟩
def BAL_ERR_STICKY.NODE_ALARM : Fld := ⟨0x14002C, 0x4, 5, 5⟩
def BAL_ERR_STICKY.SLOT_ALARM : Fld := ⟨0x14002C, 0x4, 6, 6⟩
def BAL_SEAT_CNT_0.EVALS : Fld := ⟨0x141000, 0x20, 31, 0⟩
def BAL_SEAT_CNT_1.INCOMPLETE : Fld := ⟨0x141004, 0x20, 15, 0⟩
def BAL_SEAT_CNT_1.UNSCORED : Fld := ⟨0x141004, 0x20, 31, 16⟩
def BAL_SEAT_CNT_2.NODE_ALARMS : Fld := ⟨0x141008, 0x20, 15, 0⟩
def BAL_SEAT_CNT_2.SLOT_ALARMS : Fld := ⟨0x141008, 0x20, 31, 16⟩
def BAL_SEAT_CNT_3.PEND_DROP : Fld := ⟨0x14100C, 0x20, 15, 0⟩
def BAL_SEAT_CNT_3.PHASE_MISMATCH : Fld := ⟨0x14100C, 0x20, 31, 16⟩
def BAL_SEAT_CNT_4.SAMPLES : Fld := ⟨0x141010, 0x20, 31, 0⟩
def BAL_SEAT_CNT_5.XMISS : Fld := ⟨0x141014, 0x20, 15, 0⟩
def BAL_SEAT_CNT_5.XLATE : Fld := ⟨0x141014, 0x20, 31, 16⟩
def CAMP_SEL.ID : Fld := ⟨0x160000, 0x4, 3, 0⟩
def CAMP_SRC_ADDR_LO.VALUE : Fld := ⟨0x160004, 0x4, 31, 0⟩
def CAMP_SRC_ADDR_HI.VALUE : Fld := ⟨0x160008, 0x4, 31, 0⟩
def CAMP_SRC_LEN.VALUE : Fld := ⟨0x16000C, 0x4, 31, 0⟩
def CAMP_CTL.CREATE : Fld := ⟨0x160010, 0x4, 0, 0⟩
def CAMP_CTL.START : Fld := ⟨0x160010, 0x4, 1, 1⟩
def CAMP_CTL.PAUSE : Fld := ⟨0x160010, 0x4, 2, 2⟩
def CAMP_CTL.RESUME : Fld := ⟨0x160010, 0x4, 3, 3⟩
def CAMP_CTL.ABORT : Fld := ⟨0x160010, 0x4, 4, 4⟩
def CAMP_CTL.RELEASE : Fld := ⟨0x160010, 0x4, 5, 5⟩
def CAMP_STAT.STATE : Fld := ⟨0x160014, 0x4, 3, 0⟩
def CAMP_STAT.KIND : Fld := ⟨0x160014, 0x4, 5, 4⟩
def CAMP_STAT.ROUND : Fld := ⟨0x160014, 0x4, 9, 6⟩
def CAMP_STAT.REASON : Fld := ⟨0x160014, 0x4, 14, 12⟩
def CAMP_STAT.REJ : Fld := ⟨0x160014, 0x4, 15, 15⟩
def CAMP_STAT.OWNER : Fld := ⟨0x160014, 0x4, 21, 16⟩
def CAMP_BLOCK.NEXT : Fld := ⟨0x160018, 0x4, 15, 0⟩
def CAMP_BLOCK.TOTAL : Fld := ⟨0x160018, 0x4, 31, 16⟩
def CAMP_DONE.TARGETS : Fld := ⟨0x16001C, 0x4, 20, 0⟩
def CAMP_FAIL.TARGETS : Fld := ⟨0x160020, 0x4, 20, 0⟩
def CAMP_PEND.TARGETS : Fld := ⟨0x160024, 0x4, 20, 0⟩
def CAMP_TX.FRAMES : Fld := ⟨0x160028, 0x4, 31, 0⟩
def CAMP_QREF.REFUSED : Fld := ⟨0x16002C, 0x4, 15, 0⟩
def CAMP_QREF.EXPIRED : Fld := ⟨0x16002C, 0x4, 31, 16⟩
def CAMP_VFAIL.VFAIL : Fld := ⟨0x160030, 0x4, 15, 0⟩
def CAMP_ERR_STICKY.ACCESS : Fld := ⟨0x160034, 0x4, 0, 0⟩
def CAMP_ERR_STICKY.IMG_SEAL : Fld := ⟨0x160034, 0x4, 1, 1⟩
def CAMP_ERR_STICKY.TARGET_FAIL : Fld := ⟨0x160034, 0x4, 2, 2⟩
def CAMP_ERR_STICKY.BKEY_BAD : Fld := ⟨0x160034, 0x4, 3, 3⟩
def SEAT_INFO.FLAGS : Fld := ⟨0x180000, 0x40, 2, 0⟩
def SEAT_INFO.VID : Fld := ⟨0x180000, 0x40, 14, 3⟩
def SEAT_INFO.MBX : Fld := ⟨0x180000, 0x40, 20, 15⟩
def SEAT_CTL.L4 : Fld := ⟨0x180004, 0x40, 0, 0⟩
def SEAT_STAT.STATE : Fld := ⟨0x180008, 0x40, 1, 0⟩
def SEAT_STAT.L4_SEEN : Fld := ⟨0x180008, 0x40, 2, 2⟩
def SEAT_STAT.VIOL : Fld := ⟨0x180008, 0x40, 3, 3⟩
def SEAT_STAT.RING_FULL : Fld := ⟨0x180008, 0x40, 4, 4⟩
def SEAT_STAT.LVL_DENIED : Fld := ⟨0x180008, 0x40, 5, 5⟩
def SEAT_VIOL.COUNT : Fld := ⟨0x18000C, 0x40, 15, 0⟩
def SEAT_RING_BASE_LO_0.PAGES : Fld := ⟨0x180010, 0x40, 11, 0⟩
def SEAT_RING_BASE_LO_0.ADDR : Fld := ⟨0x180010, 0x40, 31, 12⟩
def SEAT_RING_BASE_HI_0.ADDR : Fld := ⟨0x180014, 0x40, 31, 0⟩
def SEAT_RING_DEV_0.PTR : Fld := ⟨0x180018, 0x40, 23, 0⟩
def SEAT_RING_HOST_0.PTR : Fld := ⟨0x18001C, 0x40, 23, 0⟩
def SEAT_RING_BASE_LO_1.PAGES : Fld := ⟨0x180020, 0x40, 11, 0⟩
def SEAT_RING_BASE_LO_1.ADDR : Fld := ⟨0x180020, 0x40, 31, 12⟩
def SEAT_RING_BASE_HI_1.ADDR : Fld := ⟨0x180024, 0x40, 31, 0⟩
def SEAT_RING_DEV_1.PTR : Fld := ⟨0x180028, 0x40, 23, 0⟩
def SEAT_RING_HOST_1.PTR : Fld := ⟨0x18002C, 0x40, 23, 0⟩
def SEAT_RING_BASE_LO_2.PAGES : Fld := ⟨0x180030, 0x40, 11, 0⟩
def SEAT_RING_BASE_LO_2.ADDR : Fld := ⟨0x180030, 0x40, 31, 12⟩
def SEAT_RING_BASE_HI_2.ADDR : Fld := ⟨0x180034, 0x40, 31, 0⟩
def SEAT_RING_DEV_2.PTR : Fld := ⟨0x180038, 0x40, 23, 0⟩
def SEAT_RING_HOST_2.PTR : Fld := ⟨0x18003C, 0x40, 23, 0⟩
def SEAT_WIN.LDG : Fld := ⟨0x181000, 0x4, 3, 0⟩
def SEAT_WIN.PORT : Fld := ⟨0x181000, 0x4, 11, 4⟩
def SEAT_WIN.NODE : Fld := ⟨0x181000, 0x4, 20, 12⟩
def ADIR_KEY.KEY : Fld := ⟨0x181010, 0x4, 31, 0⟩
def ADIR_ARG.SLOT : Fld := ⟨0x181020, 0x4, 19, 0⟩
def ADIR_ARG.TYPE : Fld := ⟨0x181020, 0x4, 23, 20⟩
def ADIR_CTL.OP : Fld := ⟨0x181024, 0x4, 1, 0⟩
def ADIR_STAT.BUSY : Fld := ⟨0x181028, 0x4, 0, 0⟩
def ADIR_STAT.RESULT : Fld := ⟨0x181028, 0x4, 3, 1⟩
def SEAT_ERR_STICKY.ACCESS : Fld := ⟨0x181030, 0x4, 0, 0⟩
def SEAT_ERR_STICKY.PF_FLR : Fld := ⟨0x181030, 0x4, 1, 1⟩
def SEAT_ERR_STICKY.VLAN_UNKNOWN : Fld := ⟨0x181030, 0x4, 2, 2⟩
def SEAT_ERR_STICKY.MACSEC_DROP : Fld := ⟨0x181030, 0x4, 3, 3⟩
def SEAT_ERR_STICKY.DIR_FULL : Fld := ⟨0x181030, 0x4, 4, 4⟩
def MEM_CTL.CLR_COLLIDE : Fld := ⟨0x1A0000, 0x4, 0, 0⟩
def MEM_SRAM_STAT.OFF : Fld := ⟨0x1A0004, 0x4, 15, 0⟩
def MEM_SRAM_STAT.FAILED : Fld := ⟨0x1A0004, 0x4, 31, 16⟩
def MEM_BANK_SEL.BANK : Fld := ⟨0x1A0008, 0x4, 7, 0⟩
def MEM_BANK_STAT.PSTATE : Fld := ⟨0x1A000C, 0x4, 1, 0⟩
def MEM_BANK_STAT.FUSED : Fld := ⟨0x1A000C, 0x4, 4, 2⟩
def MEM_BANK_STAT.SOFT : Fld := ⟨0x1A000C, 0x4, 7, 5⟩
def MEM_SRAM_ECC.COR : Fld := ⟨0x1A0010, 0x4, 15, 0⟩
def MEM_SRAM_ECC.UNC : Fld := ⟨0x1A0010, 0x4, 31, 16⟩
def MEM_SRAM_MERGE.COR_MERGE : Fld := ⟨0x1A0014, 0x4, 15, 0⟩
def MEM_SRAM_MERGE.POISON_KEEP : Fld := ⟨0x1A0014, 0x4, 31, 16⟩
def MEM_COLLIDE.COUNT : Fld := ⟨0x1A0018, 0x4, 23, 0⟩
def MEM_COLLIDE_LAST.BANK : Fld := ⟨0x1A001C, 0x4, 7, 0⟩
def MEM_COLLIDE_LAST.LATER : Fld := ⟨0x1A001C, 0x4, 13, 8⟩
def MEM_COLLIDE_LAST.EARLIER : Fld := ⟨0x1A001C, 0x4, 19, 14⟩
def MEM_COLLIDE_LAST.WLATE : Fld := ⟨0x1A001C, 0x4, 20, 20⟩
def MEM_DRAM_ECC.COR : Fld := ⟨0x1A0020, 0x4, 15, 0⟩
def MEM_DRAM_ECC.UNC : Fld := ⟨0x1A0020, 0x4, 31, 16⟩
def MEM_DRAM_STAT.SR_L2 : Fld := ⟨0x1A0030, 0x4, 0, 0⟩
def MEM_DRAM_STAT.SCRUB_ACT : Fld := ⟨0x1A0030, 0x4, 1, 1⟩
def MEM_FTL_STAT.STATE : Fld := ⟨0x1A0040, 0x4, 2, 0⟩
def MEM_FTL_STAT.LOAD_TICKS : Fld := ⟨0x1A0040, 0x4, 31, 16⟩
def MEM_FTL_BLOCKS.SPARE : Fld := ⟨0x1A0044, 0x4, 15, 0⟩
def MEM_FTL_BLOCKS.BAD : Fld := ⟨0x1A0044, 0x4, 31, 16⟩
def MEM_FTL_FREE.FREE1 : Fld := ⟨0x1A0048, 0x4, 11, 0⟩
def MEM_FTL_FREE.FREE_TLC : Fld := ⟨0x1A0048, 0x4, 31, 16⟩
def MEM_FTL_WEAR.MAX : Fld := ⟨0x1A004C, 0x4, 15, 0⟩
def MEM_FTL_WEAR.MIN : Fld := ⟨0x1A004C, 0x4, 31, 16⟩
def MEM_FTL_CKPT.PAGE : Fld := ⟨0x1A0050, 0x4, 17, 0⟩
def MEM_FTL_CKPT.PASSES : Fld := ⟨0x1A0050, 0x4, 31, 18⟩
def MEM_ERR_STICKY.ACCESS : Fld := ⟨0x1A0058, 0x4, 0, 0⟩
def MEM_ERR_STICKY.SRAM_UNC : Fld := ⟨0x1A0058, 0x4, 1, 1⟩
def MEM_ERR_STICKY.PARTIAL_POISON : Fld := ⟨0x1A0058, 0x4, 2, 2⟩
def MEM_ERR_STICKY.COLLIDE : Fld := ⟨0x1A0058, 0x4, 3, 3⟩
def MEM_ERR_STICKY.OFF_ACCESS : Fld := ⟨0x1A0058, 0x4, 4, 4⟩
def MEM_ERR_STICKY.BIST_FAIL : Fld := ⟨0x1A0058, 0x4, 5, 5⟩
def MEM_ERR_STICKY.SOFT_REPAIR : Fld := ⟨0x1A0058, 0x4, 6, 6⟩
def MEM_ERR_STICKY.DRAM_UNC : Fld := ⟨0x1A0058, 0x4, 7, 7⟩
def MEM_ERR_STICKY.FULL_SCAN : Fld := ⟨0x1A0058, 0x4, 8, 8⟩
def MEM_ERR_STICKY.GROWN_BAD : Fld := ⟨0x1A0058, 0x4, 9, 9⟩
def MEM_ERR_STICKY.SPARE_LOW : Fld := ⟨0x1A0058, 0x4, 10, 10⟩
def MEM_ERR_STICKY.BUF_LOW : Fld := ⟨0x1A0058, 0x4, 11, 11⟩
def MEM_ERR_STICKY.READONLY : Fld := ⟨0x1A0058, 0x4, 12, 12⟩
def CAS_CFG.POSITION : Fld := ⟨0x1C0000, 0x4, 7, 0⟩
def CAS_CFG.SIDE : Fld := ⟨0x1C0000, 0x4, 8, 8⟩
def CAS_CFG.NPOS : Fld := ⟨0x1C0000, 0x4, 14, 9⟩
def CAS_CFG.CHORD : Fld := ⟨0x1C0000, 0x4, 20, 15⟩
def CAS_CFG.CFL : Fld := ⟨0x1C0000, 0x4, 23, 21⟩
def CAS_STAT.ROLE : Fld := ⟨0x1C0004, 0x4, 1, 0⟩
def CAS_STAT.DEALER : Fld := ⟨0x1C0004, 0x4, 2, 2⟩
def CAS_STAT.STEP : Fld := ⟨0x1C0004, 0x4, 5, 3⟩
def CAS_STAT.PARTNER_UP : Fld := ⟨0x1C0004, 0x4, 6, 6⟩
def CAS_STAT.LINKS : Fld := ⟨0x1C0004, 0x4, 10, 7⟩
def CAS_STAT.DEALER_POS : Fld := ⟨0x1C0004, 0x4, 16, 11⟩
def CAS_STAT.RESYNCED : Fld := ⟨0x1C0004, 0x4, 17, 17⟩
def CAS_EPOCH.EPOCH : Fld := ⟨0x1C0008, 0x4, 31, 0⟩
def CAS_DEALER_EPOCH.EPOCH : Fld := ⟨0x1C000C, 0x4, 31, 0⟩
def CAS_TICK_ERR.NS : Fld := ⟨0x1C0010, 0x4, 31, 0⟩
def CAS_CTL.SWAP : Fld := ⟨0x1C0014, 0x4, 0, 0⟩
def CAS_CTL.RESET : Fld := ⟨0x1C0014, 0x4, 1, 1⟩
def CAS_CTL.LEVEL : Fld := ⟨0x1C0014, 0x4, 4, 2⟩
def CAS_CTL.RENUMBER : Fld := ⟨0x1C0014, 0x4, 5, 5⟩
def CAS_SWAP_TICK.TICK : Fld := ⟨0x1C0018, 0x4, 31, 0⟩
def CAS_PAIR_CNT.DIVERGE : Fld := ⟨0x1C0020, 0x4, 15, 0⟩
def CAS_PAIR_CNT.MISSING : Fld := ⟨0x1C0020, 0x4, 31, 16⟩
def CAS_LINK_CNT.LINKDROP : Fld := ⟨0x1C0024, 0x4, 15, 0⟩
def CAS_LINK_CNT.LEFTOVER : Fld := ⟨0x1C0024, 0x4, 31, 16⟩
def CAS_POS_STAT.STATE : Fld := ⟨0x1C0100, 0x4, 1, 0⟩
def CAS_POS_STAT.ACTIVE_B : Fld := ⟨0x1C0100, 0x4, 2, 2⟩
def CAS_POS_STAT.FAULT : Fld := ⟨0x1C0100, 0x4, 18, 3⟩
def CAS_DIR_KEY.KEY : Fld := ⟨0x1C0200, 0x4, 31, 0⟩
def CAS_DIR_CTL.QUERY : Fld := ⟨0x1C0208, 0x4, 0, 0⟩
def CAS_DIR_RES.SLOT : Fld := ⟨0x1C020C, 0x4, 19, 0⟩
def CAS_DIR_RES.POS : Fld := ⟨0x1C020C, 0x4, 25, 20⟩
def CAS_DIR_RES.RESULT : Fld := ⟨0x1C020C, 0x4, 27, 26⟩
def CAS_ERR_STICKY.ACCESS : Fld := ⟨0x1C0210, 0x4, 0, 0⟩
def CAS_ERR_STICKY.MISWIRE : Fld := ⟨0x1C0210, 0x4, 1, 1⟩
def CAS_ERR_STICKY.SYNC_LOST : Fld := ⟨0x1C0210, 0x4, 2, 2⟩
def CAS_ERR_STICKY.ALIGN : Fld := ⟨0x1C0210, 0x4, 3, 3⟩
def CAS_ERR_STICKY.TAKEOVER : Fld := ⟨0x1C0210, 0x4, 4, 4⟩
def CAS_ERR_STICKY.DUAL : Fld := ⟨0x1C0210, 0x4, 5, 5⟩
def CAS_ERR_STICKY.DIVERGE : Fld := ⟨0x1C0210, 0x4, 6, 6⟩
def CAS_ERR_STICKY.RESYNC_FAIL : Fld := ⟨0x1C0210, 0x4, 7, 7⟩
def CAS_ERR_STICKY.SWAP_REJ : Fld := ⟨0x1C0210, 0x4, 8, 8⟩
def CAS_ERR_STICKY.POS_DUP : Fld := ⟨0x1C0210, 0x4, 9, 9⟩
def CAS_ERR_STICKY.DIR_DUP : Fld := ⟨0x1C0210, 0x4, 10, 10⟩
def CAS_ERR_STICKY.MGMT_AUTH : Fld := ⟨0x1C0210, 0x4, 11, 11⟩
def CAS_ERR_STICKY.TICK_AHEAD : Fld := ⟨0x1C0210, 0x4, 12, 12⟩
def UPD_CTL.STAGE : Fld := ⟨0x1E0000, 0x4, 0, 0⟩
def UPD_CTL.DOWNGRADE : Fld := ⟨0x1E0000, 0x4, 1, 1⟩
def UPD_CTL.ARM : Fld := ⟨0x1E0000, 0x4, 2, 2⟩
def UPD_CTL.RESTART : Fld := ⟨0x1E0000, 0x4, 3, 3⟩
def UPD_CTL.CANCEL : Fld := ⟨0x1E0000, 0x4, 4, 4⟩
def UPD_CTL.HEALTHY : Fld := ⟨0x1E0000, 0x4, 5, 5⟩
def UPD_CTL.REVERT : Fld := ⟨0x1E0000, 0x4, 6, 6⟩
def UPD_STAT.STATE : Fld := ⟨0x1E0004, 0x4, 2, 0⟩
def UPD_STAT.SWAP_DONE : Fld := ⟨0x1E0004, 0x4, 3, 3⟩
def UPD_STAT.REJECT : Fld := ⟨0x1E0004, 0x4, 15, 8⟩
def UPD_STAT.LVER : Fld := ⟨0x1E0004, 0x4, 23, 16⟩
def UPD_STAT.SFMT : Fld := ⟨0x1E0004, 0x4, 31, 24⟩
def UPD_SRC_ADDR_LO.VALUE : Fld := ⟨0x1E0008, 0x4, 31, 0⟩
def UPD_SRC_ADDR_HI.VALUE : Fld := ⟨0x1E000C, 0x4, 31, 0⟩
def UPD_SRC_LEN.VALUE : Fld := ⟨0x1E0010, 0x4, 31, 0⟩
def UPD_APPLY_TICK.TICK : Fld := ⟨0x1E0014, 0x4, 31, 0⟩
def UPD_RUN_VER.VERSION : Fld := ⟨0x1E001C, 0x4, 31, 0⟩
def UPD_STAGED_VER.VERSION : Fld := ⟨0x1E0020, 0x4, 31, 0⟩
def UPD_CLEAN.TICKS : Fld := ⟨0x1E0024, 0x4, 23, 0⟩
def UPD_ERR_STICKY.ACCESS : Fld := ⟨0x1E0028, 0x4, 0, 0⟩
def UPD_ERR_STICKY.REJECTED : Fld := ⟨0x1E0028, 0x4, 1, 1⟩
def UPD_ERR_STICKY.FALLBACK : Fld := ⟨0x1E0028, 0x4, 2, 2⟩
def UPD_ERR_STICKY.CONV_FAIL : Fld := ⟨0x1E0028, 0x4, 3, 3⟩

end Reg

namespace Stk

def GLB.ACCESS : Sticky := ⟨Reg.GLB_ERR_STICKY.ACCESS, 0x0000, 3⟩
def GLB.STRAP_BAD : Sticky := ⟨Reg.GLB_ERR_STICKY.STRAP_BAD, 0x0001, 5⟩
def GLB.RSTN_STUCK : Sticky := ⟨Reg.GLB_ERR_STICKY.RSTN_STUCK, 0x0002, 4⟩
def GLB.BROWNOUT : Sticky := ⟨Reg.GLB_ERR_STICKY.BROWNOUT, 0x0003, 7⟩
def GLB.HOUSE_WDOG : Sticky := ⟨Reg.GLB_ERR_STICKY.HOUSE_WDOG, 0x0004, 6⟩
def CANVAS.ACCESS : Sticky := ⟨Reg.CANVAS_ERR_STICKY.ACCESS, 0x0100, 3⟩
def CANVAS.STORE_BAD : Sticky := ⟨Reg.CANVAS_ERR_STICKY.STORE_BAD, 0x0101, 4⟩
def CANVAS.FLOOR_SAT : Sticky := ⟨Reg.CANVAS_ERR_STICKY.FLOOR_SAT, 0x0102, 5⟩
def TIME.ACCESS : Sticky := ⟨Reg.TIME_ERR_STICKY.ACCESS, 0x0200, 3⟩
def TIME.MAND_OVR : Sticky := ⟨Reg.TIME_ERR_STICKY.MAND_OVR, 0x0201, 4⟩
def TIME.TICK_WDOG : Sticky := ⟨Reg.TIME_ERR_STICKY.TICK_WDOG, 0x0202, 6⟩
def TIME.CARRY_HIGH : Sticky := ⟨Reg.TIME_ERR_STICKY.CARRY_HIGH, 0x0203, 4⟩
def TIME.HOLDOVER_EXP : Sticky := ⟨Reg.TIME_ERR_STICKY.HOLDOVER_EXP, 0x0204, 4⟩
def TIME.PPS_LOST : Sticky := ⟨Reg.TIME_ERR_STICKY.PPS_LOST, 0x0205, 3⟩
def TIME.ADJ_REJ : Sticky := ⟨Reg.TIME_ERR_STICKY.ADJ_REJ, 0x0206, 3⟩
def TIME.EGR_OVR : Sticky := ⟨Reg.TIME_ERR_STICKY.EGR_OVR, 0x0207, 3⟩
def TIME.RTC_LOCK_WR : Sticky := ⟨Reg.TIME_ERR_STICKY.RTC_LOCK_WR, 0x0208, 2⟩
def EVT.ACCESS : Sticky := ⟨Reg.EVT_ERR_STICKY.ACCESS, 0x0300, 3⟩
def EVT.FB_OVERWRITE : Sticky := ⟨Reg.EVT_ERR_STICKY.FB_OVERWRITE, 0x0301, 3⟩
def EVT.LOG_REFUSED : Sticky := ⟨Reg.EVT_ERR_STICKY.LOG_REFUSED, 0x0302, 4⟩
def EVT.SEAL : Sticky := ⟨Reg.EVT_ERR_STICKY.SEAL, 0x0303, 4⟩
def EVT.LASTGASP : Sticky := ⟨Reg.EVT_ERR_STICKY.LASTGASP, 0x0304, 2⟩
def MBX.ACCESS : Sticky := ⟨Reg.MBX_ERR_STICKY.ACCESS, 0x0400, 3⟩
def MBX.LOCK_TMO : Sticky := ⟨Reg.MBX_ERR_STICKY.LOCK_TMO, 0x0401, 3⟩
def MBX.AGED : Sticky := ⟨Reg.MBX_ERR_STICKY.AGED, 0x0402, 2⟩
def MBX.RING_DENIED : Sticky := ⟨Reg.MBX_ERR_STICKY.RING_DENIED, 0x0403, 3⟩
def VAULT.ACCESS : Sticky := ⟨Reg.VAULT_ERR_STICKY.ACCESS, 0x0500, 3⟩
def VAULT.ROOT_BAD : Sticky := ⟨Reg.VAULT_ERR_STICKY.ROOT_BAD, 0x0501, 5⟩
def VAULT.TRNG_FAIL : Sticky := ⟨Reg.VAULT_ERR_STICKY.TRNG_FAIL, 0x0502, 5⟩
def VAULT.SLOT_BAD : Sticky := ⟨Reg.VAULT_ERR_STICKY.SLOT_BAD, 0x0503, 4⟩
def VAULT.COUNTER_BAD : Sticky := ⟨Reg.VAULT_ERR_STICKY.COUNTER_BAD, 0x0504, 5⟩
def VAULT.MSG_REJ : Sticky := ⟨Reg.VAULT_ERR_STICKY.MSG_REJ, 0x0505, 3⟩
def VAULT.ENROL_REJ : Sticky := ⟨Reg.VAULT_ERR_STICKY.ENROL_REJ, 0x0506, 3⟩
def VAULT.PEND_REDO : Sticky := ⟨Reg.VAULT_ERR_STICKY.PEND_REDO, 0x0507, 2⟩
def VAULT.ORPHANED : Sticky := ⟨Reg.VAULT_ERR_STICKY.ORPHANED, 0x0508, 1⟩
def VAULT.NV_FAIL : Sticky := ⟨Reg.VAULT_ERR_STICKY.NV_FAIL, 0x0509, 5⟩
def PWR.ACCESS : Sticky := ⟨Reg.PWR_ERR_STICKY.ACCESS, 0x0600, 3⟩
def PWR.VIN_OV : Sticky := ⟨Reg.PWR_ERR_STICKY.VIN_OV, 0x0601, 4⟩
def PWR.VIN_LOW : Sticky := ⟨Reg.PWR_ERR_STICKY.VIN_LOW, 0x0602, 3⟩
def PWR.THERM_WARN : Sticky := ⟨Reg.PWR_ERR_STICKY.THERM_WARN, 0x0603, 4⟩
def PWR.THERM_SHUTDOWN : Sticky := ⟨Reg.PWR_ERR_STICKY.THERM_SHUTDOWN, 0x0604, 7⟩
def FP.PTR_MISMATCH : Sticky := ⟨Reg.FP_ERR_STICKY.PTR_MISMATCH, 0x0800, 4⟩
def FP.ECC_UNC : Sticky := ⟨Reg.FP_ERR_STICKY.ECC_UNC, 0x0801, 4⟩
def FP.SHORT : Sticky := ⟨Reg.FP_ERR_STICKY.SHORT, 0x0802, 4⟩
def FP.OPEN : Sticky := ⟨Reg.FP_ERR_STICKY.OPEN, 0x0803, 3⟩
def FP.OVERSIZE : Sticky := ⟨Reg.FP_ERR_STICKY.OVERSIZE, 0x0804, 3⟩
def FP.FULL_DROP : Sticky := ⟨Reg.FP_ERR_STICKY.FULL_DROP, 0x0805, 3⟩
def FP.FLUSH_ABORT : Sticky := ⟨Reg.FP_ERR_STICKY.FLUSH_ABORT, 0x0806, 2⟩
def FP.IRQ_FAST : Sticky := ⟨Reg.FP_ERR_STICKY.IRQ_FAST, 0x0807, 2⟩
def FP.IRQ_STUCK : Sticky := ⟨Reg.FP_ERR_STICKY.IRQ_STUCK, 0x0808, 3⟩
def FP.REVERSED : Sticky := ⟨Reg.FP_ERR_STICKY.REVERSED, 0x0809, 2⟩
def FP_GLB.ACCESS : Sticky := ⟨Reg.FP_GLB_ERR_STICKY.ACCESS, 0x0900, 3⟩
def FP_GLB.PPS_FAST : Sticky := ⟨Reg.FP_GLB_ERR_STICKY.PPS_FAST, 0x0901, 2⟩
def FP_GLB.TAMPER0_FAST : Sticky := ⟨Reg.FP_GLB_ERR_STICKY.TAMPER0_FAST, 0x0902, 2⟩
def FP_GLB.TAMPER1_FAST : Sticky := ⟨Reg.FP_GLB_ERR_STICKY.TAMPER1_FAST, 0x0903, 2⟩
def FP_GLB.TAMPER2_FAST : Sticky := ⟨Reg.FP_GLB_ERR_STICKY.TAMPER2_FAST, 0x0904, 2⟩
def FP_GLB.TAMPER3_FAST : Sticky := ⟨Reg.FP_GLB_ERR_STICKY.TAMPER3_FAST, 0x0905, 2⟩
def PLC.LINK_CRC : Sticky := ⟨Reg.PLC_ERR_STICKY.LINK_CRC, 0x0A00, 3⟩
def PLC.LOCK_LOST : Sticky := ⟨Reg.PLC_ERR_STICKY.LOCK_LOST, 0x0A01, 3⟩
def PLC.FORCED_STEP : Sticky := ⟨Reg.PLC_ERR_STICKY.FORCED_STEP, 0x0A02, 2⟩
def PLC.RX_ABORT : Sticky := ⟨Reg.PLC_ERR_STICKY.RX_ABORT, 0x0A03, 2⟩
def PLC.QFULL : Sticky := ⟨Reg.PLC_ERR_STICKY.QFULL, 0x0A04, 3⟩
def PLC.ZC_BAD : Sticky := ⟨Reg.PLC_ERR_STICKY.ZC_BAD, 0x0A05, 3⟩
def RAIL.ACCESS : Sticky := ⟨Reg.RAIL_ERR_STICKY.ACCESS, 0x0B00, 3⟩
def RAIL.OPEN : Sticky := ⟨Reg.RAIL_ERR_STICKY.OPEN, 0x0B01, 4⟩
def RAIL.SEAL : Sticky := ⟨Reg.RAIL_ERR_STICKY.SEAL, 0x0B02, 3⟩
def RAIL.RETRY_EXH : Sticky := ⟨Reg.RAIL_ERR_STICKY.RETRY_EXH, 0x0B03, 3⟩
def RADIO.QFULL : Sticky := ⟨Reg.RADIO_ERR_STICKY.QFULL, 0x0C00, 3⟩
def RADIO.ACK_LATE : Sticky := ⟨Reg.RADIO_ERR_STICKY.ACK_LATE, 0x0C01, 3⟩
def RADIO.TABLE_FULL : Sticky := ⟨Reg.RADIO_ERR_STICKY.TABLE_FULL, 0x0C02, 4⟩
def RADIO.SECURED : Sticky := ⟨Reg.RADIO_ERR_STICKY.SECURED, 0x0C03, 2⟩
def RADIO.SPI_ERR : Sticky := ⟨Reg.RADIO_ERR_STICKY.SPI_ERR, 0x0C04, 3⟩
def RADIO_GLB.ACCESS : Sticky := ⟨Reg.RADIO_GLB_ERR_STICKY.ACCESS, 0x0D00, 3⟩
def RADIO_GLB.GRANT_BOTH : Sticky := ⟨Reg.RADIO_GLB_ERR_STICKY.GRANT_BOTH, 0x0D01, 4⟩
def RADIO_GLB.GRANT_YIELD : Sticky := ⟨Reg.RADIO_GLB_ERR_STICKY.GRANT_YIELD, 0x0D02, 2⟩
def ING.ACCESS : Sticky := ⟨Reg.ING_ERR_STICKY.ACCESS, 0x0E00, 3⟩
def ING.FRAME_SEAL : Sticky := ⟨Reg.ING_ERR_STICKY.FRAME_SEAL, 0x0E01, 4⟩
def ING.PT_SEAL : Sticky := ⟨Reg.ING_ERR_STICKY.PT_SEAL, 0x0E02, 4⟩
def ING.KEY_BAD : Sticky := ⟨Reg.ING_ERR_STICKY.KEY_BAD, 0x0E03, 4⟩
def ING.KEY_EXH : Sticky := ⟨Reg.ING_ERR_STICKY.KEY_EXH, 0x0E04, 4⟩
def ING.REASM_DROP : Sticky := ⟨Reg.ING_ERR_STICKY.REASM_DROP, 0x0E05, 2⟩
def ING.PARK_FULL : Sticky := ⟨Reg.ING_ERR_STICKY.PARK_FULL, 0x0E06, 4⟩
def ING.TOO_MANY : Sticky := ⟨Reg.ING_ERR_STICKY.TOO_MANY, 0x0E07, 3⟩
def ING.HOLD_ENTERED : Sticky := ⟨Reg.ING_ERR_STICKY.HOLD_ENTERED, 0x0E08, 2⟩
def ING.POOL_EMPTY : Sticky := ⟨Reg.ING_ERR_STICKY.POOL_EMPTY, 0x0E09, 1⟩
def LDG.ACCESS : Sticky := ⟨Reg.LDG_ERR_STICKY.ACCESS, 0x1000, 3⟩
def LDG.REC_SEAL : Sticky := ⟨Reg.LDG_ERR_STICKY.REC_SEAL, 0x1001, 4⟩
def LDG.BLK_SEAL : Sticky := ⟨Reg.LDG_ERR_STICKY.BLK_SEAL, 0x1002, 4⟩
def LDG.REPAIR_FAIL : Sticky := ⟨Reg.LDG_ERR_STICKY.REPAIR_FAIL, 0x1003, 5⟩
def LDG.TAMPER_OVF : Sticky := ⟨Reg.LDG_ERR_STICKY.TAMPER_OVF, 0x1004, 3⟩
def LDG.UNIT_ERR : Sticky := ⟨Reg.LDG_ERR_STICKY.UNIT_ERR, 0x1005, 3⟩
def VEE.ACCESS : Sticky := ⟨Reg.VEE_ERR_STICKY.ACCESS, 0x1200, 3⟩
def VEE.HIGH : Sticky := ⟨Reg.VEE_ERR_STICKY.HIGH, 0x1201, 2⟩
def VEE.REV : Sticky := ⟨Reg.VEE_ERR_STICKY.REV, 0x1202, 2⟩
def VEE.STUCK : Sticky := ⟨Reg.VEE_ERR_STICKY.STUCK, 0x1203, 2⟩
def VEE.TIME_REJ : Sticky := ⟨Reg.VEE_ERR_STICKY.TIME_REJ, 0x1204, 2⟩
def VEE.BRIDGE : Sticky := ⟨Reg.VEE_ERR_STICKY.BRIDGE, 0x1205, 3⟩
def BAL.ACCESS : Sticky := ⟨Reg.BAL_ERR_STICKY.ACCESS, 0x1400, 3⟩
def BAL.BACKLOG : Sticky := ⟨Reg.BAL_ERR_STICKY.BACKLOG, 0x1401, 3⟩
def BAL.XMISS : Sticky := ⟨Reg.BAL_ERR_STICKY.XMISS, 0x1402, 3⟩
def BAL.XLATE : Sticky := ⟨Reg.BAL_ERR_STICKY.XLATE, 0x1403, 2⟩
def BAL.PHASE_MISMATCH : Sticky := ⟨Reg.BAL_ERR_STICKY.PHASE_MISMATCH, 0x1404, 2⟩
def BAL.NODE_ALARM : Sticky := ⟨Reg.BAL_ERR_STICKY.NODE_ALARM, 0x1405, 4⟩
def BAL.SLOT_ALARM : Sticky := ⟨Reg.BAL_ERR_STICKY.SLOT_ALARM, 0x1406, 4⟩
def CAMP.ACCESS : Sticky := ⟨Reg.CAMP_ERR_STICKY.ACCESS, 0x1600, 3⟩
def CAMP.IMG_SEAL : Sticky := ⟨Reg.CAMP_ERR_STICKY.IMG_SEAL, 0x1601, 4⟩
def CAMP.TARGET_FAIL : Sticky := ⟨Reg.CAMP_ERR_STICKY.TARGET_FAIL, 0x1602, 3⟩
def CAMP.BKEY_BAD : Sticky := ⟨Reg.CAMP_ERR_STICKY.BKEY_BAD, 0x1603, 4⟩
def SEAT.ACCESS : Sticky := ⟨Reg.SEAT_ERR_STICKY.ACCESS, 0x1800, 3⟩
def SEAT.PF_FLR : Sticky := ⟨Reg.SEAT_ERR_STICKY.PF_FLR, 0x1801, 2⟩
def SEAT.VLAN_UNKNOWN : Sticky := ⟨Reg.SEAT_ERR_STICKY.VLAN_UNKNOWN, 0x1802, 3⟩
def SEAT.MACSEC_DROP : Sticky := ⟨Reg.SEAT_ERR_STICKY.MACSEC_DROP, 0x1803, 3⟩
def SEAT.DIR_FULL : Sticky := ⟨Reg.SEAT_ERR_STICKY.DIR_FULL, 0x1804, 4⟩
def MEM.ACCESS : Sticky := ⟨Reg.MEM_ERR_STICKY.ACCESS, 0x1A00, 3⟩
def MEM.SRAM_UNC : Sticky := ⟨Reg.MEM_ERR_STICKY.SRAM_UNC, 0x1A01, 4⟩
def MEM.PARTIAL_POISON : Sticky := ⟨Reg.MEM_ERR_STICKY.PARTIAL_POISON, 0x1A02, 4⟩
def MEM.COLLIDE : Sticky := ⟨Reg.MEM_ERR_STICKY.COLLIDE, 0x1A03, 3⟩
def MEM.OFF_ACCESS : Sticky := ⟨Reg.MEM_ERR_STICKY.OFF_ACCESS, 0x1A04, 3⟩
def MEM.BIST_FAIL : Sticky := ⟨Reg.MEM_ERR_STICKY.BIST_FAIL, 0x1A05, 5⟩
def MEM.SOFT_REPAIR : Sticky := ⟨Reg.MEM_ERR_STICKY.SOFT_REPAIR, 0x1A06, 2⟩
def MEM.DRAM_UNC : Sticky := ⟨Reg.MEM_ERR_STICKY.DRAM_UNC, 0x1A07, 4⟩
def MEM.FULL_SCAN : Sticky := ⟨Reg.MEM_ERR_STICKY.FULL_SCAN, 0x1A08, 2⟩
def MEM.GROWN_BAD : Sticky := ⟨Reg.MEM_ERR_STICKY.GROWN_BAD, 0x1A09, 3⟩
def MEM.SPARE_LOW : Sticky := ⟨Reg.MEM_ERR_STICKY.SPARE_LOW, 0x1A0A, 4⟩
def MEM.BUF_LOW : Sticky := ⟨Reg.MEM_ERR_STICKY.BUF_LOW, 0x1A0B, 3⟩
def MEM.READONLY : Sticky := ⟨Reg.MEM_ERR_STICKY.READONLY, 0x1A0C, 5⟩
def CAS.ACCESS : Sticky := ⟨Reg.CAS_ERR_STICKY.ACCESS, 0x1C00, 3⟩
def CAS.MISWIRE : Sticky := ⟨Reg.CAS_ERR_STICKY.MISWIRE, 0x1C01, 4⟩
def CAS.SYNC_LOST : Sticky := ⟨Reg.CAS_ERR_STICKY.SYNC_LOST, 0x1C02, 3⟩
def CAS.ALIGN : Sticky := ⟨Reg.CAS_ERR_STICKY.ALIGN, 0x1C03, 3⟩
def CAS.TAKEOVER : Sticky := ⟨Reg.CAS_ERR_STICKY.TAKEOVER, 0x1C04, 4⟩
def CAS.DUAL : Sticky := ⟨Reg.CAS_ERR_STICKY.DUAL, 0x1C05, 5⟩
def CAS.DIVERGE : Sticky := ⟨Reg.CAS_ERR_STICKY.DIVERGE, 0x1C06, 4⟩
def CAS.RESYNC_FAIL : Sticky := ⟨Reg.CAS_ERR_STICKY.RESYNC_FAIL, 0x1C07, 4⟩
def CAS.SWAP_REJ : Sticky := ⟨Reg.CAS_ERR_STICKY.SWAP_REJ, 0x1C08, 3⟩
def CAS.POS_DUP : Sticky := ⟨Reg.CAS_ERR_STICKY.POS_DUP, 0x1C09, 5⟩
def CAS.DIR_DUP : Sticky := ⟨Reg.CAS_ERR_STICKY.DIR_DUP, 0x1C0A, 4⟩
def CAS.MGMT_AUTH : Sticky := ⟨Reg.CAS_ERR_STICKY.MGMT_AUTH, 0x1C0B, 4⟩
def CAS.TICK_AHEAD : Sticky := ⟨Reg.CAS_ERR_STICKY.TICK_AHEAD, 0x1C0C, 5⟩
def UPD.ACCESS : Sticky := ⟨Reg.UPD_ERR_STICKY.ACCESS, 0x1E00, 3⟩
def UPD.REJECTED : Sticky := ⟨Reg.UPD_ERR_STICKY.REJECTED, 0x1E01, 4⟩
def UPD.FALLBACK : Sticky := ⟨Reg.UPD_ERR_STICKY.FALLBACK, 0x1E02, 4⟩
def UPD.CONV_FAIL : Sticky := ⟨Reg.UPD_ERR_STICKY.CONV_FAIL, 0x1E03, 4⟩
def CANVAS_STAT.ABANDONED : Sticky := ⟨Reg.CANVAS_STAT.ABANDONED, 0x0120, 4⟩
def CANVAS_STAT.REJECTED : Sticky := ⟨Reg.CANVAS_STAT.REJECTED, 0x0121, 4⟩
def MAND_OVR_ENG.ENG : Sticky := ⟨Reg.MAND_OVR_ENG.ENG, 0x0220, 4⟩
def TRIG_CTL.MISSED : Sticky := ⟨Reg.TRIG_CTL.MISSED, 0x0221, 3⟩
def UPL_STAT.PARTIAL : Sticky := ⟨Reg.UPL_STAT.PARTIAL, 0x0E20, 3⟩
def UPL_STAT.NOTAG : Sticky := ⟨Reg.UPL_STAT.NOTAG, 0x0E21, 3⟩
def UPL_STAT.RETX_LOST : Sticky := ⟨Reg.UPL_STAT.RETX_LOST, 0x0E23, 3⟩
def UPL_STAT.STAGING_FULL : Sticky := ⟨Reg.UPL_STAT.STAGING_FULL, 0x0E24, 4⟩
def LDG_FENCE_STAT.REJ : Sticky := ⟨Reg.LDG_FENCE_STAT.REJ, 0x1020, 3⟩
def LDG_FENCE_STAT.LOST : Sticky := ⟨Reg.LDG_FENCE_STAT.LOST, 0x1021, 3⟩
def LDG_SHADOW_MISM.MISM : Sticky := ⟨Reg.LDG_SHADOW_MISM.MISM, 0x1022, 5⟩
def LDG_SHADOW_MISM.SHADOW_SELF : Sticky := ⟨Reg.LDG_SHADOW_MISM.SHADOW_SELF, 0x1023, 5⟩
def LDG_ENG_FAULT.FAULT : Sticky := ⟨Reg.LDG_ENG_FAULT.FAULT, 0x1024, 5⟩
def LDG_RERATE_CTL.REJ : Sticky := ⟨Reg.LDG_RERATE_CTL.REJ, 0x1025, 3⟩
def BAL_SLOT_CTL.REJ : Sticky := ⟨Reg.BAL_SLOT_CTL.REJ, 0x1420, 3⟩
def CAMP_STAT.REJ : Sticky := ⟨Reg.CAMP_STAT.REJ, 0x1620, 3⟩
def SEAT_STAT.L4_SEEN : Sticky := ⟨Reg.SEAT_STAT.L4_SEEN, 0x1822, 2⟩
def SEAT_STAT.VIOL : Sticky := ⟨Reg.SEAT_STAT.VIOL, 0x1823, 3⟩
def SEAT_STAT.RING_FULL : Sticky := ⟨Reg.SEAT_STAT.RING_FULL, 0x1824, 3⟩
def SEAT_STAT.LVL_DENIED : Sticky := ⟨Reg.SEAT_STAT.LVL_DENIED, 0x1825, 3⟩

end Stk

/-- GLOBAL (R386). -/
def rowsGlobal : List RegRow := [
  ⟨0x0, 0x4, 1, .r, [fd 15 0 .ro 0x9240 0x9240, fd 23 16 .ro 0xB0 0xB0]⟩,
  ⟨0x4, 0x4, 1, .z, [fk 3 0 .ro 0x0, fk 5 4 .ro 0x0, fk 6 6 .ro 0x0, fk 7 7 .ro 0x0, fk 8 8 .ro 0x0, fk 9 9 .ro 0x0, fk 10 10 .ro 0x0, fk 25 16 .ro 0x0]⟩,
  ⟨0x8, 0x4, 1, .z, [fk 3 0 .ro 0x0, fk 6 4 .ro 0x0, fk 7 7 .ro 0x0, fk 8 8 .ro 0x0]⟩,
  ⟨0xC, 0x4, 1, .z, [fd 2 0 .wo 0x0 0x0, fd 31 16 .wo 0x0 0x0]⟩,
  ⟨0x10, 0x4, 1, .z, [fk 0 0 .ro 0x1, fk 1 1 .ro 0x0]⟩,
  ⟨0x14, 0x4, 1, .z, [fk 0 0 .rws 0x0, fk 1 1 .rws 0x0, fk 2 2 .rws 0x0, fk 3 3 .rws 0x0, fk 4 4 .rws 0x0]⟩,
  ⟨0x40, 0x4, 11, .z, [fk 2 0 .ro 0x0, fk 6 4 .ro 0x0]⟩]

/-- CANVAS (R54). -/
def rowsCanvas : List RegRow := [
  ⟨0x10000, 0x4, 1, .z, [fd 0 0 .wo 0x0 0x0, fd 1 1 .wo 0x0 0x0, fd 2 2 .wo 0x0 0x0, fd 3 3 .wo 0x0 0x0, fd 4 4 .wo 0x0 0x0, fd 5 5 .wo 0x0 0x0]⟩,
  ⟨0x10004, 0x4, 1, .r, [fd 3 0 .ro 0x0 0x0, fd 4 4 .ro 0x0 0x0, fd 5 5 .ro 0x0 0x0, fk 6 6 .rws 0x0, fk 7 7 .rws 0x0, fd 8 8 .ro 0x0 0x0, fk 31 16 .ro 0x0]⟩,
  ⟨0x10008, 0x4, 1, .r, [fk 7 0 .ro 0xFF, fk 31 8 .ro 0x0]⟩,
  ⟨0x1000C, 0x4, 1, .r, [fd 31 0 .ro 0x0 0x0]⟩,
  ⟨0x10010, 0x4, 8, .r, [fd 31 0 .ro 0x0 0x0]⟩,
  ⟨0x10030, 0x4, 2, .z, [fd 31 0 .rw 0x0 0x0]⟩,
  ⟨0x10038, 0x4, 1, .z, [fd 31 0 .rw 0x0 0x0]⟩,
  ⟨0x1003C, 0x4, 2, .z, [fd 31 0 .rw 0x0 0x0]⟩,
  ⟨0x10044, 0x4, 1, .z, [fk 0 0 .rws 0x0, fk 1 1 .rws 0x0, fk 2 2 .rws 0x0]⟩]

/-- TIME (R84). -/
def rowsTime1 : List RegRow := [
  ⟨0x20000, 0x4, 2, .r, [fk 31 0 .ro 0x0]⟩,
  ⟨0x20008, 0x4, 2, .r, [fk 31 0 .ro 0x0]⟩,
  ⟨0x20010, 0x4, 1, .r, [fk 31 0 .ro 0x0]⟩,
  ⟨0x20014, 0x4, 1, .r, [fk 29 0 .ro 0x0]⟩,
  ⟨0x20018, 0x4, 1, .r, [fk 31 0 .ro 0x0]⟩,
  ⟨0x2001C, 0x4, 1, .r, [fk 15 0 .ro 0x0]⟩,
  ⟨0x20020, 0x4, 2, .r, [fk 31 0 .ro 0x0]⟩,
  ⟨0x20028, 0x4, 1, .r, [fk 31 0 .rw 0x0]⟩,
  ⟨0x2002C, 0x4, 2, .r, [fk 31 0 .rw 0x0]⟩,
  ⟨0x20034, 0x4, 1, .r, [fd 0 0 .wo 0x0 0x0, fd 1 1 .wo 0x0 0x0, fd 2 2 .wo 0x0 0x0, fd 5 3 .wo 0x0 0x0, fd 25 16 .wo 0x0 0x0]⟩,
  ⟨0x20038, 0x4, 1, .r, [fk 0 0 .ro 0x0, fk 3 1 .ro 0x0, fd 4 4 .ro 0x0 0x0, fk 5 5 .ro 0x0, fk 6 6 .ro 0x1]⟩,
  ⟨0x2003C, 0x4, 1, .r, [fk 31 0 .ro 0x0]⟩,
  ⟨0x20040, 0x4, 1, .r, [fk 31 0 .ro 0x0]⟩,
  ⟨0x20044, 0x4, 2, .r, [fk 15 0 .rw 0x0, fk 31 16 .rw 0x0]⟩,
  ⟨0x2004C, 0x4, 2, .r, [fd 31 0 .ro 0x0 0x0]⟩,
  ⟨0x20054, 0x4, 2, .r, [fd 15 0 .ro 0x0 0x0, fd 16 16 .rc 0x0 0x0]⟩,
  ⟨0x2005C, 0x4, 1, .r, [fk 15 0 .rw 0x25, fk 16 16 .rw 0x0, fk 17 17 .rw 0x0]⟩,
  ⟨0x20080, 0x8, 8, .r, [fd 0 0 .rw 0x0 0x0, fd 1 1 .rw 0x0 0x0, fd 7 2 .rw 0x0 0x0, fk 8 8 .rws 0x0, fd 31 16 .rw 0x0 0x0]⟩,
  ⟨0x20084, 0x8, 8, .r, [fd 31 0 .rw 0x0 0x0]⟩,
  ⟨0x200C0, 0x4, 1, .r, [fd 0 0 .wo 0x0 0x0, fd 1 1 .wo 0x0 0x0]⟩,
  ⟨0x200C4, 0x4, 1, .r, [fk 14 0 .ro 0x0]⟩,
  ⟨0x200C8, 0x4, 1, .r, [fk 31 0 .ro 0x0]⟩,
  ⟨0x200CC, 0x4, 1, .r, [fk 15 0 .ro 0x0]⟩,
  ⟨0x200D0, 0x4, 1, .r, [fk 0 0 .ro 0x0, fd 1 1 .ro 0x0 0x0, fk 2 2 .ro 0x0, fk 31 16 .ro 0x0]⟩]

/-- TIME (R84). -/
def rowsTime2 : List RegRow := [
  ⟨0x200D4, 0x4, 1, .r, [fk 31 0 .ro 0x0]⟩,
  ⟨0x20100, 0x4, 16, .r, [fk 15 0 .rw 0x0]⟩,
  ⟨0x20140, 0x4, 17, .r, [fd 15 0 .ro 0x0 0x0, fd 31 16 .ro 0x0 0x0]⟩,
  ⟨0x20184, 0x4, 1, .r, [fk 24 0 .ro 0x0]⟩,
  ⟨0x20188, 0x4, 1, .r, [fk 24 0 .rc 0x0]⟩,
  ⟨0x2018C, 0x4, 1, .r, [fk 15 0 .rws 0x0]⟩,
  ⟨0x20190, 0x4, 1, .r, [fk 0 0 .rws 0x0, fk 1 1 .rws 0x0, fk 2 2 .rws 0x0, fk 3 3 .rws 0x0, fk 4 4 .rws 0x0, fk 5 5 .rws 0x0, fk 6 6 .rws 0x0, fk 7 7 .rws 0x0, fk 8 8 .rws 0x0]⟩]

/-- EVENTS (R400). -/
def rowsEvents : List RegRow := [
  ⟨0x30000, 0x4, 1, .o, [fd 7 0 .rw 0x0 0x0]⟩,
  ⟨0x30004, 0x4, 1, .o, [fd 31 0 .rw 0x0 0x0]⟩,
  ⟨0x30008, 0x4, 1, .o, [fd 0 0 .wo 0x0 0x0, fd 1 1 .wo 0x0 0x0]⟩,
  ⟨0x3000C, 0x4, 1, .o, [fd 0 0 .ro 0x0 0x0, fd 1 1 .ro 0x0 0x0, fd 2 2 .ro 0x0 0x0, fk 3 3 .ro 0x0, fd 28 16 .ro 0x0 0x0]⟩,
  ⟨0x30010, 0x4, 1, .o, [fk 31 0 .ro 0x0]⟩,
  ⟨0x30014, 0x4, 1, .o, [fk 2 0 .rw 0x4, fk 3 3 .rw 0x0]⟩,
  ⟨0x30018, 0x4, 1, .z, [fk 15 0 .rw 0xF000, fk 18 16 .rw 0x0]⟩,
  ⟨0x3001C, 0x4, 1, .z, [fk 15 0 .rc 0x0, fk 31 16 .rc 0x0]⟩,
  ⟨0x30020, 0x4, 1, .z, [fk 0 0 .rws 0x0, fk 1 1 .rws 0x0, fk 2 2 .rws 0x0, fk 3 3 .rws 0x0, fk 4 4 .rws 0x0]⟩,
  ⟨0x30040, 0x4, 16, .o, [fd 31 0 .ro 0x0 0x0]⟩]

/-- MAILBOX (R301). -/
def rowsMailbox : List RegRow := [
  ⟨0x40000, 0x40, 64, .m, [fd 4 0 .wo 0x0 0x0, fd 5 5 .wo 0x0 0x0]⟩,
  ⟨0x40004, 0x40, 64, .m, [fd 31 0 .w1c 0x0 0x0]⟩,
  ⟨0x40008, 0x40, 64, .m, [fd 31 0 .rw 0xFFFFFFFF 0xFFFFFFFF]⟩,
  ⟨0x4000C, 0x40, 64, .m, [fd 6 0 .ro 0x0 0x0]⟩,
  ⟨0x40010, 0x40, 64, .m, [fd 0 0 .wo 0x0 0x0]⟩,
  ⟨0x40014, 0x40, 64, .m, [fd 31 0 .rw 0x0 0x0]⟩,
  ⟨0x40018, 0x40, 64, .m, [fd 31 0 .rw 0x0 0x0]⟩,
  ⟨0x4001C, 0x40, 64, .m, [fd 7 0 .ro 0x0 0x0]⟩,
  ⟨0x40020, 0x40, 64, .m, [fd 15 0 .rc 0x0 0x0, fd 31 16 .rc 0x0 0x0]⟩,
  ⟨0x41000, 0x4, 1, .z, [fk 0 0 .rws 0x0, fk 1 1 .rws 0x0, fk 2 2 .rws 0x0, fk 3 3 .rws 0x0]⟩]

/-- VAULT (R282). -/
def rowsVault : List RegRow := [
  ⟨0x50000, 0x4, 1, .o, [fd 0 0 .wo 0x0 0x0, fd 1 1 .wo 0x0 0x0, fd 2 2 .wo 0x0 0x0, fd 3 3 .wo 0x0 0x0, fd 4 4 .wo 0x0 0x0, fd 31 16 .wo 0x0 0x0]⟩,
  ⟨0x50004, 0x4, 1, .r, [fk 2 0 .ro 0x0, fk 3 3 .ro 0x0, fk 4 4 .ro 0x0, fk 5 5 .ro 0x0, fk 27 16 .ro 0x0]⟩,
  ⟨0x50008, 0x4, 1, .o, [fk 31 0 .rw 0x0]⟩,
  ⟨0x5000C, 0x4, 1, .o, [fk 31 0 .rw 0x0]⟩,
  ⟨0x50010, 0x4, 1, .o, [fk 31 0 .rw 0x0]⟩,
  ⟨0x50014, 0x4, 1, .o, [fk 7 0 .ro 0x0, fk 11 8 .ro 0x0, fk 27 16 .ro 0x0]⟩,
  ⟨0x50018, 0x4, 1, .o, [fk 11 0 .rw 0x0]⟩,
  ⟨0x5001C, 0x4, 1, .o, [fk 15 0 .ro 0x0, fk 27 16 .ro 0x0, fk 28 28 .ro 0x0, fk 29 29 .ro 0x0]⟩,
  ⟨0x50020, 0x4, 4, .r, [fk 31 0 .ro 0x0]⟩,
  ⟨0x50030, 0x4, 1, .o, [fk 6 0 .rw 0x0]⟩,
  ⟨0x50034, 0x4, 1, .o, [fk 31 0 .ro 0x0]⟩,
  ⟨0x50038, 0x4, 1, .o, [fk 31 0 .ro 0x0]⟩,
  ⟨0x5003C, 0x4, 1, .z, [fk 0 0 .rws 0x0, fk 1 1 .rws 0x0, fk 2 2 .rws 0x0, fk 3 3 .rws 0x0, fk 4 4 .rws 0x0, fk 5 5 .rws 0x0, fk 6 6 .rws 0x0, fk 7 7 .rws 0x0, fk 8 8 .rws 0x0, fk 9 9 .rws 0x0]⟩,
  ⟨0x50040, 0x4, 8, .z, [fk 31 0 .rw 0x0]⟩,
  ⟨0x50060, 0x4, 8, .z, [fk 31 0 .rw 0x0]⟩,
  ⟨0x50080, 0x4, 8, .z, [fk 31 0 .ro 0x0]⟩,
  ⟨0x500A0, 0x4, 8, .z, [fk 31 0 .ro 0x0]⟩,
  ⟨0x500C0, 0x4, 1, .o, [fk 11 0 .rw 0x0]⟩,
  ⟨0x500E0, 0x4, 8, .o, [fk 31 0 .rw 0x0]⟩,
  ⟨0x50100, 0x4, 8, .o, [fk 31 0 .ro 0x0]⟩]

/-- POWER (R387). -/
def rowsPower : List RegRow := [
  ⟨0x60000, 0x4, 1, .r, [fk 15 0 .ro 0x0, fk 31 16 .ro 0x0]⟩,
  ⟨0x60004, 0x4, 1, .r, [fk 15 0 .ro 0x0, fd 31 16 .rc 0x0 0x0]⟩,
  ⟨0x60008, 0x4, 1, .r, [fd 0 0 .ro 0x0 0x0, fd 1 1 .ro 0x0 0x0]⟩,
  ⟨0x60010, 0x4, 1, .r, [fk 15 0 .ro 0x0, fd 16 16 .ro 0x0 0x0, fd 17 17 .ro 0x0 0x0, fd 19 18 .ro 0x0 0x0]⟩,
  ⟨0x60014, 0x4, 1, .r, [fk 15 0 .rc 0x0]⟩,
  ⟨0x60018, 0x4, 1, .r, [fk 0 0 .rws 0x0, fk 1 1 .rws 0x0, fk 2 2 .rws 0x0, fk 3 3 .rws 0x0, fk 4 4 .rws 0x0]⟩,
  ⟨0x60040, 0x4, 10, .r, [fk 15 0 .ro 0x0]⟩]

/-- FIELD PORTS (R105, R106). -/
def rowsFieldPorts : List RegRow := [
  ⟨0x80000, 0x100, 256, .p, [fd 2 0 .ro 0x0 0x0, fd 3 3 .ro 0x0 0x0, fd 5 4 .ro 0x0 0x0, fd 6 6 .ro 0x0 0x0, fd 21 8 .ro 0x0 0x0]⟩,
  ⟨0x80004, 0x100, 256, .z, [fd 0 0 .wo 0x0 0x0, fd 1 1 .wo 0x0 0x0]⟩,
  ⟨0x80008, 0x100, 256, .p, [fd 1 0 .ro 0x0 0x0, fd 2 2 .ro 0x0 0x0, fd 3 3 .ro 0x0 0x0, fd 4 4 .ro 0x0 0x0, fd 5 5 .ro 0x0 0x0, fd 6 6 .ro 0x0 0x0]⟩,
  ⟨0x8000C, 0x100, 256, .p, [fd 31 0 .ro 0x0 0x0]⟩,
  ⟨0x80010, 0x100, 256, .p, [fd 15 0 .rc 0x0 0x0, fd 31 16 .rc 0x0 0x0]⟩,
  ⟨0x80014, 0x100, 256, .p, [fd 15 0 .rc 0x0 0x0, fd 31 16 .rc 0x0 0x0]⟩,
  ⟨0x80018, 0x100, 256, .p, [fd 15 0 .rc 0x0 0x0, fd 31 16 .rc 0x0 0x0]⟩,
  ⟨0x8001C, 0x100, 256, .p, [fd 31 0 .rc 0x0 0x0]⟩,
  ⟨0x80020, 0x100, 256, .z, [fk 0 0 .rws 0x0, fk 1 1 .rws 0x0, fk 2 2 .rws 0x0, fk 3 3 .rws 0x0, fk 4 4 .rws 0x0, fk 5 5 .rws 0x0, fk 6 6 .rws 0x0, fk 7 7 .rws 0x0, fk 8 8 .rws 0x0, fk 9 9 .rws 0x0]⟩,
  ⟨0x90000, 0x4, 16, .z, [fd 6 0 .ro 0x0 0x0]⟩,
  ⟨0x90040, 0x4, 4, .z, [fd 6 0 .ro 0x0 0x0]⟩,
  ⟨0x90050, 0x4, 1, .z, [fd 15 0 .ro 0x800 0x800]⟩,
  ⟨0x90054, 0x4, 1, .z, [fd 15 0 .rw 0x0 0x0]⟩,
  ⟨0x90060, 0x4, 5, .z, [fd 31 0 .rc 0x0 0x0]⟩,
  ⟨0x90074, 0x4, 1, .z, [fk 3 0 .ro 0x0]⟩,
  ⟨0x90078, 0x4, 1, .z, [fk 0 0 .rws 0x0, fk 1 1 .rws 0x0, fk 2 2 .rws 0x0, fk 3 3 .rws 0x0, fk 4 4 .rws 0x0, fk 5 5 .rws 0x0]⟩]

/-- PLC (R125, R126). -/
def rowsPlc : List RegRow := [
  ⟨0xA0000, 0x80, 256, .p, [fd 0 0 .ro 0x0 0x0, fd 3 1 .ro 0x0 0x0, fd 8 4 .ro 0x0 0x0, fd 11 9 .ro 0x0 0x0, fd 19 12 .ro 0x0 0x0]⟩,
  ⟨0xA0004, 0x80, 256, .p, [fd 3 0 .ro 0x0 0x0, fd 4 4 .ro 0x0 0x0, fd 5 5 .ro 0x0 0x0, fd 6 6 .ro 0x0 0x0, fd 7 7 .ro 0x0 0x0]⟩,
  ⟨0xA0008, 0x80, 256, .z, [fd 4 0 .rw 0x0 0x0, fd 9 5 .rw 0x0 0x0]⟩,
  ⟨0xA000C, 0x80, 256, .p, [fd 31 0 .ro 0x0 0x0]⟩,
  ⟨0xA0010, 0x80, 256, .p, [fd 15 0 .rc 0x0 0x0, fd 31 16 .rc 0x0 0x0]⟩,
  ⟨0xA0014, 0x80, 256, .p, [fd 31 0 .rc 0x0 0x0]⟩,
  ⟨0xA0018, 0x80, 256, .p, [fd 15 0 .rc 0x0 0x0, fd 31 16 .rc 0x0 0x0]⟩,
  ⟨0xA001C, 0x80, 256, .p, [fd 15 0 .rc 0x0 0x0, fd 31 16 .rc 0x0 0x0]⟩,
  ⟨0xA0020, 0x80, 256, .p, [fd 15 0 .rc 0x0 0x0, fd 31 16 .rc 0x0 0x0]⟩,
  ⟨0xA0024, 0x80, 256, .z, [fk 0 0 .rws 0x0, fk 1 1 .rws 0x0, fk 2 2 .rws 0x0, fk 3 3 .rws 0x0, fk 4 4 .rws 0x0, fk 5 5 .rws 0x0]⟩,
  ⟨0xB0000, 0x4, 1, .z, [fk 2 0 .rw 0x3, fk 7 3 .rw 0x6, fk 8 8 .ro 0x0]⟩,
  ⟨0xB0004, 0x4, 1, .z, [fd 0 0 .ro 0x0 0x0, fd 1 1 .ro 0x0 0x0, fd 2 2 .ro 0x0 0x0, fd 31 16 .ro 0x0 0x0]⟩,
  ⟨0xB0008, 0x4, 1, .z, [fd 15 0 .rc 0x0 0x0, fd 31 16 .rc 0x0 0x0]⟩,
  ⟨0xB000C, 0x4, 1, .z, [fd 15 0 .rc 0x0 0x0, fd 31 16 .rc 0x0 0x0]⟩,
  ⟨0xB0010, 0x4, 1, .z, [fk 0 0 .rws 0x0, fk 1 1 .rws 0x0, fk 2 2 .rws 0x0, fk 3 3 .rws 0x0]⟩]

/-- RADIO (R146, R147). -/
def rowsRadio : List RegRow := [
  ⟨0xC0000, 0x80, 256, .p, [fd 1 0 .ro 0x0 0x0, fd 5 2 .ro 0x0 0x0, fd 9 6 .ro 0x0 0x0, fd 10 10 .ro 0x0 0x0, fd 13 11 .ro 0x0 0x0, fd 21 14 .ro 0x0 0x0, fd 25 22 .ro 0x0 0x0]⟩,
  ⟨0xC0004, 0x80, 256, .p, [fd 14 0 .ro 0x0 0x0, fd 15 15 .ro 0x0 0x0, fd 16 16 .ro 0x0 0x0]⟩,
  ⟨0xC0008, 0x80, 256, .p, [fd 15 0 .ro 0x0 0x0, fd 31 16 .ro 0x0 0x0]⟩,
  ⟨0xC000C, 0x80, 256, .p, [fd 31 0 .ro 0x0 0x0]⟩,
  ⟨0xC0010, 0x80, 256, .p, [fd 15 0 .rc 0x0 0x0, fd 31 16 .rc 0x0 0x0]⟩,
  ⟨0xC0014, 0x80, 256, .p, [fd 15 0 .rc 0x0 0x0, fd 31 16 .rc 0x0 0x0]⟩,
  ⟨0xC0018, 0x80, 256, .p, [fd 15 0 .rc 0x0 0x0, fd 31 16 .rc 0x0 0x0]⟩,
  ⟨0xC001C, 0x80, 256, .p, [fd 15 0 .rc 0x0 0x0, fd 31 16 .rc 0x0 0x0]⟩,
  ⟨0xC0020, 0x80, 256, .z, [fk 0 0 .rws 0x0, fk 1 1 .rws 0x0, fk 2 2 .rws 0x0, fk 3 3 .rws 0x0, fk 4 4 .rws 0x0]⟩,
  ⟨0xD0000, 0x4, 1, .z, [fd 0 0 .ro 0x0 0x0, fd 1 1 .ro 0x0 0x0]⟩,
  ⟨0xD0004, 0x4, 1, .z, [fk 0 0 .rws 0x0, fk 1 1 .rws 0x0, fk 2 2 .rws 0x0]⟩]

/-- INGEST (R174). -/
def rowsIngest : List RegRow := [
  ⟨0xE0000, 0x4, 1, .z, [fd 15 0 .ro 0x8000 0x8000, fd 31 16 .rc 0x8000 0x8000]⟩,
  ⟨0xE0004, 0x4, 1, .z, [fd 15 0 .ro 0x0 0x0]⟩,
  ⟨0xE0008, 0x4, 1, .z, [fk 15 0 .rw 0x1000, fk 31 16 .rw 0x2000]⟩,
  ⟨0xE000C, 0x4, 1, .z, [fd 0 0 .ro 0x0 0x0, fd 10 4 .ro 0x0 0x0, fd 26 16 .ro 0x0 0x0]⟩,
  ⟨0xE0010, 0x4, 1, .z, [fd 31 0 .ro 0x0 0x0]⟩,
  ⟨0xE0014, 0x4, 1, .z, [fd 31 0 .ro 0x0 0x0]⟩,
  ⟨0xE0018, 0x4, 1, .z, [fk 0 0 .rws 0x0, fk 1 1 .rws 0x0, fk 2 2 .rws 0x0, fk 3 3 .rws 0x0, fk 4 4 .rws 0x0, fk 5 5 .rws 0x0, fk 6 6 .rws 0x0, fk 7 7 .rws 0x0, fk 8 8 .rws 0x0, fk 9 9 .rws 0x0]⟩,
  ⟨0xE1000, 0x20, 64, .i, [fd 31 0 .ro 0x0 0x0]⟩,
  ⟨0xE1004, 0x20, 64, .i, [fd 31 0 .ro 0x0 0x0]⟩,
  ⟨0xE1008, 0x20, 64, .i, [fd 15 0 .rc 0x0 0x0, fd 31 16 .rc 0x0 0x0]⟩,
  ⟨0xE100C, 0x20, 64, .i, [fd 15 0 .rc 0x0 0x0, fd 31 16 .rc 0x0 0x0]⟩,
  ⟨0xE1010, 0x20, 64, .i, [fd 15 0 .rc 0x0 0x0, fd 31 16 .rc 0x0 0x0]⟩,
  ⟨0xE1014, 0x20, 64, .i, [fd 15 0 .rc 0x0 0x0, fd 31 16 .rc 0x0 0x0]⟩,
  ⟨0xE2000, 0x4, 1, .o, [fd 15 0 .wo 0x0 0x0, fd 17 16 .wo 0x0 0x0]⟩,
  ⟨0xE2004, 0x4, 1, .o, [fd 15 0 .wo 0x0 0x0, fd 17 16 .wo 0x0 0x0]⟩,
  ⟨0xE2008, 0x4, 1, .o, [fk 0 0 .rws 0x0, fk 1 1 .rws 0x0, fd 2 2 .ro 0x0 0x0, fk 3 3 .rws 0x0, fk 4 4 .rws 0x0]⟩,
  ⟨0xE200C, 0x4, 1, .o, [fd 31 0 .rc 0x0 0x0]⟩]

/-- LEDGER (R213, R30). -/
def rowsLedger : List RegRow := [
  ⟨0x100000, 0x4, 1, .o, [fd 20 0 .ro 0x0 0x0, fd 31 24 .ro 0x0 0x0]⟩,
  ⟨0x100004, 0x4, 1, .o, [fd 15 0 .ro 0x0 0x0]⟩,
  ⟨0x100008, 0x4, 1, .z, [fk 0 0 .rw 0x1, fd 7 4 .ro 0x0 0x0, fd 31 16 .ro 0x0 0x0]⟩,
  ⟨0x10000C, 0x4, 1, .z, [fk 15 0 .rws 0x0, fk 16 16 .rws 0x0]⟩,
  ⟨0x100010, 0x4, 1, .z, [fk 15 0 .rws 0x0]⟩,
  ⟨0x100020, 0x4, 1, .o, [fd 19 0 .rw 0x0 0x0]⟩,
  ⟨0x100024, 0x4, 1, .o, [fd 19 0 .rw 0x0 0x0]⟩,
  ⟨0x100028, 0x4, 1, .o, [fd 0 0 .wo 0x0 0x0, fd 1 1 .ro 0x0 0x0, fk 2 2 .rws 0x0]⟩,
  ⟨0x100030, 0x4, 1, .o, [fd 19 0 .rw 0x0 0x0]⟩,
  ⟨0x100034, 0x4, 1, .o, [fk 2 0 .ro 0x0, fk 26 16 .ro 0x0]⟩,
  ⟨0x100038, 0x4, 1, .z, [fd 0 0 .wo 0x0 0x0]⟩,
  ⟨0x100040, 0x4, 1, .o, [fd 15 0 .wo 0x0 0x0, fd 16 16 .wo 0x0 0x0, fd 17 17 .wo 0x0 0x0, fd 22 18 .wo 0x0 0x0]⟩,
  ⟨0x100044, 0x4, 1, .o, [fd 15 0 .ro 0x0 0x0, fd 18 16 .ro 0x0 0x0, fk 20 20 .rws 0x0, fk 21 21 .rws 0x0]⟩,
  ⟨0x100048, 0x4, 1, .z, [fk 0 0 .rws 0x0, fk 1 1 .rws 0x0, fk 2 2 .rws 0x0, fk 3 3 .rws 0x0, fk 4 4 .rws 0x0, fk 5 5 .rws 0x0]⟩,
  ⟨0x101000, 0x20, 64, .i, [fd 31 0 .ro 0x0 0x0]⟩,
  ⟨0x101004, 0x20, 64, .i, [fd 15 0 .rc 0x0 0x0, fd 31 16 .rc 0x0 0x0]⟩,
  ⟨0x101008, 0x20, 64, .i, [fd 15 0 .rc 0x0 0x0, fd 31 16 .rc 0x0 0x0]⟩,
  ⟨0x10100C, 0x20, 64, .i, [fd 15 0 .rc 0x0 0x0, fd 31 16 .rc 0x0 0x0]⟩,
  ⟨0x101010, 0x20, 64, .i, [fd 15 0 .rc 0x0 0x0, fd 31 16 .rc 0x0 0x0]⟩]

/-- VEE (R225). -/
def rowsVee : List RegRow := [
  ⟨0x120000, 0x4, 1, .z, [fd 5 0 .rw 0x0 0x0]⟩,
  ⟨0x120004, 0x4, 1, .o, [fd 3 0 .ro 0x0 0x0, fd 4 4 .ro 0x1 0x1]⟩,
  ⟨0x120008, 0x4, 1, .z, [fk 0 0 .rws 0x0, fk 1 1 .rws 0x0, fk 2 2 .rws 0x0, fk 3 3 .rws 0x0, fk 4 4 .rws 0x0, fk 5 5 .rws 0x0]⟩,
  ⟨0x120010, 0x4, 16, .o, [fd 31 0 .ro 0x0 0x0]⟩,
  ⟨0x121000, 0x20, 64, .i, [fd 15 0 .rc 0x0 0x0, fd 31 16 .rc 0x0 0x0]⟩,
  ⟨0x121004, 0x20, 64, .i, [fd 15 0 .rc 0x0 0x0, fd 31 16 .rc 0x0 0x0]⟩,
  ⟨0x121008, 0x20, 64, .i, [fd 15 0 .rc 0x0 0x0, fd 31 16 .rc 0x0 0x0]⟩,
  ⟨0x12100C, 0x20, 64, .i, [fd 15 0 .rc 0x0 0x0, fd 31 16 .rc 0x0 0x0]⟩,
  ⟨0x121010, 0x20, 64, .i, [fd 15 0 .rc 0x0 0x0, fd 31 16 .rc 0x0 0x0]⟩,
  ⟨0x121014, 0x20, 64, .i, [fd 15 0 .rc 0x0 0x0]⟩]

/-- BALANCE (R246). -/
def rowsBalance : List RegRow := [
  ⟨0x140000, 0x4, 1, .z, [fd 17 0 .ro 0x0 0x0, fd 31 31 .ro 0x0 0x0]⟩,
  ⟨0x140004, 0x4, 1, .z, [fd 15 0 .ro 0x0 0x0]⟩,
  ⟨0x140008, 0x4, 1, .z, [fk 31 0 .ro 0x0]⟩,
  ⟨0x140010, 0x4, 1, .o, [fd 16 0 .rw 0x0 0x0]⟩,
  ⟨0x140014, 0x4, 1, .o, [fk 15 0 .ro 0x0, fk 23 16 .ro 0x0, fk 31 24 .ro 0x0]⟩,
  ⟨0x140018, 0x4, 1, .o, [fk 0 0 .ro 0x0, fk 4 1 .ro 0x0]⟩,
  ⟨0x140020, 0x4, 1, .o, [fd 19 0 .rw 0x0 0x0]⟩,
  ⟨0x140024, 0x4, 1, .o, [fk 7 0 .ro 0x0, fk 15 8 .ro 0x0, fk 16 16 .ro 0x0]⟩,
  ⟨0x140028, 0x4, 1, .o, [fd 0 0 .wo 0x0 0x0, fd 1 1 .wo 0x0 0x0, fk 2 2 .rws 0x0]⟩,
  ⟨0x14002C, 0x4, 1, .z, [fk 0 0 .rws 0x0, fk 1 1 .rws 0x0, fk 2 2 .rws 0x0, fk 3 3 .rws 0x0, fk 4 4 .rws 0x0, fk 5 5 .rws 0x0, fk 6 6 .rws 0x0]⟩,
  ⟨0x141000, 0x20, 64, .i, [fd 31 0 .ro 0x0 0x0]⟩,
  ⟨0x141004, 0x20, 64, .i, [fd 15 0 .rc 0x0 0x0, fd 31 16 .rc 0x0 0x0]⟩,
  ⟨0x141008, 0x20, 64, .i, [fd 15 0 .rc 0x0 0x0, fd 31 16 .rc 0x0 0x0]⟩,
  ⟨0x14100C, 0x20, 64, .i, [fd 15 0 .rc 0x0 0x0, fd 31 16 .rc 0x0 0x0]⟩,
  ⟨0x141010, 0x20, 64, .i, [fd 31 0 .ro 0x0 0x0]⟩,
  ⟨0x141014, 0x20, 64, .i, [fd 15 0 .rc 0x0 0x0, fd 31 16 .rc 0x0 0x0]⟩]

/-- CAMPAIGN (R259). -/
def rowsCampaign : List RegRow := [
  ⟨0x160000, 0x4, 1, .o, [fd 3 0 .rw 0x0 0x0]⟩,
  ⟨0x160004, 0x4, 1, .o, [fd 31 0 .rw 0x0 0x0]⟩,
  ⟨0x160008, 0x4, 1, .o, [fd 31 0 .rw 0x0 0x0]⟩,
  ⟨0x16000C, 0x4, 1, .o, [fd 31 0 .rw 0x0 0x0]⟩,
  ⟨0x160010, 0x4, 1, .o, [fd 0 0 .wo 0x0 0x0, fd 1 1 .wo 0x0 0x0, fd 2 2 .wo 0x0 0x0, fd 3 3 .wo 0x0 0x0, fd 4 4 .wo 0x0 0x0, fd 5 5 .wo 0x0 0x0]⟩,
  ⟨0x160014, 0x4, 1, .o, [fk 3 0 .ro 0x0, fk 5 4 .ro 0x0, fk 9 6 .ro 0x0, fk 14 12 .ro 0x0, fk 15 15 .rws 0x0, fk 21 16 .ro 0x0]⟩,
  ⟨0x160018, 0x4, 1, .o, [fk 15 0 .ro 0x0, fk 31 16 .ro 0x0]⟩,
  ⟨0x16001C, 0x4, 1, .o, [fk 20 0 .ro 0x0]⟩,
  ⟨0x160020, 0x4, 1, .o, [fk 20 0 .ro 0x0]⟩,
  ⟨0x160024, 0x4, 1, .o, [fk 20 0 .ro 0x0]⟩,
  ⟨0x160028, 0x4, 1, .o, [fk 31 0 .ro 0x0]⟩,
  ⟨0x16002C, 0x4, 1, .o, [fd 15 0 .rc 0x0 0x0, fd 31 16 .rc 0x0 0x0]⟩,
  ⟨0x160030, 0x4, 1, .o, [fd 15 0 .rc 0x0 0x0]⟩,
  ⟨0x160034, 0x4, 1, .z, [fk 0 0 .rws 0x0, fk 1 1 .rws 0x0, fk 2 2 .rws 0x0, fk 3 3 .rws 0x0]⟩]

/-- SEATS (R302, R303). -/
def rowsSeats : List RegRow := [
  ⟨0x180000, 0x40, 64, .s, [fd 2 0 .ro 0x0 0x0, fd 14 3 .ro 0x0 0x0, fd 20 15 .ro 0x0 0x0]⟩,
  ⟨0x180004, 0x40, 64, .s, [fd 0 0 .wo 0x0 0x0]⟩,
  ⟨0x180008, 0x40, 64, .s, [fd 1 0 .ro 0x0 0x0, fk 2 2 .rws 0x0, fk 3 3 .rws 0x0, fk 4 4 .rws 0x0, fk 5 5 .rws 0x0]⟩,
  ⟨0x18000C, 0x40, 64, .s, [fd 15 0 .rc 0x0 0x0]⟩,
  ⟨0x180010, 0x40, 64, .s, [fd 11 0 .rw 0x0 0x0, fd 31 12 .rw 0x0 0x0]⟩,
  ⟨0x180014, 0x40, 64, .s, [fd 31 0 .rw 0x0 0x0]⟩,
  ⟨0x180018, 0x40, 64, .s, [fd 23 0 .ro 0x0 0x0]⟩,
  ⟨0x18001C, 0x40, 64, .s, [fd 23 0 .rw 0x0 0x0]⟩,
  ⟨0x180020, 0x40, 64, .s, [fd 11 0 .rw 0x0 0x0, fd 31 12 .rw 0x0 0x0]⟩,
  ⟨0x180024, 0x40, 64, .s, [fd 31 0 .rw 0x0 0x0]⟩,
  ⟨0x180028, 0x40, 64, .s, [fd 23 0 .ro 0x0 0x0]⟩,
  ⟨0x18002C, 0x40, 64, .s, [fd 23 0 .rw 0x0 0x0]⟩,
  ⟨0x180030, 0x40, 64, .s, [fd 11 0 .rw 0x0 0x0, fd 31 12 .rw 0x0 0x0]⟩,
  ⟨0x180034, 0x40, 64, .s, [fd 31 0 .rw 0x0 0x0]⟩,
  ⟨0x180038, 0x40, 64, .s, [fd 23 0 .ro 0x0 0x0]⟩,
  ⟨0x18003C, 0x40, 64, .s, [fd 23 0 .rw 0x0 0x0]⟩,
  ⟨0x181000, 0x4, 1, .o, [fd 3 0 .rw 0x0 0x0, fd 11 4 .rw 0x0 0x0, fd 20 12 .rw 0x0 0x0]⟩,
  ⟨0x181010, 0x4, 4, .o, [fd 31 0 .rw 0x0 0x0]⟩,
  ⟨0x181020, 0x4, 1, .o, [fd 19 0 .rw 0x0 0x0, fd 23 20 .rw 0x0 0x0]⟩,
  ⟨0x181024, 0x4, 1, .o, [fd 1 0 .wo 0x0 0x0]⟩,
  ⟨0x181028, 0x4, 1, .o, [fd 0 0 .ro 0x0 0x0, fd 3 1 .ro 0x0 0x0]⟩,
  ⟨0x181030, 0x4, 1, .z, [fk 0 0 .rws 0x0, fk 1 1 .rws 0x0, fk 2 2 .rws 0x0, fk 3 3 .rws 0x0, fk 4 4 .rws 0x0]⟩]

/-- MEMORY (R325). -/
def rowsMemory : List RegRow := [
  ⟨0x1A0000, 0x4, 1, .z, [fd 0 0 .wo 0x0 0x0]⟩,
  ⟨0x1A0004, 0x4, 1, .z, [fk 15 0 .ro 0x0, fk 31 16 .ro 0x0]⟩,
  ⟨0x1A0008, 0x4, 1, .z, [fd 7 0 .rw 0x0 0x0]⟩,
  ⟨0x1A000C, 0x4, 1, .z, [fd 1 0 .ro 0x0 0x0, fk 4 2 .ro 0x0, fk 7 5 .ro 0x0]⟩,
  ⟨0x1A0010, 0x4, 1, .z, [fd 15 0 .rc 0x0 0x0, fd 31 16 .rc 0x0 0x0]⟩,
  ⟨0x1A0014, 0x4, 1, .z, [fd 15 0 .rc 0x0 0x0, fd 31 16 .rc 0x0 0x0]⟩,
  ⟨0x1A0018, 0x4, 1, .z, [fk 23 0 .ro 0x0]⟩,
  ⟨0x1A001C, 0x4, 1, .z, [fk 7 0 .ro 0x0, fk 13 8 .ro 0x0, fk 19 14 .ro 0x0, fk 20 20 .ro 0x0]⟩,
  ⟨0x1A0020, 0x4, 4, .z, [fk 15 0 .rc 0x0, fk 31 16 .rc 0x0]⟩,
  ⟨0x1A0030, 0x4, 1, .z, [fd 0 0 .ro 0x0 0x1, fd 1 1 .ro 0x0 0x0]⟩,
  ⟨0x1A0040, 0x4, 1, .z, [fk 2 0 .ro 0x1, fk 31 16 .ro 0x0]⟩,
  ⟨0x1A0044, 0x4, 1, .z, [fk 15 0 .ro 0x0, fk 31 16 .ro 0x0]⟩,
  ⟨0x1A0048, 0x4, 1, .z, [fk 11 0 .ro 0x0, fk 31 16 .ro 0x0]⟩,
  ⟨0x1A004C, 0x4, 1, .z, [fk 15 0 .ro 0x0, fk 31 16 .ro 0x0]⟩,
  ⟨0x1A0050, 0x4, 1, .z, [fk 17 0 .ro 0x0, fk 31 18 .ro 0x0]⟩,
  ⟨0x1A0058, 0x4, 1, .z, [fk 0 0 .rws 0x0, fk 1 1 .rws 0x0, fk 2 2 .rws 0x0, fk 3 3 .rws 0x0, fk 4 4 .rws 0x0, fk 5 5 .rws 0x0, fk 6 6 .rws 0x0, fk 7 7 .rws 0x0, fk 8 8 .rws 0x0, fk 9 9 .rws 0x0, fk 10 10 .rws 0x0, fk 11 11 .rws 0x0, fk 12 12 .rws 0x0]⟩]

/-- CASCADE (R354). -/
def rowsCascade : List RegRow := [
  ⟨0x1C0000, 0x4, 1, .r, [fd 7 0 .ro 0xFF 0xFF, fk 8 8 .ro 0x0, fd 14 9 .ro 0x0 0x0, fd 20 15 .ro 0x0 0x0, fd 23 21 .ro 0x0 0x0]⟩,
  ⟨0x1C0004, 0x4, 1, .z, [fd 1 0 .ro 0x0 0x0, fd 2 2 .ro 0x0 0x0, fd 5 3 .ro 0x1 0x0, fd 6 6 .ro 0x0 0x0, fd 10 7 .ro 0x0 0x0, fd 16 11 .ro 0x3F 0x3F, fd 17 17 .ro 0x0 0x0]⟩,
  ⟨0x1C0008, 0x4, 1, .r, [fk 31 0 .ro 0x0]⟩,
  ⟨0x1C000C, 0x4, 1, .z, [fk 31 0 .ro 0x0]⟩,
  ⟨0x1C0010, 0x4, 1, .z, [fk 31 0 .ro 0x0]⟩,
  ⟨0x1C0014, 0x4, 1, .z, [fd 0 0 .wo 0x0 0x0, fd 1 1 .wo 0x0 0x0, fd 4 2 .wo 0x0 0x0, fd 5 5 .wo 0x0 0x0]⟩,
  ⟨0x1C0018, 0x4, 2, .z, [fd 31 0 .rw 0x0 0x0]⟩,
  ⟨0x1C0020, 0x4, 1, .z, [fd 15 0 .rc 0x0 0x0, fd 31 16 .rc 0x0 0x0]⟩,
  ⟨0x1C0024, 0x4, 1, .z, [fd 15 0 .rc 0x0 0x0, fd 31 16 .rc 0x0 0x0]⟩,
  ⟨0x1C0100, 0x4, 40, .z, [fd 1 0 .ro 0x0 0x0, fd 2 2 .ro 0x0 0x0, fd 18 3 .ro 0x0 0x0]⟩,
  ⟨0x1C0200, 0x4, 2, .z, [fd 31 0 .rw 0x0 0x0]⟩,
  ⟨0x1C0208, 0x4, 1, .z, [fd 0 0 .wo 0x0 0x0]⟩,
  ⟨0x1C020C, 0x4, 1, .z, [fd 19 0 .ro 0x0 0x0, fd 25 20 .ro 0x0 0x0, fd 27 26 .ro 0x0 0x0]⟩,
  ⟨0x1C0210, 0x4, 1, .z, [fk 0 0 .rws 0x0, fk 1 1 .rws 0x0, fk 2 2 .rws 0x0, fk 3 3 .rws 0x0, fk 4 4 .rws 0x0, fk 5 5 .rws 0x0, fk 6 6 .rws 0x0, fk 7 7 .rws 0x0, fk 8 8 .rws 0x0, fk 9 9 .rws 0x0, fk 10 10 .rws 0x0, fk 11 11 .rws 0x0, fk 12 12 .rws 0x0]⟩]

/-- UPDATE (R364). -/
def rowsUpdate : List RegRow := [
  ⟨0x1E0000, 0x4, 1, .z, [fd 0 0 .wo 0x0 0x0, fd 1 1 .wo 0x0 0x0, fd 2 2 .wo 0x0 0x0, fd 3 3 .wo 0x0 0x0, fd 4 4 .wo 0x0 0x0, fd 5 5 .wo 0x0 0x0, fd 6 6 .wo 0x0 0x0]⟩,
  ⟨0x1E0004, 0x4, 1, .z, [fk 2 0 .ro 0x0, fd 3 3 .ro 0x0 0x0, fk 15 8 .ro 0x0, fk 23 16 .ro 0x0, fk 31 24 .ro 0x0]⟩,
  ⟨0x1E0008, 0x4, 1, .z, [fd 31 0 .rw 0x0 0x0]⟩,
  ⟨0x1E000C, 0x4, 1, .z, [fd 31 0 .rw 0x0 0x0]⟩,
  ⟨0x1E0010, 0x4, 1, .z, [fd 31 0 .rw 0x0 0x0]⟩,
  ⟨0x1E0014, 0x4, 2, .z, [fd 31 0 .rw 0x0 0x0]⟩,
  ⟨0x1E001C, 0x4, 1, .z, [fk 31 0 .ro 0x0]⟩,
  ⟨0x1E0020, 0x4, 1, .z, [fk 31 0 .ro 0x0]⟩,
  ⟨0x1E0024, 0x4, 1, .z, [fd 23 0 .ro 0x0 0x0]⟩,
  ⟨0x1E0028, 0x4, 1, .z, [fk 0 0 .rws 0x0, fk 1 1 .rws 0x0, fk 2 2 .rws 0x0, fk 3 3 .rws 0x0]⟩]

/-- Every register of the device (R401). -/
def regRows : List RegRow :=
  rowsGlobal ++ rowsCanvas ++ rowsTime1 ++ rowsTime2 ++ rowsEvents ++ rowsMailbox ++
  rowsVault ++ rowsPower ++ rowsFieldPorts ++ rowsPlc ++ rowsRadio ++ rowsIngest ++ rowsLedger ++ rowsVee ++
  rowsBalance ++ rowsCampaign ++ rowsSeats ++ rowsMemory ++ rowsCascade ++ rowsUpdate

end Sys2Proof.Machine
end

