-- ==== Sys2Proof/Machine/Ops.lean ====
section
/-!
DEFINITION. The named operations that every family of commands shares: reading and writing fields of the register file,
corrected time, the running canvas, doorbells that the device rings, event entries, and raising a sticky bit.
-/

namespace Sys2Proof.Machine

/-! ### The register file -/

/-- The row and index of the register at an offset (R401). -/
def rowAt (off : Nat) : Option RegRow :=
  regRows.find? fun r => r.off ≤ off && (off - r.off) % r.stride == 0 && (off - r.off) / r.stride < r.count

/-- The value of a whole register at L0 (R12): its fields' values. EVT_SEL holds the copy's own seat (R400). -/
def regDefault (key : Nat) : Word :=
  let off := key % 2 ^ 24
  if off = Reg.EVT_SEL.VIEW.off then BitVec.ofNat 32 (key / 2 ^ 24) else
  match rowAt off with
  | some r => BitVec.ofNat 32 (r.fields.foldl (fun a f => a + f.l0 * 2 ^ f.lo) 0)
  | none => 0

/-- The word of register file copy `cp` at an offset. -/
def Dev.word (d : Dev) (off cp : Nat) : Word := SMap.get regDefault d.regs (cp * 2 ^ 24 + off)

/-- Put a word into the register file. -/
def Dev.setWord (d : Dev) (off cp : Nat) (w : Word) : Dev :=
  { d with regs := SMap.set regDefault d.regs (cp * 2 ^ 24 + off) w }

/-- Replace bits `hi … lo` of a word. -/
def putBits (w : Word) (hi lo v : Nat) : Word :=
  let n := w.toNat
  BitVec.ofNat 32 (n - bitsOf n hi lo * 2 ^ lo + v % 2 ^ (hi + 1 - lo) * 2 ^ lo)

/-- Read a field: entry `i` of its array, copy `cp`. -/
def Dev.rd (d : Dev) (F : Fld) (i : Nat := 0) (cp : Nat := 0) : Nat :=
  bitsOf (d.word (F.off + i * F.stride) cp).toNat F.hi F.lo

/-- Is a one-bit field set? -/
def Dev.on (d : Dev) (F : Fld) (i : Nat := 0) (cp : Nat := 0) : Bool := d.rd F i cp != 0

/-- Write a field: entry `i` of its array, copy `cp`. -/
def Dev.wr (d : Dev) (F : Fld) (v : Nat) (i : Nat := 0) (cp : Nat := 0) : Dev :=
  let off := F.off + i * F.stride
  d.setWord off cp (putBits (d.word off cp) F.hi F.lo v)

/-- The greatest value of a field. -/
def Fld.max (F : Fld) : Nat := 2 ^ (F.hi + 1 - F.lo) - 1

/-- Add to a counter that saturates. -/
def Dev.bump (d : Dev) (F : Fld) (n : Nat := 1) (i : Nat := 0) (cp : Nat := 0) : Dev :=
  d.wr F (min (d.rd F i cp + n) F.max) i cp

/-- Add to a counter that wraps to zero. -/
def Dev.count (d : Dev) (F : Fld) (n : Nat := 1) (i : Nat := 0) (cp : Nat := 0) : Dev :=
  d.wr F (d.rd F i cp + n) i cp

/-- Raise a field to a value it has not reached yet. -/
def Dev.peak (d : Dev) (F : Fld) (v : Nat) (i : Nat := 0) (cp : Nat := 0) : Dev :=
  d.wr F (max (d.rd F i cp) (min v F.max)) i cp

/-- The field `j` words further on. -/
def Fld.nth (F : Fld) (j : Nat) : Fld := { F with off := F.off + 4 * j }

/-- Two registers, low and high word, as one number. -/
def Dev.rd64 (d : Dev) (F : Fld) (cp : Nat := 0) : Nat := d.rd F 0 cp + 2 ^ 32 * d.rd (F.nth 1) 0 cp

/-- Write a number into two registers, low and high word. -/
def Dev.wr64 (d : Dev) (F : Fld) (v : Nat) (cp : Nat := 0) : Dev := (d.wr F v 0 cp).wr (F.nth 1) (v / 2 ^ 32) 0 cp

/-- Write a byte string into successive registers, word 0 holding bytes 0–3. -/
def Dev.wrBytes (d : Dev) (F : Fld) (bs : Bytes) (n : Nat) (cp : Nat := 0) : Dev :=
  (List.range n).foldl (fun d j => d.wr (F.nth j) (u bs (4 * j) 4) 0 cp) d

/-- Read successive registers as a byte string. -/
def Dev.rdBytes (d : Dev) (F : Fld) (n : Nat) (cp : Nat := 0) : Bytes :=
  (List.range n).flatMap fun j => leBytes 4 (d.rd (F.nth j) 0 cp)

/-! ### Outputs and free values -/

/-- Send something to the world outside. -/
def Dev.emit (d : Dev) (o : Out) : Dev := { d with out := o :: d.out }

/-- A fresh free value of a use, below a bound. -/
def Dev.fresh (d : Dev) (k : Nat) (bound : Nat) : Nat := Config.freeValue k d.free % bound

/-- Count the free value taken. -/
def Dev.took (d : Dev) : Dev := { d with free := d.free + 1 }

/-! ### The running canvas -/

/-- The running canvas; empty in the unconfigured state. -/
def Dev.cfg (d : Dev) : Canvas := d.cv.run.getD []

/-- The canvas as registers show it: after an L2 nothing of it until it is loaded again (R54, R105, R125, R146, R213, R246). -/
def Dev.shownCfg (d : Dev) : Canvas := if d.cv.hidden then [] else d.cfg

/-- The canvas that runs, or that ran last (R48). -/
def CanvasSt.lastRun (c : CanvasSt) : Canvas := c.run.getD c.last

/-- The cascade position as events carry it: 0xFF when standalone (R388). -/
def Dev.pos (d : Dev) : Nat := d.rd Reg.CAS_CFG.POSITION

/-! ### Time (R55, R69, R70) -/

/-- L in ns. -/
def Dev.tickNs (d : Dev) : Nat := d.cfg.tickNs

/-- The counter value at which the next tick opens (R55). -/
def Dev.nextB (d : Dev) : Nat := (d.time.base + ((d.time.tick + 1) * d.tickNs : Nat)).toNat

/-- The part of a slew that has been added at counter value `c` (R74): SLEW_PPM ns per ms until it is used up. -/
def Slew.done (s : Slew) (c : Nat) : Int :=
  let n : Int := ((c - s.start) * s.ppm / 1000000 : Nat)
  if s.amount < 0 then max s.amount (-n) else min s.amount n

/-- The term of R69 that RATE has added since C_A. -/
def Dev.accrued (d : Dev) (c : Nat) : Int :=
  Int.fdiv (((c : Int) - d.time.ca) * sgn 32 (d.rd Reg.TIME_RATE.RATE)) (2 ^ 40)

/-- OFS with the part of a running slew that has been added. -/
def Dev.ofsAt (d : Dev) (c : Nat) : Int := d.time.ofs + (match d.time.slew with | some s => s.done c | none => 0)

/-- Corrected time C_T in ns at counter value `c` (R69). -/
def Dev.cT (d : Dev) (c : Nat) : Int := c + d.ofsAt c + d.accrued c

/-- Corrected UTC C_U in ns at counter value `c` (R70). -/
def Dev.cU (d : Dev) (c : Nat) : Int := d.cT c - 1000000000 * sgn 16 (d.rd Reg.TIME_UTC_OFS.OFS)

/-- Corrected time now. -/
def Dev.ct (d : Dev) : Int := d.cT d.time.cnt

/-- Corrected UTC now, in whole seconds. -/
def Dev.utc (d : Dev) : Int := Int.fdiv (d.cU d.time.cnt) 1000000000

/-- Observe that the counter has reached `c`, inside the running tick. -/
def Dev.advance (d : Dev) (c : Nat) : Dev :=
  { d with time := { d.time with cnt := max d.time.cnt (min c (d.nextB - 1)) } }

/-- Is this device the active side of its position (CAS_STAT.ROLE)? -/
def Dev.isActive (d : Dev) : Bool := d.rd Reg.CAS_STAT.ROLE == 1

/-! ### Parts -/

/-- What a seat holds. -/
def Dev.seat (d : Dev) (n : Nat) : SeatSt := SMap.get (fun _ => {}) d.seats n

/-- Change what a seat holds. -/
def Dev.onSeat (d : Dev) (n : Nat) (g : SeatSt → SeatSt) : Dev :=
  { d with seats := SMap.upd (fun _ => {}) d.seats n g }

/-- What a mailbox holds beside its registers. -/
def Dev.mb (d : Dev) (m : Nat) : MbxSt := SMap.get (fun _ => {}) d.mbx m

/-- Change what a mailbox holds. -/
def Dev.onMb (d : Dev) (m : Nat) (g : MbxSt → MbxSt) : Dev := { d with mbx := SMap.upd (fun _ => {}) d.mbx m g }

/-! ### Counters of the vault (R278, R279) -/

/-- A copy that may be taken: sealed, or erased and so zero. -/
def CntCopy.valid (c : CntCopy) : Bool := c.st != .bad

/-- Of two HI copies, the one R279 takes: greater VALUE, and on equal VALUE the one with PEND clear. -/
def pickHi (a b : CntCopy) : Option (Nat × CntCopy) :=
  match a.valid, b.valid with
  | true, true =>
    if a.value > b.value then some (0, a)
    else if b.value > a.value then some (1, b)
    else if a.pend then some (1, b) else some (0, a)
  | true, false => some (0, a)
  | false, true => some (1, b)
  | false, false => none

/-- The content of a two-copy item: that of its valid copy with the later content (R260); `none` where neither is valid. -/
def TwoCopy.read (t : TwoCopy) : Option Bytes :=
  match t.st0 == .good, t.st1 == .good with
  | true, true => some (if t.later1 then t.bytes1 else t.bytes0)
  | true, false => some t.bytes0
  | false, true => some t.bytes1
  | false, false => none

/-- Is copy 0 the stale one: invalid, or else the one without the later content (R260)? -/
def TwoCopy.stale0 (t : TwoCopy) : Bool := t.st0 != .good || (t.st1 == .good && t.later1)

/-- Write the stale copy, or tear it. -/
def TwoCopy.write (t : TwoCopy) (b : Bytes) : TwoCopy :=
  if t.stale0 then { t with st0 := .good, bytes0 := b, later1 := false } else { t with st1 := .good, bytes1 := b, later1 := true }
def TwoCopy.tear (t : TwoCopy) : TwoCopy := if t.stale0 then { t with st0 := .bad } else { t with st1 := .bad }

/-- Both copies written. -/
def TwoCopy.both (b : Bytes) : TwoCopy := { st0 := .good, st1 := .good, bytes0 := b, bytes1 := b }

/-- A copy found bad. -/
def TwoCopy.damage (t : TwoCopy) (i : Nat) : TwoCopy := if i = 0 then { t with st0 := .bad } else { t with st1 := .bad }

/-- Of two LO copies, the one R279 takes for a HI value: HTAG equal and greater VALUE. -/
def pickLo (h : Nat) (a b : CntCopy) : Option (Nat × CntCopy) :=
  match a.valid && a.aux == h, b.valid && b.aux == h with
  | true, true => if b.value > a.value then some (1, b) else some (0, a)
  | true, false => some (0, a)
  | false, true => some (1, b)
  | false, false => none

/-- The value of a counter (R279); `none` where the counter has failed. -/
def Counter.read (c : Counter) : Option Nat :=
  match pickHi c.hi0 c.hi1 with
  | none => none
  | some (_, h) =>
    if h.pend then some (h.value * 2 ^ 32 + h.aux) else
    match pickLo h.value c.lo0 c.lo1 with
    | some (_, l) => some (h.value * 2 ^ 32 + l.value)
    | none => none

/-- The value of counter `i`, 2^64 − 1 where it has failed (R279). -/
def Dev.counter (d : Dev) (i : Nat) : Nat :=
  ((SMap.get (fun _ => ({} : Counter)) d.vault.counters i).read).getD (2 ^ 64 - 1)

/-! ### Interrupts and doorbells (R284, R297, R298) -/

/-- Signal MSI-X vector `v` of a function: a masked vector becomes pending instead (R284). -/
def Dev.signal (d : Dev) (n v : Nat) : Dev :=
  let m := SMap.get (fun _ => ({} : Msix)) (d.seat n).msix v
  if m.masked then d.onSeat n fun s => { s with msix := SMap.set (fun _ => {}) s.msix v { m with pending := true } }
  else d.emit (.msix n v)

/-- Raise the receiver's interrupt for a mailbox (R297): the seat's vector, or the core's interrupt. -/
def Dev.mbxIrq (d : Dev) (m : Nat) : Dev :=
  match d.cfg.mbxSeat m with
  | some n =>
    let k := (d.cfg.seatMbxs n).findIdx (· == m)
    if d.cfg.seatPcie n then d.signal n (min k 31) else d
  | none => d.emit (.coreIrq m)

/-- Set pending bit `b` of mailbox `m` (R297): a ring onto a pending bit merges and counts in MERGED. -/
def Dev.ringBit (d : Dev) (m b : Nat) : Dev :=
  let p := d.rd Reg.MBX_PEND.PEND m
  if bitOf p b then d.bump Reg.MBX_CNT.MERGED 1 m else
  let d := d.wr Reg.MBX_PEND.PEND (p + 2 ^ b) m
  let d := d.onMb m fun s => { s with pendSince := SMap.set (fun _ => 0) s.pendSince b (d.time.tick + 1) }
  if bitOf (d.rd Reg.MBX_MASK.MASK m) b then d else d.mbxIrq m

/-- The device rings bit `b` of a seat's mailbox 0 (R34, R298); a seat without mailboxes has none to ring. -/
def Dev.ringSeat (d : Dev) (n b : Nat) : Dev :=
  match (d.cfg.seatMbxs n).head? with
  | some m => d.ringBit m b
  | none => d

/-! ### Event entries (R388 to R397, R435) -/

/-- The values of a listing, little-endian without padding; values that do not fit whole in 20 bytes are left out
(R435). -/
def packVals (vals : List (Nat × Nat)) : Bytes :=
  vals.foldl (fun a p => if a.length + p.1 ≤ 20 then a ++ leBytes p.1 p.2 else a) []

/-- PAYLOAD: the index the event names, then its values, zero-filled (R388, R435). -/
def payloadOf (idx : Nat) (vals : List (Nat × Nat)) : Bytes := slice (leBytes 4 idx ++ packVals vals) 0 24

/-- The index of an event that names nothing. -/
def noIdx : Nat := 0xFFFFFFFF

/-- Bytes 0–59 of an entry (R388). -/
def Evt.body (e : Evt) : Bytes :=
  leBytes 2 e.code ++
  leBytes 1 (e.sev + 8 * b2n e.tvalid + 16 * b2n e.summary + 32 * b2n e.lastgasp) ++
  leBytes 1 e.seat ++
  leBytes 8 (e.hours % 2 ^ 24 + 2 ^ 24 * (e.secs % 2 ^ 12) + 2 ^ 36 * (e.cycles % 2 ^ 24)) ++
  leBytes 8 e.tick ++ leBytes 8 (wrapI 64 e.ctime) ++ leBytes 4 e.eseq ++ leBytes 2 e.supp ++
  leBytes 1 e.pos ++ leBytes 1 0 ++ slice e.payload 0 24

/-- The entry as its 64 bytes. -/
def Evt.bytes (e : Evt) : Bytes := e.body ++ leBytes 4 e.chk

/-- A new entry of a code in a view, stamped now (R388). -/
def Dev.mkEvt (d : Dev) (code sev view supp : Nat) (summary : Bool) (payload : Bytes) : Evt :=
  let e : Evt :=
    { code, sev, tvalid := d.on Reg.TIME_STAT.VALID, summary, lastgasp := false, seat := view
      hours := d.counter 4, secs := (d.time.cnt - d.time.hourAt) / 1000000000 % 3600, cycles := d.counter 3
      tick := d.time.tick, ctime := if d.on Reg.TIME_STAT.VALID then d.ct else 0
      eseq := SMap.get (fun _ => 0) d.evt.nextSeq view, supp := min supp 0xFFFF, pos := d.pos, payload, chk := 0 }
  { e with chk := sealOf e.body }

/-- Remove the oldest entry whose severity is equal to or lower than `sev` (R396). -/
def dropOldest (sev : Nat) : List Evt → Option (List Evt)
  | [] => none
  | e :: es => if e.sev ≤ sev then some es else (dropOldest sev es).map (e :: ·)

/-- Entries that the front buffer holds (R395). -/
def frontCap : Nat := 4096

/-- Entries that the NAND log holds (R395). -/
def logCap : Nat := 4194304

/-- An entry enters a view: it takes the view's next ESEQ, and notifies the reading seat (R394). -/
def Dev.notifyView (d : Dev) (view sev : Nat) : Dev :=
  let n := if view = 0xFF then 0 else view
  if d.on Reg.EVT_NOTIFY.EN 0 n && d.rd Reg.EVT_NOTIFY.MINSEV 0 n ≤ sev then d.ringSeat n 29 else d

/-- Put an entry into the front buffer (R395, R396) and notify its reader. The most recent fatal entry is also held in
the last-gasp cell. The second component says that the buffer was full. -/
def Dev.pushEvt (d : Dev) (e : Evt) : Dev × Bool :=
  let enter := fun (f : List Evt) =>
    ({ d with evt := { d.evt with
        front := f ++ [e]
        nextSeq := SMap.set (fun _ => 0) d.evt.nextSeq e.seat ((e.eseq + 1) % 2 ^ 32)
        lastGasp := if e.sev = 7 then some e else d.evt.lastGasp } }).notifyView e.seat e.sev
  if d.evt.front.length < frontCap then (enter d.evt.front, false) else
  match dropOldest e.sev d.evt.front with
  | some f => (enter f, true)
  | none => (d, true)

/-- Entries of a code recorded in a view within the last 100 ticks, counting the current one (R397). -/
def EvtSt.recentCount (s : EvtSt) (code view tick : Nat) : Nat :=
  (s.recent.filter fun r => r.1 == code && r.2.1 == view && tick < r.2.2 + 100).length

/-- The occurrence of a code in a view is recorded, or suppressed and counted (R397), without the sticky bit that a full
front buffer sets. -/
def Dev.recordRaw (d : Dev) (code sev view : Nat) (payload : Bytes) : Dev × Bool :=
  let t := d.time.tick
  if d.evt.recentCount code view t < d.cfg.rateLimit code then
    let sc := ((d.evt.supp.find? fun s => s.code == code && s.view == view).map (·.count)).getD 0
    let e := d.mkEvt code sev view sc false payload
    ({ d with evt := { d.evt with
        recent := (code, view, t) :: d.evt.recent.filter fun r => t < r.2.2 + 100
        supp := d.evt.supp.filter fun s => !(s.code == code && s.view == view) } }).pushEvt e
  else
    let bumped := if d.evt.supp.any fun s => s.code == code && s.view == view then
        d.evt.supp.map fun s => if s.code == code && s.view == view then { s with count := s.count + 1 } else s
      else d.evt.supp ++ [{ code, sev, view, count := 1, first := t }]
    ({ d with evt := { d.evt with supp := bumped } }, false)

/-- A full front buffer counts in FB_LOST and raises FB_OVERWRITE (R396); that entry itself may find it full again. -/
def Dev.fbLost (d : Dev) : Dev :=
  let S := Stk.EVT.FB_OVERWRITE
  let d := (d.bump Reg.EVT_LOST.FB_LOST).wr S.fld 1
  let r := d.recordRaw S.code S.sev 0xFF (payloadOf noIdx [])
  if r.2 then r.1.bump Reg.EVT_LOST.FB_LOST else r.1

/-- Record an occurrence of a code (R397). -/
def Dev.record (d : Dev) (code sev view idx : Nat) (vals : List (Nat × Nat)) : Dev :=
  let r := d.recordRaw code sev view (payloadOf idx vals)
  if r.2 then r.1.fbLost else r.1

/-- A device event sets bit `bit` of a sticky field and raises its code (R390), in a view (R393). -/
def Dev.raiseIn (d : Dev) (S : Sticky) (i cp bit view idx : Nat) (vals : List (Nat × Nat)) : Dev :=
  let F : Fld := { S.fld with hi := S.fld.lo + bit, lo := S.fld.lo + bit }
  (d.wr F 1 i cp).record S.code S.sev view idx vals

/-- Raise a sticky bit of the device as a whole. -/
def Dev.raise (d : Dev) (S : Sticky) (idx : Nat := noIdx) (vals : List (Nat × Nat) := []) : Dev :=
  d.raiseIn S 0 0 0 0xFF idx vals

/-- Raise a sticky bit of a port; the event enters the view of the port's home seat (R393). -/
def Dev.raisePort (d : Dev) (S : Sticky) (p : Nat) (vals : List (Nat × Nat) := []) : Dev :=
  d.raiseIn S p 0 0 (d.cfg.homeSeat p) p vals

/-- Raise a sticky bit of the device whose event names a port. -/
def Dev.raiseNamingPort (d : Dev) (S : Sticky) (p : Nat) (vals : List (Nat × Nat) := []) : Dev :=
  d.raiseIn S 0 0 0 (d.cfg.homeSeat p) p vals

/-- Raise a sticky bit of the device whose event names a slot, a node or a mailbox of a seat (R393). -/
def Dev.raiseFor (d : Dev) (S : Sticky) (seat idx : Nat) (vals : List (Nat × Nat) := []) : Dev :=
  d.raiseIn S 0 0 0 seat idx vals

/-- Raise a sticky bit of a seat's own copy of a register (R390, R393). -/
def Dev.raiseCopy (d : Dev) (S : Sticky) (seat : Nat) (vals : List (Nat × Nat) := []) : Dev :=
  d.raiseIn S 0 seat 0 seat seat vals

/-- Raise a sticky bit of an entry of the per-seat registers of SEATS (R390, R393). -/
def Dev.raiseSeat (d : Dev) (S : Sticky) (seat : Nat) (vals : List (Nat × Nat) := []) : Dev :=
  d.raiseIn S seat 0 0 seat seat vals

/-- The owning seat of a slot as a view: 0xFF where no seat owns it. -/
def Dev.slotView (d : Dev) (slot : Nat) : Nat := (d.cfg.seatOfSlot slot).getD 0xFF

/-- A violation of a seat's view is counted and flagged (R21, R294). -/
def Dev.violate (d : Dev) (n : Nat) : Dev := (d.bump Reg.SEAT_VIOL.COUNT 1 n).raiseSeat Stk.SEAT_STAT.VIOL n

end Sys2Proof.Machine
end

