-- ==== Sys2Proof/Machine/Mailbox.lean ====
section
/-!
DEFINITION. Mailboxes: ringing, the FENCE bit, locks, pending and mask bits, and their time limits (R296 to R301).
-/

/-- The requester number of an agent (R296). -/
def Sys2Proof.Agent.num : Sys2Proof.Agent → Nat
  | .core i => 1 + i
  | .vault => 9
  | .device => 10
  | .seat n => 16 + n

namespace Sys2Proof.Machine

/-- The device number of the mailbox an agent names (R296): seats name their own mailboxes from 0, every other agent the
device numbers. -/
def Dev.mbxOf (d : Dev) (a : Agent) (m : Nat) : Option Nat :=
  match a with
  | .seat n => (d.cfg.seatMbxs n)[m]?
  | _ => if m < 64 then some m else none

/-- The seat in whose view an event that names a mailbox stands: its receiver, or the device (R393). -/
def Dev.mbxView (d : Dev) (m : Nat) : Nat := (d.cfg.mbxSeat m).getD 0xFF

/-- A ring or release that is not permitted (R294, R299): ignored, counted for a seat, and flagged. -/
def Dev.mbxDenied (d : Dev) (a : Agent) (m : Nat) : Dev :=
  let d := match a with
    | .seat n => d.violate n
    | _ => d
  d.raiseFor Stk.MBX.RING_DENIED (d.mbxView m) m

/-- May an agent ring bit `b` of mailbox `m` (R297, R298)? -/
def Dev.mayRing (d : Dev) (a : Agent) (m b : Nat) : Bool :=
  match a with
  | .core _ => true
  | .device => true
  | .vault => false
  | .seat n => !(b ≥ 28 && (d.cfg.seatMbxs n).head? == some m)

/-- MBX_DOORBELL (R297, R33): ring a bit; with FENCE the notice is held until the writer's posted writes have drained. -/
def Dev.mbxDoorbell (d : Dev) (a : Agent) (m v : Nat) : Dev :=
  match d.mbxOf a m with
  | none => match a with
    | .seat n => d.violate n
    | _ => d
  | some m =>
    let b := bitsOf v 4 0
    if !d.mayRing a m b then d.mbxDenied a m
    else if bitOf v 5 then { d with held := d.held ++ [{ writer := a.num, mbx := m, bit := b }] }
    else d.ringBit m b

/-- DOORBELL_NOTICE_VISIBLE (R33): the writer's posted writes have drained, so its held notices become visible. -/
def Dev.doorbellVisible (d : Dev) (a : Agent) : Dev :=
  let mine := d.held.filter fun h => h.writer == a.num
  mine.foldl (fun d h => d.ringBit h.mbx h.bit) { d with held := d.held.filter fun h => h.writer != a.num }

/-- The agent with the lowest requester number. -/
def lowestAgent : List Agent → Option Agent
  | [] => none
  | a :: as =>
    match lowestAgent as with
    | none => some a
    | some b => if a.num ≤ b.num then some a else some b

/-- MBX_LOCK (R299): reads of one cycle. A free lock goes to the lowest requester number, which reads 0; every other reader
is returned the owner. A reader in whose view the mailbox does not lie reads zero (R21). -/
def Dev.mbxLock (d : Dev) (as : List Agent) (m : Nat) : Dev :=
  let seen := as.filter fun a => match a with
    | .seat n => (d.cfg.seatMbxs n).contains m
    | _ => true
  let own := d.rd Reg.MBX_LOCK.OWNER m
  let hidden := (as.filter fun a => !seen.contains a).foldl (fun d a => d.emit (.answer a.num 0)) d
  match lowestAgent seen with
  | none => { hidden with rdata := 0 }
  | some w =>
    let now := if own = 0 then w.num else own
    let d := if own = 0 then
        (hidden.wr Reg.MBX_LOCK.OWNER w.num m).onMb m fun s => { s with lockTick := d.time.tick }
      else hidden
    let d := seen.foldl (fun d a => d.emit (.answer a.num (if own = 0 ∧ a = w then 0 else now))) d
    { d with rdata := BitVec.ofNat 32 own }

/-- Is an agent the receiver of a mailbox (R296)? -/
def Dev.receives (d : Dev) (a : Agent) (m : Nat) : Bool :=
  match a with
  | .seat n => d.cfg.mbxSeat m == some n
  | .vault => m == 63
  | .core _ => (d.cfg.mbxSeat m).isNone && m != 63
  | .device => false

/-- MBX_UNLOCK (R299): REL is honoured from the owner, the receiver and any house core. -/
def Dev.mbxUnlock (d : Dev) (a : Agent) (m v : Nat) : Dev :=
  match d.mbxOf a m with
  | none => match a with
    | .seat n => d.violate n
    | _ => d
  | some m =>
    if !bitOf v 0 then d else
    let core := match a with
      | .core _ => true
      | _ => false
    if core || d.receives a m || d.rd Reg.MBX_LOCK.OWNER m == a.num then d.wr Reg.MBX_LOCK.OWNER 0 m
    else d.mbxDenied a m

/-- Ticks that a pending bit is aged at (R300). -/
def agedTicks : Nat := 1000

/-- Is some pending bit of a mailbox aged? -/
def Dev.hasAged (d : Dev) (m : Nat) : Bool :=
  (d.mb m).pendSince.any fun e => e.2 + agedTicks ≤ d.time.tick + 1

/-- DOORBELL_AGED (R300): a bit pending for 1,000 ticks sets AGED, with one event per mailbox until it is cleared. -/
def Dev.doorbellAged (d : Dev) (m : Nat) : Dev :=
  if (d.mb m).agedDone || !d.hasAged m then d
  else (d.onMb m fun s => { s with agedDone := true }).raiseFor Stk.MBX.AGED (d.mbxView m) m

/-- LOCK_TIMEOUT (R300): a lock held for 100 ticks is released by the device. -/
def Dev.lockTimeout (d : Dev) (m : Nat) : Dev :=
  let own := d.rd Reg.MBX_LOCK.OWNER m
  if own = 0 || d.time.tick < (d.mb m).lockTick + 100 then d else
  ((d.wr Reg.MBX_LOCK.OWNER 0 m).bump Reg.MBX_CNT.LOCK_TMO 1 m).raiseFor Stk.MBX.LOCK_TMO (d.mbxView m) m [(1, own)]

/-- Clear pending bits of a mailbox. -/
def Dev.clearPend (d : Dev) (m bits : Nat) : Dev :=
  let p := d.rd Reg.MBX_PEND.PEND m
  let d := d.wr Reg.MBX_PEND.PEND (p - (p &&& bits)) m
  let d := d.onMb m fun s => { s with pendSince := s.pendSince.filter fun e => !bitOf bits e.1 }
  if d.hasAged m then d else d.onMb m fun s => { s with agedDone := false }

/-- A write of MBX_PEND clears the bits written as one, from the receiver (R300). -/
def Dev.mbxPendWrite (d : Dev) (a : Agent) (m v : Nat) : Dev := if d.receives a m then d.clearPend m v else d

/-- A write of MBX_MASK: a pending bit that becomes unmasked raises the interrupt (R297). -/
def Dev.mbxMaskWrite (d : Dev) (m v : Nat) : Dev :=
  let d := d.wr Reg.MBX_MASK.MASK v m
  let p := d.rd Reg.MBX_PEND.PEND m
  if p - (p &&& v) = 0 then d else d.mbxIrq m

/-- L4 of a seat (R295, R300): the pending bits of the mailboxes it receives clear, and the locks it holds are released. -/
def Dev.mbxSeatReset (d : Dev) (n : Nat) : Dev :=
  (List.range 64).foldl (fun d m =>
    let d := if d.cfg.mbxSeat m == some n then d.clearPend m (2 ^ 32 - 1) else d
    if d.rd Reg.MBX_LOCK.OWNER m == 16 + n then d.wr Reg.MBX_LOCK.OWNER 0 m else d) d

end Sys2Proof.Machine
end

