-- ==== Sys2Proof/Machine/Time.lean ====
section
/-!
DEFINITION. Ticks and time: latched reads, steps, slews, rate, sources and holdover, leap seconds, PPS, trigger targets, the
real-time clock, and the interval boundaries that corrected UTC reaches (R55 to R84).
-/

namespace Sys2Proof.Machine

/-! ### Latched reads (R71, R84) -/

/-- Give a register read its answer. -/
def Dev.answer (d : Dev) (v : Nat) : Dev := { d with rdata := BitVec.ofNat 32 v }

/-- TIME_NS32_READ (R71): the low 32 bits of C_T; the other three registers are latched for the seat. -/
def Dev.timeNs32Read (d : Dev) (n c : Nat) : Dev :=
  let d := d.advance c
  let t := d.ct
  let sec := wrapI 48 (Int.fdiv t 1000000000)
  let l : Latch := { held := true, subsec := (Int.fmod t 1000000000).toNat, secLo := sec % 2 ^ 32, secHi := sec / 2 ^ 32 }
  ({ d with time := { d.time with latches := SMap.set (fun _ => {}) d.time.latches n l } }).answer (wrapI 32 t)

/-- A seat's latch. -/
def Dev.latch (d : Dev) (n : Nat) : Latch := SMap.get (fun _ => {}) d.time.latches n

/-- Release a seat's latch; its values are kept (R71). -/
def Dev.unlatch (d : Dev) (n : Nat) : Dev :=
  { d with time := { d.time with latches := SMap.upd (fun _ => {}) d.time.latches n fun l => { l with held := false } } }

/-- TIME_SEC_HI_READ (R71): the latched seconds, and the latch is released. -/
def Dev.timeSecHiRead (d : Dev) (n : Nat) : Dev := (d.answer (d.latch n).secHi).unlatch n

/-- A seat's latched high words. -/
def Dev.hiLatch (d : Dev) (n : Nat) : HiLatch := SMap.get (fun _ => {}) d.time.hiLatches n

/-- TICK_LO_READ (R84): reading TICK_LO, or TB_CNT_LO when `cnt` is set, latches the matching high word. -/
def Dev.tickLoRead (d : Dev) (n c : Nat) (cnt : Bool) : Dev :=
  let d := d.advance c
  let v := if cnt then d.time.cnt else d.time.tick
  let hi := some (v / 2 ^ 32 % 2 ^ 32)
  let d := { d with time := { d.time with hiLatches := SMap.upd (fun _ => {}) d.time.hiLatches n fun l =>
    if cnt then { l with cntHi := hi } else { l with tickHi := hi } } }
  d.answer v

/-- TIME_HOLD (R75): whole seconds since the last DISC, saturating. -/
def Dev.timeHold (d : Dev) : Nat :=
  min (d.time.holdBase + (d.time.cnt - d.time.holdAt) / 1000000000) 0xFFFFFFFF

/-! ### Interval boundaries (R65, R67, R186) -/

/-- Minutes of an IVL code (R283). -/
def ivlMinutes (code : Nat) : Nat :=
  match code with
  | 1 => 1 | 2 => 5 | 3 => 10 | 4 => 15 | 5 => 30 | 6 => 60 | 7 => 1440 | _ => 0

/-- The interval lengths of a seat in seconds: the billing period and the further lengths (R186, R283). -/
def Canvas.seatLengths (c : Canvas) (n : Nat) : List Nat :=
  ((60 * c.seatPeriod n) :: (List.range 3).map fun i => 60 * ivlMinutes (c.seatIvl n i)).filter (· != 0)

/-- The whole multiples of `len` in the span after `lo` up to `hi`. -/
def multiplesIn (len : Nat) (lo hi : Int) : List Int :=
  let first := Int.fdiv lo len + 1
  let last := Int.fdiv hi len
  (List.range (last - first + 1).toNat).map fun (i : Nat) => (first + (i : Int)) * len

/-- Insert an instant into an ascending list without repeats. -/
def insertInstant (x : Int) : List Int → List Int
  | [] => [x]
  | y :: ys => if x < y then x :: y :: ys else if x = y then y :: ys else y :: insertInstant x ys

/-- The boundary instants of a seat after `lo` up to `hi`, in order. -/
def Canvas.boundaries (c : Canvas) (n : Nat) (lo hi : Int) : List Int :=
  (c.seatLengths n).foldl (fun a len => (multiplesIn len lo hi).foldl (fun a x => insertInstant x a) a) []

/-- Find every boundary that corrected UTC has reached and not found before; each takes boundary tick `b` (R65, R67). A
backward step finds nothing again. -/
def Dev.findBounds (d : Dev) (b : Nat) : Dev :=
  let hi := d.utc
  let lo := d.time.sweptTo
  if hi ≤ lo then d else
  let new := d.cfg.seats.flatMap fun n => (d.cfg.boundaries n lo hi).map fun x => { seat := n, utc := x, tick := b : Bound }
  { d with time := { d.time with bounds := d.time.bounds ++ new, sweptTo := hi } }

/-! ### Steps, slews and rate (R69, R73, R74) -/

/-- Bring a signed number into 64 bits. -/
def wrap64 (i : Int) : Int := sgn 64 (wrapI 64 i)

/-- Fold the part of a slew that has been added into OFS and end it. -/
def Dev.endSlew (d : Dev) : Dev :=
  ({ d with time := { d.time with ofs := wrap64 (d.ofsAt d.time.cnt), slew := none } }).wr Reg.TIME_STAT.SLEW_ACT 0

/-- A backward change of corrected UTC lets an announced leap second take the first midnight that is now ahead (R70). -/
def Dev.leapBack (d : Dev) : Dev :=
  { d with time := { d.time with leapFrom := min d.time.leapFrom (d.cU d.time.cnt - 1) } }

/-- Boundaries that corrected UTC has reached by itself in this tick: the next tick is the first that opens after them (R65). -/
def Dev.boundsSoFar (d : Dev) : Dev := d.findBounds (d.time.tick + 1)

/-- Add a step to OFS; the boundaries it passes take this tick as their boundary tick (R67). -/
def Dev.addStep (d : Dev) (amt : Int) : Dev :=
  let d := d.boundsSoFar
  let d := { d with time := { d.time with ofs := wrap64 (d.time.ofs + amt), stepPend := none } }.wr Reg.TIME_STAT.STEP_PEND 0
  (if amt < 0 then d.leapBack else d).findBounds d.time.tick

/-- The signed amount in TIME_STEP. -/
def Dev.stepAmount (d : Dev) : Int := sgn 64 (d.rd64 Reg.TIME_STEP.AMOUNT)

/-- TIME_STEP (R73): a step of at most 1 ms is added at once, a larger one becomes the pending step; any slew is
cancelled in the cycle of the write. -/
def Dev.timeStep (d : Dev) (c : Nat) : Dev :=
  let d := (d.advance c).endSlew
  let amt := d.stepAmount
  if amt.natAbs ≤ 1000000 then d.addStep amt
  else ({ d with time := { d.time with stepPend := some amt, stepTick := d.time.tick } }).wr Reg.TIME_STAT.STEP_PEND 1

/-- TIME_STEP_APPLY (R73): at the next boundary the pending step is added to OFS. -/
def Dev.timeStepApply (d : Dev) : Dev :=
  match d.time.stepPend with
  | some amt => if d.time.tick > d.time.stepTick then d.addStep amt else d
  | none => d

/-- TIME_SLEW (R74): start or replace a slew, or refuse it with ADJ_REJ. -/
def Dev.timeSlew (d : Dev) (c ppm : Nat) : Dev :=
  let d := d.advance c
  let amt := d.stepAmount
  if amt.natAbs > 2 ^ 31 || ppm = 0 || ppm > 1000 then d.raise Stk.TIME.ADJ_REJ else
  let d := d.endSlew
  ({ d with time := { d.time with slew := some { start := d.time.cnt, amount := amt, ppm } } }).wr
    Reg.TIME_STAT.SLEW_ACT 1

/-- SLEW_DONE (R74): the amount is used up. -/
def Dev.slewDone (d : Dev) (c : Nat) : Dev :=
  let d := d.advance c
  match d.time.slew with
  | some s => if s.done d.time.cnt = s.amount then d.endSlew else d
  | none => d

/-- TIME_DISCIPLINE (R75): the servo has locked to a source; other codes than PTP, PPS and dealer are ignored. -/
def Dev.timeDiscipline (d : Dev) (c src : Nat) : Dev :=
  let d := d.advance c
  if src < 2 || src > 4 then d else
  let d := (d.wr Reg.TIME_STAT.VALID 1).wr Reg.TIME_STAT.SRC src
  { d with time := { d.time with holdBase := 0, holdAt := d.time.cnt } }

/-- A write of TIME_ADJ_CTL acts by each bit it sets. -/
def Dev.timeAdjCtl (d : Dev) (c v : Nat) : Dev :=
  let d := if bitOf v 0 then d.timeStep c else d
  let d := if bitOf v 1 then d.timeSlew c (bitsOf v 25 16) else d
  if bitOf v 2 then d.timeDiscipline c (bitsOf v 5 3) else d

/-- TIME_RATE_WRITE (R69): the accrued term is folded into OFS at the counter value of the write. -/
def Dev.timeRateWrite (d : Dev) (c v : Nat) : Dev :=
  let d := d.advance c
  let acc := d.accrued d.time.cnt
  ({ d with time := { d.time with ofs := wrap64 (d.time.ofs + acc), ca := d.time.cnt } }).wr Reg.TIME_RATE.RATE v

/-- The holdover limit in seconds (R75); its default stands while no canvas gives one. -/
def Dev.holdLimit (d : Dev) : Nat := if d.cv.run.isNone then 14400 else d.cfg.holdover

/-- HOLDOVER_EXPIRE (R75): TIME_HOLD has passed the limit, so VALID clears. -/
def Dev.holdoverExpire (d : Dev) : Dev :=
  if d.on Reg.TIME_STAT.VALID && d.timeHold > d.holdLimit then
    (d.wr Reg.TIME_STAT.VALID 0).raise Stk.TIME.HOLDOVER_EXP
  else d

/-- A write of TIME_UTC_OFS (R70): announcing a leap second fixes the midnight that follows the write. -/
def Dev.utcOfsWrite (d : Dev) (c v : Nat) : Dev :=
  let d := d.advance c
  let d := ((d.wr Reg.TIME_UTC_OFS.OFS v).wr Reg.TIME_UTC_OFS.PEND (v / 2 ^ 16)).wr Reg.TIME_UTC_OFS.DIR (v / 2 ^ 17)
  { d with time := { d.time with leapFrom := d.cU d.time.cnt } }

/-- Nanoseconds of a UTC day. -/
def dayNs : Int := 86400 * 1000000000

/-- LEAP_SECOND (R70): at the first UTC midnight after PEND was written UTC_OFS changes by one. A deleted second is swept as
a forward step, an inserted one as a backward step. -/
def Dev.leapSecond (d : Dev) (c : Nat) : Dev :=
  let d := d.advance c
  if !d.on Reg.TIME_UTC_OFS.PEND || Int.fdiv (d.cU d.time.cnt) dayNs ≤ Int.fdiv d.time.leapFrom dayNs then d else
  let del := d.on Reg.TIME_UTC_OFS.DIR
  let d := d.boundsSoFar
  let o := d.rd Reg.TIME_UTC_OFS.OFS
  let d := (d.wr Reg.TIME_UTC_OFS.OFS (if del then o + 2 ^ 16 - 1 else o + 1)).wr Reg.TIME_UTC_OFS.PEND 0
  d.findBounds d.time.tick

/-! ### PPS (R76) -/

/-- PPS_EDGE (R76): an accepted rising edge is timestamped and clears PPS_LOST. -/
def Dev.ppsEdge (d : Dev) (c : Nat) : Dev :=
  let d := d.advance c
  let d := (d.wr Reg.PPS_TS.NS (wrapI 32 d.ct)).wr Reg.TIME_STAT.PPS_LOST 0
  { d with time := { d.time with ppsAt := d.time.cnt } }

/-- PPS_LOSS (R76): no edge accepted for 1.5 s. -/
def Dev.ppsLoss (d : Dev) (c : Nat) : Dev :=
  let d := d.advance c
  if d.on Reg.TIME_STAT.PPS_LOST || d.time.cnt < d.time.ppsAt + 1500000000 then d
  else (d.wr Reg.TIME_STAT.PPS_LOST 1).raise Stk.TIME.PPS_LOST

/-! ### Trigger targets (R79) -/

/-- The first tick after tick `t` whose low 32 bits equal `v`. -/
def firstTick (t v : Nat) : Nat :=
  let dlt := (v + 2 ^ 32 - t % 2 ^ 32) % 2 ^ 32
  t + (if dlt = 0 then 2 ^ 32 else dlt)

/-- Arm trigger `i` afresh, or refuse it: ARM clears and MISSED is set unless the target is 2 ticks ahead (R79). -/
def Dev.trigArmNow (d : Dev) (i : Nat) : Dev :=
  let T := firstTick d.time.tick (d.rd Reg.TRIG_TICK.TICK i)
  if T < d.time.tick + 2 then
    let d := { d with time := { d.time with trigT := d.time.trigT.erase i } }
    (d.wr Reg.TRIG_CTL.ARM 0 i).raiseIn Stk.TRIG_CTL.MISSED i 0 0 0xFF i []
  else { d with time := { d.time with trigT := d.time.trigT.put i T } }.wr Reg.TRIG_CTL.ARM 1 i

/-- TRIG_ARM (R79): a write of TRIG_CTL[i]; a one in MISSED clears it. -/
def Dev.trigCtlWrite (d : Dev) (i v : Nat) : Dev :=
  let d := d.wr Reg.TRIG_CTL.ACTION (v / 2) i
  let d := d.wr Reg.TRIG_CTL.GROUP (v / 4) i
  let d := d.wr Reg.TRIG_CTL.PERIOD (v / 2 ^ 16) i
  let d := if bitOf v 8 then d.wr Reg.TRIG_CTL.MISSED 0 i else d
  if bitOf v 0 then d.trigArmNow i
  else { d with time := { d.time with trigT := d.time.trigT.erase i } }.wr Reg.TRIG_CTL.ARM 0 i

/-- TRIG_TICK_WRITE (R79): a write while ARM is 1 arms the trigger afresh. -/
def Dev.trigTickWrite (d : Dev) (i v : Nat) : Dev :=
  let d := d.wr Reg.TRIG_TICK.TICK v i
  if d.on Reg.TRIG_CTL.ARM i then d.trigArmNow i else d

/-! ### The real-time clock (R80 to R83) -/

/-- The RTC's live count in units of 1/32,768 s. -/
def Dev.rtcUnits (d : Dev) : Nat := d.time.rtc.units + (d.time.cnt - d.time.rtc.at0) * 32768 / 1000000000

/-- Set the RTC's live count. -/
def Dev.setRtc (d : Dev) (units : Nat) : Dev :=
  { d with time := { d.time with rtc := { d.time.rtc with units, at0 := d.time.cnt } } }

/-- Corrected time in RTC units. -/
def unitsOfNs (t : Int) : Nat := (Int.fdiv (t * 32768) 1000000000).toNat

/-- RTC_CHECK (R80): with an outside source the RTC is aligned if it differs by more than 1 ms or was not valid. -/
def Dev.rtcCheck (d : Dev) (c : Nat) : Dev :=
  let d := d.advance c
  let src := d.rd Reg.TIME_STAT.SRC
  if !d.on Reg.TIME_STAT.VALID || src < 2 || src > 4 then d else
  let diff : Int := (d.rtcUnits : Int) * 1000000000 - d.ct * 32768
  let d := if diff.natAbs > 32768 * 1000000 || !d.on Reg.RTC_STAT.VALID then d.setRtc (unitsOfNs d.ct) else d
  (d.wr Reg.RTC_STAT.VALID 1).wr Reg.RTC_LASTSYNC.SEC (d.rtcUnits / 32768)

/-- The default curve of R81, 0.034 × (T − 25)² ppm, in 0.01 ppm, at a temperature in 0.1 °C. DESIGN CHOICE (log entry 233): it is
rounded down to a whole 0.01 ppm. -/
def defaultCurve (t10 : Int) : Int := Int.fdiv (34 * (t10 - 250) * (t10 - 250)) 1000

/-- The correction in 0.01 ppm at a temperature in 0.1 °C: the curve, linearly interpolated and held at its ends; the default
until a curve is saved. DESIGN CHOICE (log entry 233): an interpolated value is rounded down to a whole 0.01 ppm. -/
def Dev.curveAt (d : Dev) (t10 : Int) : Int :=
  if d.vault.curve.read.isNone then defaultCurve t10 else
  let p := fun (i : Nat) => sgn 16 (d.rd (Reg.RTC_CURVE.PPM.nth i))
  if t10 ≤ -400 then p 0 else if t10 ≥ 1100 then p 15 else
  let i := ((t10 + 400) / 100).toNat
  p i + Int.fdiv ((p (i + 1) - p i) * ((t10 + 400) % 100)) 100

/-- RTC_COMPENSATE (R81): every second on main power, every 60 s on VBAT, the sensor is read and counts are inserted or
deleted through the fractional accumulator. -/
def Dev.rtcCompensate (d : Dev) (c : Nat) (t10 : Int) (onVbat : Bool) : Dev :=
  let d := (d.advance c).wr Reg.RTC_STAT.TEMP (wrapI 16 t10)
  let acc := d.time.rtc.acc + d.curveAt t10 * (if onVbat then 60 else 1) * 32768
  let n := Int.fdiv acc 100000000
  let d := d.setRtc ((d.rtcUnits : Int) + n).toNat
  { d with time := { d.time with rtc := { d.time.rtc with acc := acc - n * 100000000 } } }

/-- A write to the locked RTC is ignored (R83). -/
def Dev.rtcLocked (d : Dev) : Dev := d.raise Stk.TIME.RTC_LOCK_WR

/-- RTC_CAPTURE (R82): the live count goes into the shadows, which freeze; ignored while frozen. -/
def Dev.rtcCapture (d : Dev) (c : Nat) : Dev :=
  let d := d.advance c
  if d.on Reg.RTC_STAT.LOCKED then d.rtcLocked
  else if d.on Reg.RTC_STAT.FROZEN then d else
  let q := d.rtcUnits
  let d := d.wr Reg.RTC_SUB.SUB (q % 32768)
  let d := (d.wr Reg.RTC_SEC_LO.SEC (q / 32768)).wr Reg.RTC_SEC_HI.SEC_HI (q / 32768 / 2 ^ 32)
  d.wr Reg.RTC_STAT.FROZEN 1

/-- RTC_SEC_HI_READ (R82): a read by the house seat ends the freeze. -/
def Dev.rtcSecHiRead (d : Dev) (n : Nat) : Dev :=
  let d := d.answer (d.rd Reg.RTC_SEC_HI.SEC_HI)
  if n = 0 then d.wr Reg.RTC_STAT.FROZEN 0 else d

/-- RTC_CURVE_SAVE (R81): the curve goes to the stale of its two copies in the vault's NV array (R260). -/
def Dev.rtcCurveSave (d : Dev) : Dev :=
  if d.on Reg.RTC_STAT.LOCKED then d.rtcLocked else
  { d with vault := { d.vault with
    curve := d.vault.curve.write ((List.range 16).flatMap fun i => leBytes 2 (d.rd (Reg.RTC_CURVE.PPM.nth i))) } }

/-- A write of RTC_CTL. -/
def Dev.rtcCtl (d : Dev) (c v : Nat) : Dev :=
  if d.on Reg.RTC_STAT.LOCKED then d.rtcLocked else
  let d := if bitOf v 0 then d.rtcCapture c else d
  if bitOf v 1 then d.rtcCurveSave else d

/-- A write of RTC_CURVE[i] (R81, R83). -/
def Dev.rtcCurveWrite (d : Dev) (i v : Nat) : Dev :=
  if d.on Reg.RTC_STAT.LOCKED then d.rtcLocked else d.wr (Reg.RTC_CURVE.PPM.nth i) v

/-- At every start the saved curve is copied into the RTC domain (R81); with none saved RTC_CURVE keeps what VBAT holds. -/
def Dev.rtcCurveLoad (d : Dev) : Dev :=
  match d.vault.curve.read with
  | some b => (List.range 16).foldl (fun d i => d.wr (Reg.RTC_CURVE.PPM.nth i) (u b (2 * i) 2)) d
  | none => d

/-- XTAL_STOP (R83): the crystal stops, or VBAT falls below retention, so RTC_STAT.VALID clears. What VBAT alone held is
lost with it: the count, TIME_UTC_OFS (R70), an unsaved curve (R81) and the last-gasp cell (R395). DESIGN CHOICE (log entry 234):
RTC_CURVE then holds the saved curve, or zeros. -/
def Dev.xtalStop (d : Dev) (vbatLost : Bool) : Dev :=
  let d := d.wr Reg.RTC_STAT.VALID 0
  if !vbatLost then d else
  let d := ((d.wr Reg.TIME_UTC_OFS.OFS 37).wr Reg.TIME_UTC_OFS.PEND 0).wr Reg.TIME_UTC_OFS.DIR 0
  let d := { d with
    evt := { d.evt with lastGasp := none }
    time := { d.time with rtc := { d.time.rtc with units := 0, at0 := d.time.cnt, acc := 0 } } }
  ((List.range 16).foldl (fun d i => d.wr (Reg.RTC_CURVE.PPM.nth i) 0) d).rtcCurveLoad

/-- The RTC interface is locked before the switch to VBAT (R83). -/
def Dev.rtcLock (d : Dev) : Dev := d.wr Reg.RTC_STAT.LOCKED 1

/-- The holdover test of R77: VALID, with source RTC, stands if the RTC was valid and its age is within the limit; TIME_HOLD starts
from the age, or saturated. -/
def Dev.holdTest (d : Dev) : Dev :=
  let ok := d.time.rtcAge.elim false fun a => decide (a ≤ d.holdLimit)
  let d := { d with time := { d.time with holdBase := if ok then d.time.rtcAge.getD 0 else 0xFFFFFFFF } }
  (d.wr Reg.TIME_STAT.VALID (b2n ok)).wr Reg.TIME_STAT.SRC (b2n ok)

/-- R77: at start corrected time is loaded from the RTC, and the holdover test is made. The lock of R83 is released afterwards. -/
def Dev.timeLoadFromRtc (d : Dev) : Dev :=
  let sec := d.rtcUnits / 32768
  let ns : Int := (d.rtcUnits * 1000000000 / 32768 : Nat)
  let age := (sec + 2 ^ 32 - d.rd Reg.RTC_LASTSYNC.SEC) % 2 ^ 32
  let d := { d with time := { d.time with
    ofs := wrap64 (ns - d.time.cnt), ca := d.time.cnt, holdAt := d.time.cnt
    rtcAge := if d.on Reg.RTC_STAT.VALID then some age else none } }
  d.leapBack.holdTest.wr Reg.RTC_STAT.LOCKED 0

/-- The canvas loaded at a start from L0 or L1 gives the holdover limit, with which the test of R77 is made anew while no source has
set the time since. DEDUCED (log entry 235): before it is loaded the default limit of R75 stands. -/
def Dev.holdRetest (d : Dev) : Dev := if d.rd Reg.TIME_STAT.SRC < 2 then d.holdTest else d

end Sys2Proof.Machine
end

