-- ==== Sys2Proof/Machine/L4.lean ====
section
/-!
DEFINITION. L4, the reset of one seat, the discarding of fences, and the opening of a seat (R15, R17, R29, R174, R256, R285,
R294, R295).
-/

namespace Sys2Proof.Machine

/-- The cause of the most recent reset (R369). -/
def Dev.resetCause (d : Dev) (source level : Nat) (deferred escalated : Bool) : Dev :=
  (((d.wr Reg.GLB_RESET_CAUSE.SOURCE source).wr Reg.GLB_RESET_CAUSE.LEVEL level).wr
    Reg.GLB_RESET_CAUSE.DEFERRED (b2n deferred)).wr Reg.GLB_RESET_CAUSE.ESCALATED (b2n escalated)

/-- A seat's outstanding fences are discarded without completing (R29). -/
def Dev.discardFences (d : Dev) (n : Nat) : Dev :=
  let lost := !(d.seat n).fences.isEmpty
  let d := (d.onSeat n fun s => { s with fences := [], fencesDue := 0 }).wr Reg.LDG_FENCE_STAT.OUTSTANDING 0 0 n
  if lost then d.raiseCopy Stk.LDG_FENCE_STAT.LOST n else d

/-- A phase of a campaign before DONE (R256). -/
def campPhase (st : Nat) : Bool := 3 ≤ st && st ≤ 6

/-- A running campaign goes to PAUSED, keeping its phase (R256). -/
def CampSt.pause (c : CampSt) : CampSt := if campPhase c.state then { c with paused := c.state, state := 8 } else c

/-- A campaign as it resumes after a restart or a takeover: the message in flight may be sent again (R257). -/
def CampSt.restart (c : CampSt) : CampSt := { c with targets := c.targets.map fun t => { t with waiting := false } }

/-- A campaign as a reset of L2 or deeper leaves it: CAMP_QREF and CAMP_VFAIL read zero (R259). -/
def CampSt.afterReset (c : CampSt) : CampSt := { c.restart with refused := 0, expired := 0, vfail := 0 }

/-- A campaign's state changes; the change travels in the tick's journal deltas (R257). -/
def Dev.onCamp (d : Dev) (i : Nat) (g : CampSt → CampSt) : Dev :=
  let c := g (SMap.get (fun _ => {}) d.camp.camps i)
  { d with
    camp := { d.camp with camps := SMap.set (fun _ => {}) d.camp.camps i c }
    ldg := { d.ldg with jrn := { d.ldg.jrn with camps := SMap.put d.ldg.jrn.camps i c } } }

/-- Every running campaign of a seat is paused. -/
def Dev.pauseSeatCamps (d : Dev) (n : Nat) : Dev :=
  (d.camp.camps.filter fun c => c.2.owner == n && campPhase c.2.state).foldl (fun d c => d.onCamp c.1 CampSt.pause) d

/-- The per-seat counters that L4 clears: register offsets of entry 0, each of eight words' stride (R174, R246). -/
def seatCounters : List Nat :=
  [0xE1000, 0xE1004, 0xE1008, 0xE100C, 0xE1010, 0xE1014, 0x101000, 0x101004, 0x101008, 0x10100C, 0x101010,
   0x121000, 0x121004, 0x121008, 0x12100C, 0x121010, 0x121014, 0x141000, 0x141004, 0x141008, 0x14100C, 0x141010, 0x141014]

/-- A seat's counters read zero again. -/
def Dev.clearSeatCounters (d : Dev) (n : Nat) : Dev :=
  ((seatCounters.foldl (fun d o => d.setWord (o + 0x20 * n) 0 0) d).wr Reg.SEAT_VIOL.COUNT 0 n).wr Reg.UPL_NOTGEN.COUNT 0 0 n

/-- A seat's ring registers read zero again. -/
def Dev.clearRings (d : Dev) (n : Nat) : Dev :=
  (List.range 12).foldl (fun d j => d.setWord (0x180010 + 0x40 * n + 4 * j) 0 0) d

/-- What L4 takes from a seat beside its registers: staging, markers, readouts and what was being sent. -/
def SeatSt.l4 (s : SeatSt) : SeatSt :=
  { s with
    staging := [], markers := [], marks := [], retx := none, since := [], ords := [], lastTag := [], dgram := [], deficit := []
    readouts := [], blocks := [], ringAdded := [] }

/-- The effects of L4 on a seat (R295). -/
def Dev.seatReset (d : Dev) (n : Nat) : Dev :=
  let d := (d.discardFences n).wr Reg.LDG_FENCE_STAT.DONE_TAG 0 0 n
  let d := (d.pauseSeatCamps n).clearSeatCounters n
  let d := (d.wr Reg.UPL_STAT.RETX_BUSY 0 0 n).wr Reg.LDG_RERATE_CTL.BUSY 0 0 n
  let d := { d with ldg := { d.ldg with rerate := SMap.set (fun _ => 0) d.ldg.rerate n 0 } }
  let d := (((d.onSeat n fun s => s.l4).clearRings n).mbxSeatReset n).unlatch n
  d.wr Reg.SEAT_STAT.STATE 2 n

/-- L4 of seat `n` begins (R295), unless a deeper reset is under way, the seat is closed, or L4 of it already runs (R368). -/
def Dev.l4 (d : Dev) (n : Nat) : Dev :=
  if d.sys.phase ≠ .up ∨ d.rd Reg.SEAT_STAT.STATE n ≠ 1 then d else (d.resetCause 6 4 false false).seatReset n

/-- SEAT_CTL is written with L4 set by seat `n` or seat 0 (R295). -/
def Dev.seatCtl (d : Dev) (n v : Nat) : Dev := if bitOf v 0 then d.l4 n else d

/-- A seat is opened (R15, R17): its opening count advances and its admission sequence starts at 0. -/
def Dev.openSeat (d : Dev) (n : Nat) : Dev :=
  (d.onSeat n fun s => { s with opening := (s.opening + 1) % 2 ^ 16, nextAseq := 0 }).wr Reg.SEAT_STAT.STATE 1 n

/-- SEAT_REOPEN (R295): the seat reopens with L4_SEEN set, and bit 28 of its mailbox 0 is rung. -/
def Dev.seatReopen (d : Dev) (n : Nat) : Dev :=
  if d.sys.phase ≠ .up ∨ d.rd Reg.SEAT_STAT.STATE n ≠ 2 then d
  else ((d.openSeat n).raiseSeat Stk.SEAT_STAT.L4_SEEN n).ringSeat n 28

/-- A seat's admission sequence number reaches 2^48 − 1 (R15): L4 of the seat, and an event. -/
def Dev.seqCheck (d : Dev) (n : Nat) : Dev :=
  if (d.seat n).nextAseq < 2 ^ 48 - 1 then d else (d.record 0x1840 4 n n []).l4 n

/-- An FLR of a function gives its MSI-X table and PBA their reset values; any other L4 leaves them (R405). -/
def Dev.clearMsix (d : Dev) (n : Nat) : Dev := d.onSeat n fun s => { s with msix := [] }

/-- VF_FLR (R285): an FLR of VF `n` performs L4 of seat `n`. -/
def Dev.vfFlr (d : Dev) (n : Nat) : Dev := if 0 < n ∧ n < 64 then (d.clearMsix n).l4 n else d

/-- PF_FLR (R285): VF Enable clears; L4 of seat 0 and of every seat with PCIE set. -/
def Dev.pfFlr (d : Dev) : Dev :=
  let ns := (List.range 64).filter fun n => n == 0 || d.cfg.seatPcie n
  let d := ns.foldl Dev.l4 ({ d with sys := { d.sys with vfEnable := false } }.clearMsix 0)
  d.raise Stk.SEAT.PF_FLR

end Sys2Proof.Machine
end

