-- ==== Sys2Proof/Machine/Ftl.lean ====
section
/-!
DEFINITION. The flash translation layer (R315 to R324): programming pages, folding, collection, wear levelling, bad
blocks, the checkpoint pass, and loading or rebuilding the map at start.
-/

namespace Sys2Proof.Machine

/-- Blocks in one-bit mode (R315). -/
def oneBitBlocks : Nat := 2048

/-- TLC blocks: 512 GiB of raw TLC in blocks of 1,536 pages of 16 KiB, less the one-bit blocks (DEDUCED, log entry 40). -/
def tlcBlocks : Nat := 512 * 1024 / 24 - oneBitBlocks

/-- Spare blocks for grown bad blocks: 2 % of the TLC blocks (R315). -/
def spareBlocks : Nat := tlcBlocks * 2 / 100

/-- Pages of a block (R315). -/
def blockPages (oneBit : Bool) : Nat := if oneBit then 512 else 1536

/-- The streams of R316. -/
def sHOT : Nat := 0
def sWARM : Nat := 1
def sCOLD : Nat := 2
def sMAP : Nat := 3

/-- First logical pages of the areas of R316 (DESIGN CHOICE, log entry 41). -/
def lpaJournal : Nat := 0
def lpaCkpt : Nat := 0x00400000
def lpaHistory : Nat := 0x03000000
def lpaEvents : Nat := 0x05000000
def lpaImages : Nat := 0x06000000
def lpaCanvas : Nat := 0x07000000
def lpaVault : Nat := 0x07100000
def lpaMap : Nat := 0x07200000

/-- Pages of the journal area: 12 GiB. -/
def journalPages : Nat := 786432

/-- Pages of the interval history area: 304 GiB. -/
def historyPages : Nat := 19922944

/-- Pages of the event log area: 256 MiB. -/
def eventPages : Nat := 16384

/-- Pages of a checkpoint pass (R319). -/
def passPages : Nat := 139264

/-- A block that has never been written. -/
def block0 (id : Nat) : NandBlock := { oneBit := id < oneBitBlocks }

/-- The block of an id. -/
def FtlSt.block (f : FtlSt) (id : Nat) : NandBlock := SMap.get block0 f.blocks id

/-- Change a block. -/
def FtlSt.onBlock (f : FtlSt) (id : Nat) (g : NandBlock → NandBlock) : FtlSt :=
  { f with blocks := SMap.upd block0 f.blocks id g }

/-- Spare blocks left (R324). -/
def FtlSt.sparesLeft (f : FtlSt) : Nat := spareBlocks - f.grown

/-- Ids of the TLC region in use: a spare comes in for every grown bad block. -/
def FtlSt.tlcEnd (f : FtlSt) : Nat := oneBitBlocks + tlcBlocks - spareBlocks + min f.grown spareBlocks

/-- Free blocks of a region. -/
def FtlSt.freeCount (f : FtlSt) (oneBit : Bool) : Nat :=
  let used := (f.blocks.filter fun b => b.2.oneBit == oneBit && b.2.st != .free).length
  if oneBit then oneBitBlocks - used else f.tlcEnd - oneBitBlocks - used

/-- The next free block: one-bit blocks in rotation, TLC blocks in order of number. -/
def FtlSt.nextFree (f : FtlSt) (oneBit : Bool) : Option Nat :=
  if oneBit then
    ((List.range oneBitBlocks).map fun i => (f.rot + i) % oneBitBlocks).find? fun id => (f.block id).st == .free
  else
    ((List.range (f.tlcEnd - oneBitBlocks)).map (· + oneBitBlocks)).find? fun id => (f.block id).st == .free

/-- The open block of a stream in a region, opened now if none is. -/
def FtlSt.openBlock (f : FtlSt) (oneBit : Bool) (stream : Nat) : FtlSt × Option Nat :=
  match f.blocks.find? fun b => b.2.oneBit == oneBit && b.2.st == .opened && b.2.stream == stream with
  | some b => (f, some b.1)
  | none =>
    match f.nextFree oneBit with
    | none => (f, none)
    | some id =>
      ({ f.onBlock id fun b => { b with st := .opened, stream, pages := [], reads := 0, born := f.seq } with
          rot := if oneBit then (id + 1) % oneBitBlocks else f.rot }, some id)

/-- Mark the page that the map gives for a logical page as no longer valid. -/
def FtlSt.invalidate (f : FtlSt) (lpa : Nat) : FtlSt :=
  match SMap.find f.map lpa with
  | none => f
  | some (id, i) =>
    { f.onBlock id fun b => { b with pages := b.pages.modify i fun p => { p with valid := false } } with
        map := f.map.erase lpa }

/-- Append a page to the open block of a stream and map it; a full block closes. -/
def FtlSt.append (f : FtlSt) (oneBit : Bool) (p : Page) : FtlSt :=
  let r := f.openBlock oneBit p.stream
  match r.2 with
  | none => r.1
  | some id =>
    let b := r.1.block id
    let i := b.pages.length
    let f := (r.1.invalidate p.lpa).onBlock id fun b =>
      { b with pages := b.pages ++ [{ p with erases := min b.erases 0xFFFF }]
               st := if i + 1 ≥ blockPages oneBit then .closed else .opened }
    { f with map := f.map.put p.lpa (id, i) }

/-- Is a logical page interval history or event log, which bypass a low buffer (R318)? -/
def bypasses (lpa : Nat) : Bool := lpaHistory ≤ lpa && lpa < lpaEvents + eventPages

/-- Write the FTL's registers from its state. -/
def Dev.ftlRegs (d : Dev) : Dev :=
  let f := d.ftl
  let er := (f.blocks.filter fun b => !b.2.oneBit && b.2.st != .bad).map (·.2.erases)
  let all := if er.length < f.tlcEnd - oneBitBlocks then 0 :: er else er
  let d := d.wr Reg.MEM_FTL_BLOCKS.SPARE f.sparesLeft
  let d := d.wr Reg.MEM_FTL_BLOCKS.BAD (min (f.blocks.filter fun b => b.2.st == .bad).length 0xFFFF)
  let d := d.wr Reg.MEM_FTL_FREE.FREE1 (f.freeCount true)
  let d := d.wr Reg.MEM_FTL_FREE.FREE_TLC (min (f.freeCount false) 0xFFFF)
  let d := d.wr Reg.MEM_FTL_WEAR.MAX (min (all.foldl max 0) 0xFFFF)
  let d := d.wr Reg.MEM_FTL_WEAR.MIN (min (all.foldl min (all.headD 0)) 0xFFFF)
  d.wr Reg.MEM_FTL_CKPT.PAGE f.ckptPage

/-- Program one logical page of a stream (R316 to R318): HOT goes into the one-bit buffer, but interval history and events
bypass it while fewer than 32 one-bit blocks are free. The first program after start writes the open record. -/
def Dev.nandWrite (d : Dev) (lpa stream ctick : Nat) : Dev :=
  let f := d.ftl
  let low := stream == sHOT && bypasses lpa && f.freeCount true < 32
  let p : Page := { lpa, seq := f.seq, stream, ctick, wtick := d.time.tick }
  let f := { (f.append (stream == sHOT && !low) p) with seq := f.seq + 1, openRec := true }
  let d := { d with ftl := f }.ftlRegs
  if low then d.raise Stk.MEM.BUF_LOW else d

/-- Program `n` successive logical pages. -/
def Dev.nandWriteN (d : Dev) (lpa stream ctick : Nat) : Nat → Dev
  | 0 => d
  | n + 1 => (d.nandWrite lpa stream ctick).nandWriteN (lpa + 1) stream ctick n

/-- Pages that a number of bytes takes. -/
def pagesOf (bytes : Nat) : Nat := (bytes + 16383) / 16384

/-- May the FTL serve logical reads and writes (R320)? -/
def Dev.ftlReady (d : Dev) : Bool :=
  d.rd Reg.MEM_FTL_STAT.STATE == 0 || d.rd Reg.MEM_FTL_STAT.STATE == 3

/-- Does the FTL refuse COLD writes (R324)? -/
def Dev.ftlReadonly (d : Dev) : Bool := d.rd Reg.MEM_FTL_STAT.STATE == 3

/-- Write a journal page of a tick (R316, R317). -/
def Dev.journalPage (d : Dev) (tick : Nat) : Dev :=
  let lpa := lpaJournal + d.ftl.nextJournal
  let d := d.nandWrite lpa sHOT tick
  { d with ftl := { d.ftl with journal := d.ftl.journal ++ [(tick, lpa)]
                               nextJournal := (d.ftl.nextJournal + 1) % journalPages } }

/-- Erase a block. -/
def FtlSt.eraseBlock (f : FtlSt) (id : Nat) : FtlSt :=
  f.onBlock id fun b => { b with st := .free, pages := [], erases := b.erases + 1, reads := 0 }

/-- Rewrite the valid pages of a block with new sequence numbers, each into the stream that `g` gives it. -/
def FtlSt.rewrite (f : FtlSt) (id tick : Nat) (oneBit : Bool) (g : Page → Nat) : FtlSt :=
  ((f.block id).pages.filter (·.valid)).foldl (fun f p =>
    { f.append oneBit { p with seq := f.seq, stream := g p, folded := false, wtick := tick } with seq := f.seq + 1 }) f

/-- The listed block with the least measure among those that pass a test. -/
def FtlSt.least (f : FtlSt) (ok : NandBlock → Bool) (m : NandBlock → Nat) : Option Nat :=
  (f.blocks.foldl (fun (a : Option (Nat × Nat)) b =>
    if ok b.2 then
      match a with
      | some (_, v) => if m b.2 < v then some (b.1, m b.2) else a
      | none => some (b.1, m b.2)
    else a) none).map (·.1)

/-- FOLD (R318): with fewer than 256 free one-bit blocks, the oldest is copied into TLC HOT blocks, keeping LPA and SEQ,
and then erased; a block with no valid page is erased without a copy. -/
def Dev.fold (d : Dev) : Dev :=
  let f := d.ftl
  if f.freeCount true ≥ 256 then d else
  match f.least (fun b => b.oneBit && b.st != .free && b.st != .bad) (·.born) with
  | none => d
  | some id =>
    let f := ((f.block id).pages.filter (·.valid)).foldl (fun f p => f.append false { p with folded := true }) f
    { d with ftl := { f.eraseBlock id with openRec := true } }.ftlRegs

/-- GARBAGE_COLLECT (R322): the closed block of the stream with the fewest valid pages is rewritten within its stream;
event-log pages older than 24 h go to COLD. -/
def Dev.garbageCollect (d : Dev) (stream : Nat) : Dev :=
  let f := d.ftl
  match f.least (fun b => !b.oneBit && b.st == .closed && b.stream == stream)
      (fun b => (b.pages.filter (·.valid)).length) with
  | none => d
  | some id =>
    let day := 86400 * 1000000000 / d.tickNs
    let f := f.rewrite id d.time.tick false fun p =>
      if lpaEvents ≤ p.lpa && p.lpa < lpaEvents + eventPages && p.wtick + day < d.time.tick then sCOLD else stream
    { d with ftl := { f.eraseBlock id with openRec := true } }.ftlRegs

/-- Highest and lowest erase count of the good TLC blocks; a block never changed counts 0. -/
def FtlSt.wearSpread (f : FtlSt) : Nat × Nat :=
  let er := (f.blocks.filter fun b => !b.2.oneBit && b.2.st != .bad).map (·.2.erases)
  let all := if er.length < f.tlcEnd - oneBitBlocks then 0 :: er else er
  (all.foldl max 0, all.foldl min (all.headD 0))

/-- WEAR_LEVEL_MOVE (R323): with a spread above 200, and until it is 150 or less, the COLD data of the least-erased block
moves onto the most-erased free block; at most one move starts in 100 ticks. -/
def Dev.wearLevelMove (d : Dev) : Dev :=
  let f := d.ftl
  let w := f.wearSpread
  let on := if f.wearOn then w.1 - w.2 > 150 else w.1 - w.2 > 200
  let d0 := { d with ftl := { f with wearOn := on } }
  if !on || (f.wearTick != 0 && d.time.tick < f.wearTick + 100) then d0 else
  match f.least (fun b => !b.oneBit && b.st == .closed && b.stream == sCOLD) (·.erases),
        f.least (fun b => !b.oneBit && b.st == .free) (fun b => 0xFFFFFFFF - b.erases) with
  | some src, some dst =>
    let ps := ((f.block src).pages.filter (·.valid))
    let g := f.onBlock dst fun b => { b with st := .closed, stream := sCOLD, born := f.seq, pages := [] }
    let g := ps.foldl (fun (g : FtlSt) p =>
      let i := (g.block dst).pages.length
      let g := (g.invalidate p.lpa).onBlock dst fun b =>
        { b with pages := b.pages ++ [{ p with seq := g.seq, folded := false, wtick := d.time.tick, erases := min b.erases 0xFFFF }] }
      { g with seq := g.seq + 1, map := g.map.put p.lpa (dst, i) }) g
    { d0 with ftl := { g.eraseBlock src with wearOn := on, wearTick := d.time.tick, openRec := true } }.ftlRegs
  | _, _ => d0

/-- NAND_PROGRAM_FAIL (R324): the block is retired as grown bad and its valid pages are rewritten elsewhere; spares below
0.5 % raise SPARE_LOW, and with none left the FTL refuses COLD writes. -/
def Dev.nandProgramFail (d : Dev) (id : Nat) : Dev :=
  let f := d.ftl
  let b := f.block id
  if b.st == .bad || id ≥ oneBitBlocks + tlcBlocks then d else
  let f := f.onBlock id fun b => { b with st := .bad }
  let f := { f with grown := if b.oneBit then f.grown else f.grown + 1 }
  let f := f.rewrite id d.time.tick b.oneBit (·.stream)
  let d := { d with ftl := { f with openRec := true } }.ftlRegs.raise Stk.MEM.GROWN_BAD
  let left := d.ftl.sparesLeft
  let d := if left * 200 < tlcBlocks then d.raise Stk.MEM.SPARE_LOW else d
  if left = 0 then (d.wr Reg.MEM_FTL_STAT.STATE 3).raise Stk.MEM.READONLY else d

/-- NAND_REFRESH (R324): a block read 100,000 times, or sampled above 75 % of the LDPC limit, is rewritten to its stream. -/
def Dev.nandRefresh (d : Dev) (id : Nat) (highErrors : Bool) : Dev :=
  let b := d.ftl.block id
  if (b.reads < 100000 && !highErrors) || b.st == .free || b.st == .bad then d else
  let f := d.ftl.onBlock id fun b => { b with st := .closed }
  let f := f.rewrite id d.time.tick b.oneBit (·.stream)
  { d with ftl := { f.eraseBlock id with openRec := true } }.ftlRegs

/-- CHECKPOINT_PASS_DONE (R319): a completed pass trims the journal pages of ticks before it began; the next begins. -/
def Dev.checkpointPassDone (d : Dev) : Dev :=
  let f := d.ftl
  let gone := f.journal.filter fun j => j.1 < f.passStart
  let f := gone.foldl (fun f j => f.invalidate j.2) f
  let d := { d with ftl := { f with
    journal := f.journal.filter fun j => !(j.1 < f.passStart)
    ckptPage := 0, passStart := d.time.tick } }
  (d.count Reg.MEM_FTL_CKPT.PASSES).ftlRegs

/-- A clean stop writes the map checkpoint as the last page programmed (R320). -/
def Dev.ftlCleanStop (d : Dev) : Dev :=
  if d.ftlReady then { d with ftl := { d.ftl with ckptMap := some d.ftl.map, openRec := false, seq := d.ftl.seq + 1 } }
  else d

/-- The FTL begins to load or rebuild its map at start (R320): STATE reads MAPLOAD, or SCAN after an unclean stop. -/
def Dev.ftlBegin (d : Dev) : Dev :=
  let clean := d.ftl.ckptMap.isSome && !d.ftl.openRec
  { d with ftl := { d.ftl with map := [], fromDram := false, loadFrom := d.time.tick } }.wr
    Reg.MEM_FTL_STAT.STATE (if clean then 1 else 2)

/-- After an L2 the FTL takes its map from DRAM (R373). -/
def Dev.ftlResume (d : Dev) : Dev :=
  { d with ftl := { d.ftl with fromDram := true, loadFrom := d.time.tick } }.wr Reg.MEM_FTL_STAT.STATE 1

/-- The map is whole: READY, or READONLY with no spare left. -/
def Dev.ftlWhole (d : Dev) : Dev :=
  let d := d.wr Reg.MEM_FTL_STAT.STATE (if d.ftl.sparesLeft = 0 then 3 else 0)
  (d.wr Reg.MEM_FTL_STAT.LOAD_TICKS (min (d.time.tick - d.ftl.loadFrom) 0xFFFF)).ftlRegs

/-- FTL_MAP_LOAD_DONE (R320, R373): the map of the newest valid checkpoint is taken, or after an L2 the one in DRAM. -/
def Dev.ftlMapLoadDone (d : Dev) : Dev :=
  if d.rd Reg.MEM_FTL_STAT.STATE != 1 then d
  else if d.ftl.fromDram then d.ftlWhole else
  match d.ftl.ckptMap with
  | none => d
  | some m => { d with ftl := { d.ftl with map := m } }.ftlWhole

/-- Does page `p` win over `q` for their logical page (R321)? Higher SEQ, and on equal SEQ the one with FOLDED set. -/
def Page.beats (p q : Page) : Bool := p.seq > q.seq || (p.seq == q.seq && p.folded && !q.folded)

/-- The good pages of all blocks, with their places. -/
def FtlSt.allPages (f : FtlSt) : List (Nat × Nat × Page) :=
  f.blocks.flatMap fun b => (b.2.pages.zipIdx.filter (·.1.good)).map fun p => (b.1, p.2, p.1)

/-- Mean erase count of the programmed blocks of a region. -/
def FtlSt.meanErases (f : FtlSt) (oneBit : Bool) : Nat :=
  let er := (f.blocks.filter fun b => b.2.oneBit == oneBit && !b.2.pages.isEmpty).map (·.2.erases)
  if er.isEmpty then 0 else er.foldl (· + ·) 0 / er.length

/-- Rebuild the map from the metadata of every page (R321). -/
def FtlSt.rebuild (f : FtlSt) : FtlSt :=
  let ps := f.allPages
  let best := ps.foldl (fun (m : SMap (Nat × Nat × Page)) x =>
    match SMap.find m x.2.2.lpa with
    | some y => if x.2.2.beats y.2.2 then m.put x.2.2.lpa x else m
    | none => m.put x.2.2.lpa x) []
  let map := best.map fun e => (e.1, (e.2.1, e.2.2.1))
  let blocks := f.blocks.map fun b =>
    (b.1, { b.2 with
      erases := match b.2.pages.head? with
        | some p => p.erases + 1
        | none => f.meanErases b.2.oneBit
      pages := b.2.pages.zipIdx.map fun p => { p.1 with valid := SMap.find map p.1.lpa == some (b.1, p.2) } })
  { f with
    map, blocks
    seq := (ps.foldl (fun a x => max a x.2.2.seq) 0) + 1
    journal := (best.filter fun e => e.1 < lpaJournal + journalPages).map fun e => (e.2.2.2.ctick, e.1) }

/-- FTL_MAP_REBUILD_DONE (R320, R321): the full scan takes every page that decodes and whose seal matches; `bad` are the
places of pages that fail either check. -/
def Dev.ftlMapRebuildDone (d : Dev) (bad : List (Nat × Nat)) : Dev :=
  if d.rd Reg.MEM_FTL_STAT.STATE != 2 then d else
  let f := bad.foldl (fun (f : FtlSt) q =>
    f.onBlock q.1 fun b => { b with pages := b.pages.modify q.2 fun p => { p with good := false } }) d.ftl
  ({ d with ftl := f.rebuild }.ftlWhole).raise Stk.MEM.FULL_SCAN

end Sys2Proof.Machine
end

