-- ==== Sys2Proof/Machine/Ports.lean ====
section
/-!
DEFINITION. Field ports: faults and isolation, the ingest FIFOs and their banks, flushing, PAUSE, the port and group tiers of
the arbiter, and the edge inputs (R85 to R104). Frames pass to the pool in Ingest.
-/

namespace Sys2Proof.Machine

/-- What a port holds. -/
def Dev.port (d : Dev) (p : Nat) : PortSt := SMap.get (fun _ => {}) d.ports p

/-- Change what a port holds. -/
def Dev.onPort (d : Dev) (p : Nat) (g : PortSt → PortSt) : Dev := { d with ports := SMap.upd (fun _ => {}) d.ports p g }

/-- A port's mode (R85). -/
def Dev.mode (d : Dev) (p : Nat) : Nat := d.cfg.portMode p

/-- Is a port isolated (R90)? -/
def Dev.isolated (d : Dev) (p : Nat) : Bool := d.rd Reg.FP_STAT.LINK p == 3

/-- The device holds the transmit grant (R142). -/
def Dev.granted (d : Dev) : Bool := d.on Reg.TXG_STAT.OWN

/-- A port that runs the radio MAC. -/
def Dev.isRadio (d : Dev) (p : Nat) : Bool := d.mode p == Canvas.mRADIO && !d.isolated p

/-! ### The balls of a port (R86, R378) -/

/-- The weak pull of a ball: up on the N legs, down on the P legs. -/
def pullUp (b : Ball) : Bool := b == .aN || b == .bN

/-- Is a ball an output of a mode (R86)? SDIO, which is bidirectional, is one while a transaction writes. -/
def ballIsOutput (mode : Nat) (b : Ball) : Bool :=
  if mode = Canvas.mPLC ∨ mode = Canvas.mFIELDLINK then b == .bP || b == .bN
  else if mode = Canvas.mRADIO then b == .aP || b == .aN || b == .bN
  else if mode = Canvas.mSERIAL then b == .aN || b == .bP || b == .bN
  else false

/-- Does the cell of a port drive an output by level when it is idle? SDIO is released, and a transmit pair rests on its
pulls. -/
def ballIdles (mode : Nat) (b : Ball) : Bool :=
  (mode == Canvas.mRADIO && (b == .aP || b == .bN)) || (mode == Canvas.mSERIAL && ballIsOutput mode b)

/-- A ball whose cell drives nothing but the idle level, which is the level of its pull (R86). -/
def ballIdle (mode : Nat) (b : Ball) : Drive := if ballIdles mode b then .level (pullUp b) else .pull (pullUp b)

/-- Are seats open: the device is up, a canvas runs, and the steps of start are behind it (R338)? -/
def Dev.seatsOpen (d : Dev) : Bool := d.sys.phase == .up && d.rd Reg.CAS_STAT.STEP == 0 && d.cv.run.isSome

/-- What holds a ball of a port (R86, R90, R142, R378): its pull until seats open, in reset and while the port is isolated; the
idle levels while the device quiesces, and on a PLC_AFE or RADIO port without the grant; else the traffic of the mode. -/
def Dev.ball (d : Dev) (p : Nat) (b : Ball) : Drive :=
  let m := d.mode p
  if !ballIsOutput m b || d.isolated p then .pull (pullUp b)
  else if d.sys.phase = .quiesced then ballIdle m b
  else if !d.seatsOpen then .pull (pullUp b)
  else if (m == Canvas.mPLC || m == Canvas.mRADIO) && !d.granted then ballIdle m b
  else .line

/-- The four balls of a port. -/
def Dev.portBalls (d : Dev) (p : Nat) : List Drive := [Ball.aP, Ball.aN, Ball.bP, Ball.bN].map (d.ball p)

/-- Show the balls of a port to the world outside. -/
def Dev.showBalls (d : Dev) (p : Nat) : Dev := d.emit (.balls p (d.portBalls p))

/-- The ports that are not OFF. -/
def Dev.livePorts (d : Dev) : List Nat := (List.range 256).filter fun p => d.mode p != Canvas.mOFF

/-- Show the balls of the given ports. -/
def Dev.showBallsOf (d : Dev) (ports : List Nat) : Dev := ports.foldl Dev.showBalls d

/-! ### Banks (R92, R95) -/

/-- Words that a frame takes, in bytes: whole words of 32 bytes (R92). -/
def roundWords (n : Nat) : Nat := (n + 31) / 32 * 32

/-- Words of a frame. -/
def Frame.words (f : Frame) : Nat := (f.bytes.length + 31) / 32

/-- Word `i` of a frame as 256 bits (R92): its bytes fill it from byte 0 upward, and the last word is padded with zeros. -/
def Frame.word (f : Frame) (i : Nat) : Nat := u f.bytes (32 * i) 32

/-- The tag word of word `i` of a frame (R93). -/
def Frame.tag (f : Frame) (i : Nat) : Nat :=
  let last := i + 1 == f.words
  let vbc := if last then f.bytes.length % 32 else 0
  b2n (i == 0) + 2 * b2n last + 4 * vbc +
    (if last then 2 ^ 7 * b2n f.err + 2 ^ 8 * f.bytes.length + 2 ^ 24 * f.chk else 0)

/-- The valid bytes of a word by its tag: a count of 0 means 32 (R93). -/
def validBytes (tag : Nat) : Nat := if bitsOf tag 6 2 = 0 then 32 else bitsOf tag 6 2

/-- What the read side delivers of a frame: the valid bytes of its words in order (R92, R93). -/
def Frame.out (f : Frame) : Bytes :=
  (List.range f.words).flatMap fun i => (leBytes 32 (f.word i)).take (validBytes (f.tag i))

/-- The bank that is filling: FP_STAT.FILL. -/
def Dev.fill (d : Dev) (p : Nat) : Nat := d.rd Reg.FP_STAT.FILL p

/-- A bank of a port. -/
def Dev.bank (d : Dev) (p b : Nat) : List Frame := if b = 0 then (d.port p).bank0 else (d.port p).bank1

/-- Replace a bank of a port. -/
def Dev.setBank (d : Dev) (p b : Nat) (l : List Frame) : Dev :=
  d.onPort p fun s => if b = 0 then { s with bank0 := l } else { s with bank1 := l }

/-- The frames of the draining bank: those the arbiter sees. -/
def Dev.draining (d : Dev) (p : Nat) : List Frame := d.bank p (1 - d.fill p)

/-- The banks change roles. -/
def Dev.swapBanks (d : Dev) (p : Nat) : Dev := d.wr Reg.FP_STAT.FILL (1 - d.fill p) p

/-- Free bytes of a bank. -/
def Dev.bankFree (d : Dev) (p b : Nat) : Nat :=
  d.cfg.bankBytes p - ((d.bank p b).map fun f => roundWords f.bytes.length).foldl (· + ·) 0

/-- Does the filling bank take a MAXFRAME frame (R95)? -/
def Dev.bankTakes (d : Dev) (p : Nat) : Bool := roundWords (d.cfg.maxFrame p) ≤ d.bankFree p (d.fill p)

/-- Would R95 accept a MAXFRAME frame now, at once or after a swap? -/
def Dev.fifoTakes (d : Dev) (p : Nat) : Bool := d.bankTakes p || (d.draining p).isEmpty

/-- When the draining bank empties, the banks swap if the filling bank holds a complete frame (R95). -/
def Dev.swapIfDrained (d : Dev) (p : Nat) : Dev :=
  if (d.draining p).isEmpty && !(d.bank p (d.fill p)).isEmpty then d.swapBanks p else d

/-! ### PAUSE sent and the message pool (R97, R148 to R151, R167) -/

/-- Send PAUSE on a FIELDLINK port. DESIGN CHOICE (log entry 222): FP_STAT.PAUSE_TX stays 1 until the PAUSE with quanta 0, also
where the quanta run out before. -/
def Dev.sendPause (d : Dev) (p : Nat) : Dev := (d.emit (.pause p 0xFFFF)).wr Reg.FP_STAT.PAUSE_TX 1 p

/-- PAUSE_RELEASE (R97): PAUSE with quanta 0 once R95 would accept a MAXFRAME frame, and no pool hold keeps it (R167). -/
def Dev.pauseRelease (d : Dev) (p : Nat) : Dev :=
  if d.on Reg.FP_STAT.PAUSE_TX p && d.fifoTakes p && !d.on Reg.ING_STAT.HOLD then
    (d.emit (.pause p 0)).wr Reg.FP_STAT.PAUSE_TX 0 p
  else d

/-- Buffers of the pool. -/
def poolBuffers : Nat := 32768

/-- Buffers that a frame takes (R148). -/
def bufsOf (len : Nat) : Nat := (len + 2047) / 2048

/-- Buffers charged to a seat. -/
def PoolSt.used (p : PoolSt) (n : Nat) : Nat := SMap.get (fun _ => 0) p.usage n

/-- Buffers of the shared remainder in use: what seats hold beyond their reserves. -/
def Dev.sharedUsed (d : Dev) : Nat := d.pool.usage.foldl (fun a e => a + (e.2 - d.cfg.poolReserve e.1)) 0

/-- The shared remainder (R148). -/
def Canvas.poolShared (c : Canvas) : Nat := poolBuffers - (List.range 64).foldl (fun a n => a + c.poolReserve n) 0

/-- Buffers free to a seat: its reserve first, then the shared remainder. -/
def Dev.poolAvail (d : Dev) (n : Nat) : Nat :=
  (d.cfg.poolReserve n - d.pool.used n) + (d.cfg.poolShared - d.sharedUsed)

/-- Free buffers of the pool. -/
def Dev.poolFree (d : Dev) : Nat := poolBuffers - d.pool.usage.foldl (fun a e => a + e.2) 0

/-- Set what a seat holds; FREE and MIN follow. -/
def Dev.setUsed (d : Dev) (n k : Nat) : Dev :=
  let d := { d with pool := { d.pool with usage := SMap.set (fun _ => 0) d.pool.usage n k } }
  let f := d.poolFree
  (d.wr Reg.ING_POOL.FREE f).wr Reg.ING_POOL.MIN (min f (d.rd Reg.ING_POOL.MIN))

/-- The FIELDLINK ports. -/
def Dev.fieldlinks (d : Dev) : List Nat := (List.range 256).filter fun p => d.mode p == Canvas.mFIELDLINK

/-- POOL_HOLD_ENTER and POOL_HOLD_EXIT (R167). -/
def Dev.poolHold (d : Dev) : Dev :=
  let f := d.poolFree
  if d.on Reg.ING_STAT.HOLD then
    if f > d.rd Reg.ING_HOLD.HIGH then d.fieldlinks.foldl Dev.pauseRelease (d.wr Reg.ING_STAT.HOLD 0) else d
  else if f < d.rd Reg.ING_HOLD.LOW then
    d.fieldlinks.foldl Dev.sendPause ((d.wr Reg.ING_STAT.HOLD 1).raise Stk.ING.HOLD_ENTERED)
  else d

/-- During a pool hold every FIELDLINK port keeps its PAUSE in force (R167). DESIGN CHOICE (log entry 229): it sends PAUSE with
quanta 0xFFFF, which last 33.55 ms, again at every tick boundary. -/
def Dev.pauseKeep (d : Dev) : Dev := if d.on Reg.ING_STAT.HOLD then d.fieldlinks.foldl Dev.sendPause d else d

/-- A write of ING_HOLD: one that makes LOW not below HIGH is ignored (R167). -/
def Dev.ingHoldWrite (d : Dev) (v : Nat) : Dev :=
  if bitsOf v 15 0 < bitsOf v 31 16 then (d.wr Reg.ING_HOLD.LOW (bitsOf v 15 0)).wr Reg.ING_HOLD.HIGH (bitsOf v 31 16) else d

/-- The first buffer from `b` on, in rotation, that is not in use; `fuel` is the number of those in use. -/
def freeFrom (used : List Nat) (b : Nat) : Nat → Nat
  | 0 => b % poolBuffers
  | k + 1 => if used.contains (b % poolBuffers) then freeFrom used (b + 1) k else b % poolBuffers

/-- Use of the free value that says where in the pool a buffer is found (R148 states no order). -/
def useBuffer : Nat := 55

/-- Allocate `k` buffers: which of the free ones is left open (log entry 230). -/
def Dev.pickBufs (d : Dev) : Nat → Dev × List Nat
  | 0 => (d, [])
  | k + 1 =>
    let b := freeFrom d.pool.inUse (d.fresh useBuffer poolBuffers) d.pool.inUse.length
    let r := Dev.pickBufs { d.took with pool := { d.pool with inUse := d.pool.inUse ++ [b] } } k
    (r.1, b :: r.2)

/-- The requesters of the pool, in order of index (R149). -/
inductive Requester where
  | ingress
  | campaign
  | house
  deriving DecidableEq, Repr

/-- The index of a requester (R149). -/
def Requester.idx (r : Requester) : Nat :=
  match r with
  | .ingress => 0
  | .campaign => 1
  | .house => 2

/-- A request of one cycle: who asks, for which seat, and for how many buffers. -/
structure PoolReq where
  by_ : Requester
  seat : Nat
  n : Nat
  deriving DecidableEq, Repr

/-- The seat that a request is charged to: campaign frames and house-core messages to seat 0 (R148). -/
def PoolReq.charge (r : PoolReq) : Nat := if r.by_ = .ingress then r.seat else 0

/-- Allocate the buffers of one request together, if they are free to its seat; a requester left unserved sets POOL_EMPTY
(R148, R149). -/
def Dev.poolTake (d : Dev) (r : PoolReq) : Dev × Option (List Nat) :=
  if r.n ≤ d.poolAvail r.charge then
    let a := d.pickBufs r.n
    ((a.1.setUsed r.charge (a.1.pool.used r.charge + r.n)).poolHold, some a.2)
  else (d.raise Stk.ING.POOL_EMPTY, none)

/-- The requests of one cycle (R149): at most two are served, in order of index; a requester left unserved sees "pool empty" and
asks again. -/
def Dev.poolServe (d : Dev) (rs : List PoolReq) : Dev × List (Requester × Option (List Nat)) :=
  let inOrder := rs.filter (·.by_ == .ingress) ++ rs.filter (·.by_ == .campaign) ++ rs.filter (·.by_ == .house)
  let step := fun (a : Dev × List (Requester × Option (List Nat))) (r : PoolReq) =>
    if 2 ≤ (a.2.filter (·.2.isSome)).length then (a.1.raise Stk.ING.POOL_EMPTY, a.2 ++ [(r.by_, none)])
    else ((a.1.poolTake r).1, a.2 ++ [(r.by_, (a.1.poolTake r).2)])
  inOrder.foldl step (d, [])

/-- A requester asks in a cycle in which no other does (log entry 231). -/
def Dev.poolAsk (d : Dev) (by_ : Requester) (seat n : Nat) : Dev × Option (List Nat) :=
  let r := d.poolServe [{ by_, seat, n }]
  (r.1, (r.2.head?).bind (·.2))

/-- Free buffers of a seat (R151). -/
def Dev.poolGive (d : Dev) (n : Nat) (bs : List Nat) : Dev :=
  let d := { d with pool := { d.pool with inUse := d.pool.inUse.filter fun b => !bs.contains b } }
  (d.setUsed n (d.pool.used n - bs.length)).poolHold

/-! ### Flush (R99) and isolation (R90) -/

/-- Remove every reference of a port from the arbiter. -/
def ArbSt.forget (a : ArbSt) (p : Nat) : ArbSt :=
  { a with
    byGroup := SMap.mapVals (fun _ l => l.filter (· != p)) a.byGroup
    byQuad := SMap.mapVals (fun _ l => l.filter (· != p)) a.byQuad
    toPool := a.toPool.filter (·.port != p) }

/-- PORT_FLUSH (R99): both banks empty at once; a frame that the arbiter is draining is cut off. DESIGN CHOICE (log entry 220):
a frame of the port counts as being drained once the ingress tier has granted it. Its buffers are freed. -/
def Dev.portFlush (d : Dev) (p : Nat) : Dev :=
  let lost := (d.port p).bank0.length + (d.port p).bank1.length
  let cut := d.arb.toPool.filter (·.port == p)
  let d := (d.setBank p 0 []).setBank p 1 []
  let d := ({ d with arb := d.arb.forget p }.bump Reg.FP_DROP_B.FLUSH lost p).wr Reg.FP_STAT.FLUSHING 1 p
  if cut.isEmpty then d
  else (cut.foldl (fun d g => d.poolGive (d.cfg.homeSeat p) g.bufs) d).raisePort Stk.FP.FLUSH_ABORT p

/-- Isolation (R90): the balls return to their pulls, the mode logic stops, and the FIFO is flushed; what waited to be sent is
lost. -/
def Dev.isolate (d : Dev) (p : Nat) : Dev :=
  let d := ((d.portFlush p).wr Reg.FP_STAT.LINK 3 p).onPort p fun s => { s with txq := [] }
  d.showBalls p

/-- Time in which a fault that is still present isolates the port again (R90), in ns. -/
def reisolateNs : Nat := 10000

/-- Did a RETRY make the port drive so lately that a short is the fault still present (R90)? -/
def Dev.stillShort (d : Dev) (p : Nat) : Bool :=
  match (d.port p).drivenAt with
  | some t => decide (d.time.cnt ≤ t + reisolateNs)
  | none => false

/-- PORT_SHORT (R89, R90): a short isolates the port; one still present after RETRY isolates it again and records a further
event. -/
def Dev.portShort (d : Dev) (p c : Nat) : Dev :=
  let d := d.advance c
  if d.mode p == Canvas.mOFF || d.isolated p then d
  else if d.stillShort p then
    ((d.isolate p).wr Reg.FP_ERR_STICKY.SHORT 1 p).record 0x0840 4 (d.cfg.homeSeat p) p []
  else (d.isolate p).raisePort Stk.FP.SHORT p

/-- RX_PAIR_REVERSED (R91): corrected in the cell. -/
def Dev.rxReversed (d : Dev) (p : Nat) : Dev :=
  let m := d.mode p
  if (m == Canvas.mPLC || m == Canvas.mFIELDLINK) && !d.isolated p then
    (d.wr Reg.FP_STAT.REV_RX 1 p).raisePort Stk.FP.REVERSED p
  else d

/-- The link state a port takes when its cell drives: down until it locks on PLC_AFE and FIELDLINK, up otherwise. -/
def linkAtDrive (mode : Nat) : Nat :=
  if mode = Canvas.mOFF then 0 else if mode = Canvas.mPLC || mode = Canvas.mFIELDLINK then 2 else 1

/-- An isolated port drives again. -/
def Dev.driveAgain (d : Dev) (p : Nat) : Dev :=
  ((d.wr Reg.FP_STAT.LINK (linkAtDrive (d.mode p)) p).onPort p fun s =>
    { s with drivenAt := some d.time.cnt }).showBalls p

/-- PORT_RETRY (R90): an isolated port drives again, at most once per tick. DESIGN CHOICE (log entry 221): a RETRY written while
the port is not isolated is the one of its tick that is honoured. -/
def Dev.portRetry (d : Dev) (p : Nat) : Dev :=
  if (d.port p).retryTick = some d.time.tick then d else
  let d := d.onPort p fun s => { s with retryTick := some d.time.tick }
  if d.isolated p then d.driveAgain p else d

/-- A write of FP_CTL. -/
def Dev.fpCtl (d : Dev) (p v : Nat) : Dev :=
  let d := if bitOf v 0 then d.portFlush p else d
  if bitOf v 1 then d.portRetry p else d

/-- A FIELDLINK link is up while the receiver is locked and the partner's advertisement has been accepted (R88). -/
def Dev.fieldlinkUp (d : Dev) (p : Nat) : Dev :=
  let s := d.port p
  d.wr Reg.FP_STAT.LINK (if s.charLock && s.autoneg then 1 else 2) p

/-- CHARACTER_LOCK (R89): the receiver has character lock, and the link leaves the down state. -/
def Dev.characterLock (d : Dev) (p : Nat) : Dev :=
  let m := d.mode p
  if d.isolated p then d
  else if m == Canvas.mPLC then
    ((d.wr Reg.PLC_STAT.RX_LOCK 1 p).wr Reg.FP_STAT.LINK 1 p).onPort p fun s => { s with charLock := true }
  else if m == Canvas.mFIELDLINK then (d.onPort p fun s => { s with charLock := true }).fieldlinkUp p
  else d

/-- FIELDLINK_AUTONEG (R88): the link comes up only on 1000 Mbit/s full duplex. -/
def Dev.fieldlinkAutoneg (d : Dev) (p : Nat) (gigFull : Bool) : Dev :=
  if d.mode p != Canvas.mFIELDLINK || d.isolated p then d
  else (d.onPort p fun s => { s with autoneg := gigFull }).fieldlinkUp p

/-! ### PAUSE (R88, R97) -/

/-- Does a PAUSE received hold the transmission of a port (R88)? -/
def Dev.paused (d : Dev) (p : Nat) : Bool :=
  d.mode p == Canvas.mFIELDLINK && decide (d.time.cnt < (d.port p).pausedTo)

/-- May a frame start on a port: it is not isolated, no PAUSE holds it, and on a PLC_AFE or RADIO port the grant is held (R88,
R90, R142)? -/
def Dev.mayTx (d : Dev) (p : Nat) : Bool :=
  !d.isolated p && !d.paused p && ((d.mode p != Canvas.mPLC && d.mode p != Canvas.mRADIO) || d.granted)

/-- A frame goes out on a port: on PLC_AFE at the transmit level and under the tone mask of the canvas (R108). -/
def Dev.portOut (d : Dev) (p : Nat) (bs : Bytes) : Dev :=
  if d.mode p == Canvas.mPLC then d.emit (.plcTx p (d.cfg.plcTxlvl p) (d.cfg.plcToneMask p) bs) else d.emit (.portTx p bs)

/-- The frames that wait on a port go out once they may. -/
def Dev.txDrain (d : Dev) (p : Nat) : Dev :=
  if !d.mayTx p then d else
  ((d.port p).txq.foldl (fun d bs => d.portOut p bs) d).onPort p fun s => { s with txq := [] }

/-- Offer a frame to the transmitter of a port, behind those that wait; an OFF or isolated port loses it (R85, R90). -/
def Dev.portSend (d : Dev) (p : Nat) (bs : Bytes) : Dev :=
  if d.mode p == Canvas.mOFF || d.isolated p then d
  else (d.onPort p fun s => { s with txq := s.txq ++ [bs] }).txDrain p

/-- PAUSE_RX (R88): a PAUSE holds transmission for its quanta of 512 bit times, and one of no quanta ends the hold; any other MAC
Control frame is dropped and counted as an error. -/
def Dev.pauseRx (d : Dev) (p c opcode quanta : Nat) : Dev :=
  let d := d.advance c
  if d.mode p != Canvas.mFIELDLINK || d.isolated p then d
  else if opcode = 1 then (d.onPort p fun s => { s with pausedTo := d.time.cnt + 512 * quanta }).txDrain p
  else d.bump Reg.FP_DROP_B.ERR 1 p

/-! ### Frames into the FIFO (R95 to R97, R100) -/

/-- A frame is dropped for want of room (R97). -/
def Dev.fullDrop (d : Dev) (p : Nat) : Dev := (d.bump Reg.FP_DROP_A.FULL 1 p).raisePort Stk.FP.FULL_DROP p

/-- A frame that grows past MAXFRAME is dropped whole (R96). -/
def Dev.overDrop (d : Dev) (p : Nat) : Dev := (d.bump Reg.FP_DROP_A.OVER 1 p).raisePort Stk.FP.OVERSIZE p

/-- Write a frame that R95 accepts: swap first if only the other bank takes it, and at its end if the draining bank is
empty. -/
def Dev.fifoPut (d : Dev) (p : Nat) (f : Frame) : Dev :=
  let d := if d.bankTakes p then d else d.swapBanks p
  let b := d.fill p
  let d := (d.setBank p b (d.bank p b ++ [f])).count Reg.FP_FRAMES.FRAMES 1 p
  if (d.draining p).isEmpty then d.swapBanks p else d

/-- A frame that starts ends FLUSHING (R99). -/
def Dev.startOfFrame (d : Dev) (p : Nat) : Dev := d.wr Reg.FP_STAT.FLUSHING 0 p

/-- The offset after an HDLC address: its last byte has bit 0 set (IEC 62056-46); `fuel` bounds its bytes. -/
def hdlcAddrEnd (b : Bytes) (i : Nat) : Nat → Nat
  | 0 => i
  | k + 1 => if bitOf (u b i 1) 0 then i + 1 else hdlcAddrEnd b (i + 1) k

/-- The send sequence number of an HDLC information frame: its control byte follows the two addresses (IEC 62056-46). -/
def hdlcNs (b : Bytes) : Option Nat :=
  let c := u b (hdlcAddrEnd b (hdlcAddrEnd b 2 4) 4) 1
  if bitOf c 0 then none else some (bitsOf c 3 1)

/-- The HDLC client of a SERIAL port leaves a frame that found no room unacknowledged and asks for it again (R168). -/
def Dev.askAgain (d : Dev) (p : Nat) (bs : Bytes) (err : Bool) : Dev :=
  match hdlcNs bs with
  | some ns => if err then d else d.emit (.hdlcAsk p ns)
  | none => d

/-- A frame of a FIELDLINK or SERIAL link arrives whole (R94 to R97). -/
def Dev.linkFrame (d : Dev) (p : Nat) (bs : Bytes) (err : Bool) : Dev :=
  let d := d.startOfFrame p
  if !d.fifoTakes p then
    let d := d.fullDrop p
    if d.mode p == Canvas.mFIELDLINK then d.sendPause p else d.askAgain p bs err
  else if bs.length > d.cfg.maxFrame p then d.overDrop p
  else if bs.isEmpty then d
  else d.fifoPut p { bytes := bs, chk := sealOf bs, err }

/-- FIFO_PTR_MISMATCH (R98): the port is flushed. -/
def Dev.fifoPtrMismatch (d : Dev) (p : Nat) : Dev :=
  if d.mode p == Canvas.mOFF then d else (d.portFlush p).raisePort Stk.FP.PTR_MISMATCH p

/-! ### The port and group tiers (R101, R102) -/

/-- The ports of the frames that are passing to the pool, in order. -/
def ArbSt.passing (a : ArbSt) : List Nat := a.toPool.map (·.port)

/-- Frames of a port that some tier has granted and that have not left the FIFO. -/
def Dev.refs (d : Dev) (p : Nat) : Nat :=
  let c := fun (l : List Nat) => (l.filter (· == p)).length
  (d.arb.byGroup.map fun e => c e.2).foldl (· + ·) 0 + (d.arb.byQuad.map fun e => c e.2).foldl (· + ·) 0 +
    c d.arb.passing

/-- A port is active while its draining bank holds a complete frame or one of its frames is passing (R102). -/
def Dev.active (d : Dev) (p : Nat) : Bool := !(d.draining p).isEmpty

/-- Active ports of a group. -/
def Dev.groupActive (d : Dev) (g : Nat) : Nat := ((List.range 16).filter fun i => d.active (16 * g + i)).length

/-- Active ports of a quad. -/
def Dev.quadActive (d : Dev) (q : Nat) : Nat := ((List.range 4).map fun i => d.groupActive (4 * q + i)).foldl (· + ·) 0

/-- The requesters of a tier in round-robin order from a pointer. -/
def rrOrder (n ptr : Nat) : List Nat := (List.range n).map fun i => (ptr + i) % n

/-- A list of granted frames of a group or quad. -/
def Dev.grp (d : Dev) (g : Nat) : List Nat := SMap.get (fun _ => []) d.arb.byGroup g
def Dev.quad (d : Dev) (q : Nat) : List Nat := SMap.get (fun _ => []) d.arb.byQuad q

/-- One turn of a port in the port tier: its next ready frame is granted (R101). -/
def Dev.portTurn (d : Dev) (g i : Nat) : Dev :=
  let p := 16 * g + i
  if d.refs p < (d.draining p).length then
    { d with arb := { d.arb with
      byGroup := SMap.set (fun _ => []) d.arb.byGroup g (d.grp g ++ [p])
      portPtr := SMap.set (fun _ => 0) d.arb.portPtr g ((i + 1) % 16) } }
  else d

/-- The length of the `k`-th frame of a port that has not left the FIFO. -/
def Dev.frameLen (d : Dev) (p k : Nat) : Nat := (((d.draining p)[k]?).map (·.bytes.length)).getD 0

/-- Length of the head frame of a list of grants: the port's frames leave in order, after those granted further on. -/
def Dev.headLen (d : Dev) (l ahead : List Nat) : Nat :=
  match l with
  | [] => 0
  | p :: _ => d.frameLen p ((ahead.filter (· == p)).length)

/-- Grants that stand between a group's frames and the pool. -/
def Dev.aheadOfGroup (d : Dev) (g : Nat) : List Nat := d.quad (g / 4) ++ d.arb.passing

/-- Grant head frames of group `g` to its quad while they fit the deficit (R101); `fuel` bounds the frames waiting. -/
def Dev.groupGrant (d : Dev) (g : Nat) : Nat → Dev
  | 0 => d
  | k + 1 =>
    match d.grp g with
    | [] => d
    | p :: rest =>
      let len := d.headLen (d.grp g) (d.aheadOfGroup g)
      let df := SMap.get (fun _ => 0) d.arb.groupDef g
      if len ≤ df then
        Dev.groupGrant { d with arb := { d.arb with
          byGroup := SMap.set (fun _ => []) d.arb.byGroup g rest
          byQuad := SMap.set (fun _ => []) d.arb.byQuad (g / 4) (d.quad (g / 4) ++ [p])
          groupDef := SMap.set (fun _ => 0) d.arb.groupDef g (df - len) } } g k
      else d

/-- One requester's part of a group-tier round: `a` is its active count sampled at the start of the round. -/
def Dev.groupTurn (d : Dev) (g a : Nat) : Dev :=
  let df := if a = 0 then 0 else SMap.get (fun _ => 0) d.arb.groupDef g + d.rd Reg.FP_QUANTUM.Q * a
  let d := { d with arb := { d.arb with groupDef := SMap.set (fun _ => 0) d.arb.groupDef g df } }
  if a = 0 then d else d.groupGrant g (d.grp g).length

/-- A round of the port tier of a group: one frame for each port with a ready frame. -/
def Dev.portRound (d : Dev) (g : Nat) : Dev :=
  let order := rrOrder 16 (SMap.get (fun _ => 0) d.arb.portPtr g)
  order.foldl (fun d i => d.portTurn g i) d

/-- A round of the group tier of a quad: deficit round-robin among its four groups. DESIGN CHOICE (log entry 223): the pointer
moves on by one requester each round. -/
def Dev.groupRound (d : Dev) (q : Nat) : Dev :=
  let as := (List.range 4).map fun i => d.groupActive (4 * q + i)
  let ptr := SMap.get (fun _ => 0) d.arb.groupPtr q
  let d := (List.range 4).foldl (fun d i => d.wr Reg.FPG_ACTIVE.ACTIVE (as.getD i 0) (4 * q + i)) d
  let d := (rrOrder 4 ptr).foldl (fun d i => d.groupTurn (4 * q + i) (as.getD i 0)) d
  { d with arb := { d.arb with groupPtr := SMap.set (fun _ => 0) d.arb.groupPtr q ((ptr + 1) % 4) } }

/-! ### Edge inputs (R103, R104) -/

/-- Key of an edge input. -/
def edgeKey : EdgeIn → Nat
  | .pps => 0
  | .tamper k => 1 + k
  | .irq p => 16 + p

/-- An edge input. -/
def Dev.edge (d : Dev) (e : EdgeIn) : EdgeSt := SMap.get (fun _ => {}) d.edges (edgeKey e)

/-- Replace an edge input. -/
def Dev.setEdge (d : Dev) (e : EdgeIn) (s : EdgeSt) : Dev := { d with edges := SMap.set (fun _ => {}) d.edges (edgeKey e) s }

/-- The MAC services a port's transceiver (R104, R142). -/
def Dev.serviced (d : Dev) (p c : Nat) : Dev := d.onPort p fun s => { s with served := some c }

/-- An accepted edge acts: a rising PPS edge is timestamped, and on a rising IRQ the MAC that may start SPI services the
transceiver, unless it ignores the ball (R104). -/
def Dev.edgeAct (d : Dev) (e : EdgeIn) (level : Bool) (c : Nat) : Dev :=
  match e with
  | .pps => if level then d.ppsEdge c else d
  | .irq p => if level && d.granted && !d.on Reg.FP_STAT.IRQ_POLL p then d.serviced p c else d
  | .tamper _ => d

/-- Accept an edge. -/
def Dev.edgeAccept (d : Dev) (e : EdgeIn) (level : Bool) (c : Nat) : Dev :=
  let s := d.edge e
  let s := if level then { s with rise := some c } else { s with fall := some c }
  (d.setEdge e { s with accepted := level }).edgeAct e level c

/-- A filtered edge is counted and flagged (R103). -/
def Dev.edgeFiltered (d : Dev) (e : EdgeIn) : Dev :=
  match e with
  | .pps => (d.bump Reg.EDGE_FAST.EDGES 1 0).raise Stk.FP_GLB.PPS_FAST
  | .tamper k =>
    let st := match k with
      | 0 => Stk.FP_GLB.TAMPER0_FAST
      | 1 => Stk.FP_GLB.TAMPER1_FAST
      | 2 => Stk.FP_GLB.TAMPER2_FAST
      | _ => Stk.FP_GLB.TAMPER3_FAST
    (d.bump Reg.EDGE_FAST.EDGES 1 (1 + k)).raise st
  | .irq p => (d.bump Reg.FP_FAST.EDGES 1 p).raisePort Stk.FP.IRQ_FAST p

/-- Is an input one that the filter watches: the IRQ ball is one in RADIO mode only (R103)? -/
def Dev.edgeWatched (d : Dev) (e : EdgeIn) : Bool :=
  match e with
  | .irq p => d.isRadio p
  | _ => true

/-- The four tamper levels as EDGE_STAT shows them. -/
def Dev.setTamper (d : Dev) (k : Nat) (level : Bool) : Dev :=
  let t := d.rd Reg.EDGE_STAT.TAMPER
  d.wr Reg.EDGE_STAT.TAMPER (t - (t &&& 2 ^ k) + b2n level * 2 ^ k)

/-- A ball changes while the device is not up: the level at which it will be found, and that of EDGE_STAT, which holds the ball
levels through a reset (R106). -/
def Dev.edgeBall (d : Dev) (e : EdgeIn) (level : Bool) : Dev :=
  let d := d.setEdge e { raw := level, accepted := level }
  match e with
  | .tamper k => d.setTamper k level
  | _ => d

/-- EDGE_INPUT (R103): an edge to `level` at counter value `c`; a pulse shorter than 200 ns is ignored, and an edge less
than 500 µs after the last accepted one of its polarity is filtered. -/
def Dev.edgeInput (d : Dev) (e : EdgeIn) (level glitch : Bool) (c : Nat) : Dev :=
  let d := d.advance c
  if glitch || !d.edgeWatched e then d else
  let s := d.edge e
  let last := if level then s.rise else s.fall
  let d := d.setEdge e { s with raw := level, lastEdge := c }
  let fast := match last with
    | some t => decide (c < t + 500000)
    | none => false
  if fast then d.edgeFiltered e else d.edgeAccept e level c

/-- EDGE_SETTLE (R103): after 1 ms without an edge the level is settled; where it differs from the last accepted level, an
edge is accepted now. -/
def Dev.edgeSettle (d : Dev) (e : EdgeIn) (c : Nat) : Dev :=
  let d := d.advance c
  let s := d.edge e
  if c < s.lastEdge + 1000000 || !d.edgeWatched e then d else
  let d := match e with
    | .tamper k => d.setTamper k s.raw
    | _ => d
  if s.raw != s.accepted then d.edgeAccept e s.raw c else d

/-- Has the IRQ of a port stayed high for 1 tick since the MAC serviced the transceiver, at counter value `c` (R104)? -/
def Dev.irqHeld (d : Dev) (p c : Nat) : Bool :=
  (d.edge (.irq p)).raw &&
    match (d.port p).served with
    | some t => decide ((d.edge (.irq p)).lastEdge ≤ t ∧ t + d.tickNs ≤ c)
    | none => false

/-- IRQ_STUCK (R104): the IRQ has stayed high for 1 tick after service, so the MAC polls. -/
def Dev.irqStuck (d : Dev) (p c : Nat) : Dev :=
  let d := d.advance c
  if !d.isRadio p || !d.irqHeld p c || d.on Reg.FP_STAT.IRQ_POLL p then d
  else (d.wr Reg.FP_STAT.IRQ_POLL 1 p).raisePort Stk.FP.IRQ_STUCK p

/-- IRQ_POLL (R104): while the IRQ is stuck the MAC reads the transceiver's status; only the holder of the grant starts SPI
(R142). -/
def Dev.irqPoll (d : Dev) (p : Nat) : Dev :=
  if d.on Reg.FP_STAT.IRQ_POLL p && d.isRadio p && d.granted then d.emit (.radioPoll p) else d

/-- IRQ_UNSTUCK (R104): the ball has been low for 100 ms. -/
def Dev.irqUnstuck (d : Dev) (p c : Nat) : Dev :=
  let d := d.advance c
  let s := d.edge (.irq p)
  if s.raw || c < s.lastEdge + 100000000 then d else d.wr Reg.FP_STAT.IRQ_POLL 0 p

end Sys2Proof.Machine
end

