-- ==== Sys2Proof/Machine/Plc.lean ====
section
/-!
DEFINITION. Power-line ports: sample blocks and the decimation filter, blanking, gain control, status blocks and neighbour
phase, the receive queue, joins, and trigger firings (R79, R107 to R119).
-/

namespace Sys2Proof.Machine

/-- What a PLC port holds. -/
def Dev.plcSt (d : Dev) (p : Nat) : PlcSt := SMap.get (fun _ => {}) d.plc p

/-- Change what a PLC port holds. -/
def Dev.onPlc (d : Dev) (p : Nat) (g : PlcSt → PlcSt) : Dev := { d with plc := SMap.upd (fun _ => {}) d.plc p g }

/-- A port that runs PLC and is not isolated. -/
def Dev.isPlc (d : Dev) (p : Nat) : Bool := d.mode p == Canvas.mPLC && !d.isolated p

/-! ### Downstream control blocks (R110) -/

def cmdGAIN : Nat := 0x10
def cmdTXON : Nat := 0x20
def cmdTXOFF : Nat := 0x21

/-- Characters 1 to 9 of a control block: its command, the sample index at which it takes effect, and its argument. -/
def afeControl (cmd idx arg : Nat) : Bytes :=
  let b := [2] ++ leBytes 1 cmd ++ leBytes 4 idx ++ leBytes 1 arg
  b ++ leBytes 2 (crcAfe b)

/-- Send a control block; only the holder of the grant drives pair B (R112). -/
def Dev.afeCommand (d : Dev) (p cmd idx arg : Nat) : Dev :=
  if d.granted then d.emit (.afeControl p (afeControl cmd idx arg)) else d

/-! ### The demodulator's frames -/

/-- The frame being received is abandoned (R111, R115). -/
def Dev.plcAbort (d : Dev) (p : Nat) : Dev :=
  if !d.on Reg.PLC_STAT.IN_FRAME p then d else
  let d := (d.wr Reg.PLC_STAT.IN_FRAME 0 p).bump Reg.PLC_RXQ_DROP.ABORT 1 p
  (d.onPlc p fun s => { s with overload := false, ended := 0, forced := 0, eraseLeft := 0 }).raisePort Stk.PLC.RX_ABORT p

/-- PORT_OPEN (R89): an open receive pair holds the link down, and a PLC_AFE receiver that had lock loses it with its frame
(R111); RXD open is reported. -/
def Dev.portOpen (d : Dev) (p : Nat) : Dev :=
  let m := d.mode p
  if d.isolated p then d
  else if m == Canvas.mPLC || m == Canvas.mFIELDLINK then
    let d := if d.on Reg.PLC_STAT.RX_LOCK p then (d.plcAbort p).raisePort Stk.PLC.LOCK_LOST p else d
    let d := (d.wr Reg.FP_STAT.LINK 2 p).onPort p fun s => { s with charLock := false, autoneg := false }
    (d.wr Reg.PLC_STAT.RX_LOCK 0 p).raisePort Stk.FP.OPEN p
  else if m == Canvas.mSERIAL then d.raisePort Stk.FP.OPEN p
  else d

/-- Is the symbol that ends an erasure: invalid outputs (R111), over a quarter blanked (R114), or an overload or its forced step
(R115)? -/
def PlcSt.erasure (s : PlcSt) : Bool := s.symBad || 4 * s.symBlank > s.symOut || s.eraseLeft > 0 || s.overload

/-- A mark of the demodulator takes effect (R115). -/
def Dev.plcMark (d : Dev) (p : Nat) (m : PlcMark) : Dev :=
  match m with
  | .preamble =>
    (d.wr Reg.PLC_STAT.IN_FRAME 1 p).onPlc p fun s =>
      { s with
        forced := 0, eraseLeft := 0, overload := false, ended := 0, symOut := 0, symBlank := 0, symBad := false }
  | .symbol =>
    let s := d.plcSt p
    let d := if s.erasure && d.on Reg.PLC_STAT.IN_FRAME p then d.bump Reg.PLC_ERASE.ERASED 1 p else d
    d.onPlc p fun s =>
      { s with
        symOut := 0, symBlank := 0, symBad := false, eraseLeft := s.eraseLeft - 1, ended := s.ended + b2n s.overload }
  | .frameEnd =>
    (d.wr Reg.PLC_STAT.IN_FRAME 0 p).onPlc p fun s => { s with forced := 0, eraseLeft := 0, overload := false, ended := 0 }

/-! ### The decimation filter and blanking (R113, R114) -/

/-- The blanking threshold in dB: THR above 24 acts as 24. -/
def Dev.blankThr (d : Dev) (p : Nat) : Nat := 6 + min (d.rd Reg.PLC_BLANK.THR p) 24

/-- Does a magnitude exceed the RMS of the samples `l` by more than `thr` dB? Both sides are raised to the tenth power. DESIGN
CHOICE (log entry 224): while there are fewer than 64 samples their own RMS stands, and with none nothing is blanked. -/
def exceedsRms (y : Int) (l : List Int) (thr : Nat) : Bool :=
  let n := l.length
  let sum := (l.map fun v => (v * v).natAbs).foldl (· + ·) 0
  n != 0 && (n * (y * y).natAbs) ^ 10 > sum ^ 10 * 10 ^ thr

/-- One output of the filter: invalid while the filter settles or an invalid sample is in its span; blanked by threshold or
guard; else it enters the running RMS. -/
def Dev.plcOutput (d : Dev) (p : Nat) : Dev :=
  let s := d.plcSt p
  let valid := s.settle = 0 && s.hist.all (·.2) && s.hist.length == 48 * d.cfg.plcDecim p
  let y := if valid then Config.decimate (d.cfg.plcStd p) (d.cfg.plcBand p) (s.hist.map (·.1)) else 0
  let hit := valid && exceedsRms y s.rms (d.blankThr p)
  let blanked := valid && (hit || s.guardLeft > 0)
  let d := if blanked then d.bump Reg.PLC_BLANKED.SAMPLES 1 p else d
  d.onPlc p fun s =>
    { s with
      settle := s.settle - 1
      guardLeft := if hit then d.rd Reg.PLC_BLANK.GUARD p else s.guardLeft - 1
      rms := if valid && !blanked then (y :: s.rms).take 64 else s.rms
      symOut := s.symOut + 1
      symBlank := s.symBlank + b2n blanked
      symBad := s.symBad || !valid }

/-- Magnitude at which a sample counts toward an overload run: 0.9 of full scale (R115). -/
def overloadLevel : Nat := 29491

/-- An overload is detected at sample index `i` (R115). -/
def PlcSt.overloaded (s : PlcSt) (i : Nat) : PlcSt := if s.overload then s else { s with overload := true, detAt := i, ended := 0 }

/-- One ADC sample enters: its gain (R115), the overload run, the filter's history and, each DECIM samples, an output. The
second component counts outputs in the block. -/
def Dev.plcSample (d : Dev) (p : Nat) (x : AfeSample) (marks : List (Nat × PlcMark)) (k : Nat) : Dev × Nat :=
  let dec := d.cfg.plcDecim p
  let d := match x.gain with
    | some g => d.wr Reg.PLC_STAT.GAIN g p
    | none => d
  let inFrame := d.on Reg.PLC_STAT.IN_FRAME p
  let d := d.onPlc p fun s =>
    let run := if x.valid && x.v.natAbs ≥ overloadLevel then s.run + 1 else 0
    let s := if run ≥ 16 && inFrame then s.overloaded s.idx else s
    { s with run, idx := (s.idx + 1) % 2 ^ 32, hist := ((x.v, x.valid) :: s.hist).take (48 * dec), phase := s.phase + 1 }
  if (d.plcSt p).phase < dec then (d, k) else
  let d := (d.onPlc p fun s => { s with phase := 0 }).plcOutput p
  ((marks.filter fun m => m.1 == k).foldl (fun d m => d.plcMark p m.2) d, k + 1)

/-- A block's samples enter one by one. -/
def Dev.plcSamples (d : Dev) (p : Nat) (l : List AfeSample) (marks : List (Nat × PlcMark)) : Dev :=
  (l.foldl (fun a x => Dev.plcSample a.1 p x marks a.2) (d, 0)).1

/-- Zeros with their valid flag clear, for discarded or missing blocks (R111); the symbol clock goes on marking symbols. -/
def Dev.plcMissing (d : Dev) (p blocks : Nat) (marks : List (Nat × PlcMark)) : Dev :=
  d.plcSamples p (List.replicate (64 * blocks) { v := 0, valid := false }) marks

/-- The free value that stands for the sample index at which a GAIN command between frames takes effect. -/
def useGainAt : Nat := 54

/-- The AGC between frames (R115): it moves the gain toward −12 dBFS by 0 to 2 codes. How far is left open, and so is the sample
index that the command names. DESIGN CHOICE (log entry 225): it measures the outputs of the blanking window, one step at
most for each sample block. -/
def Dev.agcStep (d : Dev) (p : Nat) : Dev :=
  let s := d.plcSt p
  if d.on Reg.PLC_STAT.IN_FRAME p || !d.granted || s.rms.isEmpty then d else
  let sum : Nat := (s.rms.map fun (v : Int) => (v * v).natAbs).foldl (· + ·) 0
  let n : Nat := s.rms.length
  let below := decide (sum ^ 5 * 10 ^ 6 < (n * 1073741824) ^ 5)
  let k := d.fresh 51 3
  let g := d.rd Reg.PLC_STAT.GAIN p
  let g' := if below then min 14 (g + k) else g - k
  let at0 := d.fresh useGainAt (2 ^ 32)
  let d := d.took
  if g' = g then d else d.afeCommand p cmdGAIN at0 g'

/-- A bad upstream block is discarded and counted (R111). -/
def Dev.plcBadCrc (d : Dev) (p : Nat) : Dev := (d.bump Reg.PLC_LINKERR.CRC 1 p).raisePort Stk.PLC.LINK_CRC p

/-- The samples of a block, each with the gain that takes effect at it: TAG_A's gain from the sample that GIDX names where GCHG
is set, and from the first sample where it is clear (R110, R115). -/
def blockSamples (chars : Bytes) : List AfeSample :=
  let tagB := u chars 2 1
  let from_ := if bitOf tagB 6 then bitsOf tagB 5 0 else 0
  (List.range 64).map fun i =>
    { v := sgn 16 (u chars (3 + 2 * i) 2), gain := if i = from_ then some (bitsOf (u chars 1 1) 3 0) else none }

/-- AFE_SAMPLE_BLOCK (R110, R111): characters 1 to 133 of a sample block, with the marks of the demodulator. -/
def Dev.afeSampleBlock (d : Dev) (p : Nat) (chars : Bytes) (marks : List (Nat × PlcMark)) : Dev :=
  if !d.isPlc p then d
  else if crcAfe (slice chars 0 131) != u chars 131 2 then
    ((d.plcBadCrc p).onPlc p fun s => { s with seq := s.seq.map fun q => (q + 1) % 4 }).plcMissing p 1 marks
  else
    let tagA := u chars 1 1
    let q := bitsOf tagA 7 6
    let gap := match (d.plcSt p).seq with
      | some l => (q + 3 - l) % 4
      | none => 0
    let d := d.onPlc p fun s => { s with seq := some q }
    if gap != 0 then
      (((d.bump Reg.PLC_LINKERR.SEQ 1 p).raisePort Stk.PLC.LINK_CRC p).plcMissing p gap []).plcMissing p 1 marks
    else
    let d := if bitOf tagA 5 then d.onPlc p fun s => { s with idx := 0 } else d
    let d := if bitOf tagA 4 && d.on Reg.PLC_STAT.IN_FRAME p then d.onPlc p fun s => s.overloaded s.idx else d
    (d.plcSamples p (blockSamples chars) marks).agcStep p

/-- ADC samples in 20 µs (R115). -/
def deferSamples : Nat := 120

/-- PLC_OVERLOAD (R115): an overload inside a frame forces a step down of 2 codes at the next symbol boundary, at sample index
`b1`, or at the one after it, `b2`, where the first is less than 20 µs after the detection; the third in one frame abandons it.
Symbols that have ended since the detection are erasures already. -/
def Dev.plcOverload (d : Dev) (p b1 b2 : Nat) : Dev :=
  let s := d.plcSt p
  if !d.isPlc p || !s.overload || !d.on Reg.PLC_STAT.IN_FRAME p then d else
  let deferred := decide ((b1 + 2 ^ 32 - s.detAt) % 2 ^ 32 < deferSamples)
  let d := (d.bump Reg.PLC_ERASE.FORCED 1 p).raisePort Stk.PLC.FORCED_STEP p
  let d := d.afeCommand p cmdGAIN (if deferred then b2 else b1) (d.rd Reg.PLC_STAT.GAIN p - 2)
  let d := d.onPlc p fun s =>
    { s with overload := false, ended := 0, run := 0, forced := s.forced + 1, eraseLeft := (if deferred then 3 else 2) - s.ended }
  if s.forced + 1 ≥ 3 then d.plcAbort p else d

/-- AFE_LOCK_LOSS (R111): lock is lost on pair A, or at the AFE. -/
def Dev.afeLockLoss (d : Dev) (p : Nat) (atAfe : Bool) : Dev :=
  if !d.isPlc p then d else
  let d := (d.plcAbort p).raisePort Stk.PLC.LOCK_LOST p
  let d := d.wr Reg.PLC_STAT.TXON 0 p
  if atAfe then d else
  ((d.wr Reg.PLC_STAT.RX_LOCK 0 p).wr Reg.FP_STAT.LINK 2 p).onPort p fun s => { s with charLock := false }

/-! ### Zero crossings and neighbour phase (R118, R119) -/

/-- The least and greatest accepted mains periods in ADC samples: 15.38 ms and 22.22 ms. -/
def zcMin : Nat := 92280
def zcMax : Nat := 133320

/-- Crossings that are remembered: as many as a frame can span. -/
def zcKept : Nat := 64

/-- AFE_STATUS_BLOCK (R110, R118): characters 1 to 9 of a status block report a rising zero crossing. DESIGN CHOICE (log entry
226): a crossing that comes too late is ignored as the end of a period, and the next period is measured from it. -/
def Dev.afeStatusBlock (d : Dev) (p : Nat) (chars : Bytes) : Dev :=
  if !d.isPlc p then d
  else if crcAfe (slice chars 0 7) != u chars 7 2 then d.plcBadCrc p
  else
    let x := u chars 1 4
    let d := d.onPlc p fun s => { s with temp := sgn 16 (u chars 5 2) }
    match (d.plcSt p).zcs.head? with
    | none => d.onPlc p fun s => { s with zcs := [x] }
    | some l =>
      let per := (x + 2 ^ 32 - l) % 2 ^ 32
      if zcMin ≤ per && per ≤ zcMax then
        d.onPlc p fun s => { s with zcs := (x :: s.zcs).take zcKept, zcPeriod := per, zcNeed := s.zcNeed - 1 }
      else
        (d.onPlc p fun s => { s with zcNeed := 4, zcs := if per < zcMin then s.zcs else [x] }).raisePort Stk.PLC.ZC_BAD p

/-- The sector whose centre an offset in 1/256 of a period lies within 15° of (R119). -/
def sectorOf (off : Nat) : Option Nat :=
  ((List.range 6).find? fun k => decide ((3 * off + 800 - 128 * k) % 768 ≤ 64)).map fun k => k + 1

/-- An offset updates a neighbour's PHASE (R119). -/
def NeighPhase.take (n : NeighPhase) (off : Nat) : NeighPhase :=
  let k := (sectorOf off).getD 0
  let run := if k = 0 then 0 else if n.runSector = k then min 15 (n.run + 1) else 1
  let since := n.since + 1
  { sector := if run ≥ 8 then k else if since ≥ 32 then 7 else n.sector
    offset := off
    run
    runSector := k
    since := if run ≥ 8 || since ≥ 32 then 0 else since }

/-- The PHASE word (R119). -/
def NeighPhase.word (n : NeighPhase) : Nat := n.sector % 8 + 2 ^ 3 * (n.offset % 256) + 2 ^ 11 * (n.run % 16)

/-- The last crossing that is not after a sample index. -/
def PlcSt.zcBefore (s : PlcSt) (start : Nat) : Option Nat := s.zcs.find? fun x => decide ((start + 2 ^ 32 - x) % 2 ^ 32 < 2 ^ 31)

/-- NEIGHBOUR_PHASE (R118): the sender's stated delay gives an offset. `start` is the sample index of the frame's start,
`delay` the sender's delay in ADC samples. -/
def Dev.neighbourPhase (d : Dev) (p sender start delay : Nat) : Dev :=
  let s := d.plcSt p
  match s.zcBefore start with
  | none => d
  | some l =>
    if s.zcPeriod = 0 || s.zcNeed > 0 || d.cfg.plcStd p != 0 then d else
    let own := (start + 2 ^ 32 - l) % 2 ^ 32
    let off := (own + s.zcPeriod - delay % s.zcPeriod) % s.zcPeriod * 256 / s.zcPeriod
    d.onPlc p fun s => { s with neigh := SMap.upd (fun _ => {}) s.neigh sender fun n => n.take off }

/-! ### The receive queue and joins (R116, R117) -/

/-- Frames and bytes that a receive queue holds. -/
def rxqCap : Nat := 8
def rxqBytes : Nat := 16384

/-- Is there room in a port's receive queue for a frame? -/
def Dev.rxqRoom (d : Dev) (p len : Nat) : Bool :=
  let q := (d.port p).rxq
  q.length < rxqCap && (q.map List.length).foldl (· + ·) 0 + len ≤ rxqBytes

/-- Put a frame into a port's receive queue. -/
def Dev.rxqPut (d : Dev) (p : Nat) (bs : Bytes) : Dev := d.onPort p fun s => { s with rxq := s.rxq ++ [bs] }

/-- PLC_FRAME_RX (R116, R119): a MAC frame with good FCS enters the receive queue, or is discarded. `zc` gives the frame's
start and the sender's delay, where the sender states one. -/
def Dev.plcFrameRx (d : Dev) (p sender : Nat) (frame : Bytes) (zc : Option (Nat × Nat)) : Dev :=
  if !d.isPlc p then d else
  let d := d.count Reg.PLC_RXCNT.FRAMES 1 p
  let d := match zc with
    | some (start, delay) => d.neighbourPhase p sender start delay
    | none => d
  if d.rxqRoom p frame.length then d.rxqPut p frame
  else (d.bump Reg.PLC_RXQ_DROP.QFULL 1 p).raisePort Stk.PLC.QFULL p

/-- The joins that a port has answered in the last 100 ticks. -/
def Dev.recentJoins (d : Dev) (p : Nat) : List Nat := (d.plcSt p).joins.filter fun j => d.time.tick < j + 100

/-- Is a join request deferred: beyond JOIN_RATE over the last 100 ticks, or during a pool hold (R117, R167)? -/
def Dev.joinDeferred (d : Dev) (p : Nat) : Bool :=
  d.on Reg.ING_STAT.HOLD || decide (d.cfg.plcJoinRate p ≤ (d.recentJoins p).length)

/-! ### Triggers (R79, R113) -/

/-- SAMPLE_SYNC (R113): K28.7 is sent, by the side that drives pair B (R112), and the decimation filter is reset. -/
def Dev.sampleSync (d : Dev) (p : Nat) : Dev :=
  if !d.isPlc p then d else
  let d := if d.granted then d.emit (.sampleSync p) else d
  (d.wr Reg.PLC_STAT.SYNCED 1 p).onPlc p fun s =>
    { s with phase := 0, hist := [], settle := 48, guardLeft := 0, zcs := [] }

/-- A trigger acts. -/
def Dev.trigAct (d : Dev) (i : Nat) : Dev :=
  let g := d.rd Reg.TRIG_CTL.GROUP i
  if d.on Reg.TRIG_CTL.ACTION i then
    match d.cfg.houseMbxs.head? with
    | some m => d.ringBit m (g % 32)
    | none => d
  else (List.range 16).foldl (fun d j => d.sampleSync (16 * g + j)) d

/-- TRIG_FIRE (R79): trigger `i` fires at the boundary that opens its target tick, and rearms under PERIOD. -/
def Dev.trigFire (d : Dev) (i : Nat) : Dev :=
  match SMap.find d.time.trigT i with
  | none => d
  | some T =>
    if d.time.tick < T then d else
    let d := d.trigAct i
    let per := d.rd Reg.TRIG_CTL.PERIOD i
    if per = 0 then { d with time := { d.time with trigT := d.time.trigT.erase i } }.wr Reg.TRIG_CTL.ARM 0 i
    else ({ d with time := { d.time with trigT := d.time.trigT.put i (T + per) } } : Dev).wr Reg.TRIG_TICK.TICK (T + per) i

end Sys2Proof.Machine
end

