-- ==== Sys2Proof/Machine/Staging.lean ====
section
/-!
DEFINITION. Uplink records: their header, and putting them into a seat's uplink staging (R170, R173).
-/

namespace Sys2Proof.Machine

/-- The types of uplink records (R170). -/
def upREADING : Nat := 1
def upDERIVED : Nat := 2
def upTAMPER : Nat := 3
def upFENCE : Nat := 4

/-- The header of an uplink record (R170). -/
def Dev.upHeader (d : Dev) (ty flags len seat useq atick : Nat) : Bytes :=
  let h := leBytes 1 ty ++ leBytes 1 flags ++ leBytes 2 len ++ leBytes 1 d.pos ++
    leBytes 1 (d.rd Reg.CAS_CFG.SIDE + 2 * seat) ++ [0, 0] ++ leBytes 4 (d.rd Reg.CAS_EPOCH.EPOCH) ++
    leBytes 8 useq ++ leBytes 8 atick
  h ++ leBytes 4 (sealOf h)

/-- Set RESENT in an uplink record; its header is sealed anew (R173). -/
def setResent (r : Bytes) : Bytes :=
  let h := slice r 0 1 ++ leBytes 1 (u r 1 1 ||| 1) ++ slice r 2 26
  h ++ leBytes 4 (sealOf h) ++ r.drop 32

/-- Uplink staging that one seat may fill, in bytes: UPL_STAGE split evenly among the provisioned seats. -/
def Dev.stageCap (d : Dev) : Nat := d.cfg.uplStage * 1048576 / max 1 d.cfg.seats.length

/-- Bytes that records take in staging. -/
def stagedBytes (l : List Staged) : Nat := l.foldl (fun a r => a + r.bytes.length) 0

/-- Free the oldest sent records until at least `need` bytes are free of `l`; the second component says that one was freed,
the third how many bytes are still lacking (R173). -/
def freeSent : List Staged → Nat → List Staged × Bool × Nat
  | [], need => ([], false, need)
  | r :: rs, need =>
    if need = 0 then (r :: rs, false, 0)
    else if r.path.isSome then
      let q := freeSent rs (need - r.bytes.length)
      (q.1, true, q.2.2)
    else
      let q := freeSent rs need
      (r :: q.1, q.2.1, q.2.2)

/-- A seat's uplink record is generated (R170, R173): it takes the next USEQ and goes into staging, the oldest sent records
making room; with staging full of unsent records it is counted in UPL_NOTGEN instead. Only the active side emits
(R343, R347); a standby notes what it would have generated, for a takeover (R346). -/
def Dev.stage (d : Dev) (seat : Nat) (from_ : Option (Nat × Nat)) (ty flags atick : Nat) (body : Bytes) : Dev :=
  if !d.isActive then
    let g : Ghost := { tick := d.time.tick, seat, from_, ty, flags, atick, body }
    if d.rd Reg.CAS_STAT.ROLE = 0 then { d with cas := { d.cas with ghosts := d.cas.ghosts ++ [g] } } else d
  else
  let s := d.seat seat
  let bs := d.upHeader ty flags body.length seat s.useq atick ++ body
  let r := freeSent s.staging (stagedBytes s.staging + bs.length - d.stageCap)
  if r.2.2 = 0 then
    let e : Staged := { useq := s.useq, bytes := bs, from_, tick := d.time.tick }
    let d := d.onSeat seat fun s => { s with staging := r.1 ++ [e], useq := s.useq + 1 }
    if r.2.1 then d.raiseCopy Stk.UPL_STAT.RETX_LOST seat else d
  else (d.bump Reg.UPL_NOTGEN.COUNT 1 0 seat).raiseCopy Stk.UPL_STAT.STAGING_FULL seat

end Sys2Proof.Machine
end

