-- ==== Sys2Proof/Machine/Tariff.lean ====
section
/-!
DEFINITION. Tariffs: the civil calendar, the palettes of the PALETTES section, the rate of a delta, the demand window of a
palette, and its billing instants (R190, R191, R194, R195, R198 to R200).
-/

namespace Sys2Proof.Machine

/-! ### The civil calendar -/

/-- Year, month and day of a number of days since 1970-01-01. -/
def civil (days : Int) : Int × Nat × Nat :=
  let z := days + 719468
  let era := Int.fdiv z 146097
  let doe := (z - era * 146097).toNat
  let yoe := (doe - doe / 1460 + doe / 36524 - doe / 146096) / 365
  let doy := doe - (365 * yoe + yoe / 4 - yoe / 100)
  let mp := (5 * doy + 2) / 153
  let m := if mp < 10 then mp + 3 else mp - 9
  let y := (yoe : Int) + era * 400 + (if m ≤ 2 then 1 else 0)
  (y, m, doy - (153 * mp + 2) / 5 + 1)

/-- Days since 1970-01-01 of a year, month and day. -/
def daysOf (y m dd : Nat) : Int :=
  let y' : Int := (y : Int) - (if m ≤ 2 then 1 else 0)
  let era := Int.fdiv y' 400
  let yoe := (y' - era * 400).toNat
  let doy := (153 * (if 2 < m then m - 3 else m + 9) + 2) / 5 + dd - 1
  era * 146097 + (365 * yoe + yoe / 4 - yoe / 100 + doy : Nat) - 719468

/-- Day of the week of a number of days since 1970-01-01, Monday 0. -/
def weekday (days : Int) : Nat := (Int.fmod (days + 3) 7).toNat

/-- Seconds of a day. -/
def daySec : Int := 86400

/-- A palette record (R199). -/
abbrev Palette := Bytes

namespace Canvas

/-! ### Palettes (R198, R199) -/

def nPal (c : Canvas) : Nat := f c tyPALETTES 0 2
def nRange (c : Canvas) : Nat := f c tyPALETTES 4 4
def palDefault (c : Canvas) (n : Nat) : Nat := f c tyPALETTES (8 + n) 1
def palDefValid (c : Canvas) (n : Nat) : Bool := bitOf (f c tyPALETTES 72 8) n

/-- The palette record of a PID. -/
def palette (c : Canvas) (pid : Nat) : Palette :=
  let b := body c tyPALETTES
  match (List.range (nPal c)).find? fun i => u b (128 + 1024 * i) 1 == pid with
  | some i => slice b (128 + 1024 * i) 1024
  | none => []

/-- The assignment range that governs a slot: the first in table order that contains it (R200). -/
def palRange (c : Canvas) (slot : Nat) : Option Bytes :=
  let b := body c tyPALETTES
  ((List.range (nRange c)).map fun i => slice b (128 + 1024 * nPal c + 16 * i) 16).find? fun r =>
    bitsOf (u r 0 4) 19 0 ≤ slot && slot ≤ bitsOf (u r 4 4) 19 0

/-- The PID for a slot of a seat at an instant in UTC seconds (R190 step 2). -/
def pidAt (c : Canvas) (seat slot : Nat) (t : Int) : Nat :=
  match palRange c slot with
  | some r => if t < (u r 8 5 : Nat) then u r 3 1 else u r 7 1
  | none => palDefault c seat

end Canvas

namespace Palette

def nRates (p : Palette) : Nat := u p 2 1
def window (p : Palette) : Nat := u p 3 1 % 16
def sliding (p : Palette) : Bool := bitOf (u p 3 1) 4
def billDay (p : Palette) : Nat := u p 4 1
def billHour (p : Palette) : Nat := u p 5 1
def nZone (p : Palette) : Nat := u p 6 1
def nSpecial (p : Palette) : Nat := u p 7 1

/-- FROM of a zone entry, and its OFFSET in seconds. -/
def zoneFrom (p : Palette) (i : Nat) : Int := (u p (8 + 8 * i) 5 : Nat)
def zoneOfs (p : Palette) (i : Nat) : Int := 60 * sgn 16 (u p (8 + 8 * i + 5) 2)

/-- The zone entry with the latest FROM not after an instant. -/
def zoneAt (p : Palette) (t : Int) : Nat := ((List.range (nZone p)).filter fun i => zoneFrom p i ≤ t).getLast?.getD 0

/-- Local time of an instant, in seconds (R190 step 3). -/
def localOf (p : Palette) (t : Int) : Int := t + zoneOfs p (zoneAt p t)

/-- The day type of a special day, if the date is one. -/
def special (p : Palette) (y : Int) (m dd : Nat) : Option Nat :=
  ((List.range (nSpecial p)).map fun i => u p (360 + 4 * i) 4).findSome? fun w =>
    if (bitsOf w 11 0 : Int) = y && bitsOf w 15 12 == m && bitsOf w 20 16 == dd then some (bitsOf w 23 21) else none

/-- A season's start date as a number that orders dates within a year; 0 when the season is unused. -/
def seasonStart (p : Palette) (i : Nat) : Nat :=
  let w := u p (136 + 8 * i) 8
  if bitsOf w 3 0 = 0 then 0 else 32 * bitsOf w 3 0 + bitsOf w 8 4

/-- The used season with the latest start date that a test admits. -/
def latestSeason (p : Palette) (ok : Nat → Bool) : Option Nat :=
  (List.range 4).foldl (fun a i =>
    if seasonStart p i ≠ 0 ∧ ok (seasonStart p i) = true then
      match a with
      | some j => if seasonStart p j < seasonStart p i then some i else a
      | none => some i
    else a) none

/-- The season in force on a date (R199). -/
def season (p : Palette) (m dd : Nat) : Nat :=
  ((latestSeason p fun s => s ≤ 32 * m + dd).orElse fun _ => latestSeason p fun _ => true).getD 0

/-- The day type of a local date (R190 step 4). -/
def dayType (p : Palette) (days : Int) : Nat :=
  let (y, m, dd) := civil days
  match special p y m dd with
  | some t => t
  | none =>
    let w := u p (136 + 8 * season p m dd) 8
    let lo := 16 + 3 * weekday days
    bitsOf w (lo + 2) lo

/-- The rate, 1 to 8, that a day type sets at a minute (R190 step 5). -/
def rateIn (p : Palette) (dt minute : Nat) : Nat :=
  let pts := ((List.range 12).map fun i => u p (168 + 24 * dt + 2 * i) 2).filter fun w =>
    bitOf w 14 && bitsOf w 10 0 ≤ minute
  let best := pts.foldl (fun a w => match a with
    | some b => if bitsOf b 10 0 < bitsOf w 10 0 then some w else a
    | none => some w) none
  match best with
  | some w => bitsOf w 13 11 + 1
  | none => 1

/-- The rate at an instant. -/
def rateAt (p : Palette) (t : Int) : Nat :=
  let l := localOf p t
  rateIn p (dayType p (Int.fdiv l daySec)) ((Int.fmod l daySec).toNat / 60)

/-- The instant at which the local time of a palette reads `l` (R195): the earlier where it occurs twice; where it does not
occur, the first instant of that day whose local time is at or after it. -/
def instantOf (p : Palette) (l : Int) : Option Int :=
  let zs := List.range (nZone p)
  let hits := (zs.map fun i => l - zoneOfs p i).filter fun t => localOf p t == l
  let least := fun (xs : List Int) => xs.foldl (fun (a : Option Int) x =>
    match a with
    | some b => if x < b then some x else a
    | none => some x) none
  match least hits with
  | some t => some t
  | none => least ((zs.map (zoneFrom p)).filter fun t =>
      l ≤ localOf p t && Int.fdiv (localOf p t) daySec == Int.fdiv l daySec)

/-- The billing instant of a local day, if the palette has one on it (R195). -/
def billInstant (p : Palette) (days : Int) : Option Int :=
  if billDay p ≠ 0 ∧ (civil days).2.2 ≠ billDay p then none
  else instantOf p (days * daySec + 3600 * (billHour p : Nat))

/-- Does a billing instant lie after `lo` and at or before `hi`? -/
def billsIn (p : Palette) (lo hi : Int) : Bool :=
  (List.range (nZone p)).any fun i =>
    let d0 := Int.fdiv (lo + zoneOfs p i) daySec
    let d1 := Int.fdiv (hi + zoneOfs p i) daySec
    (List.range (d1 - d0 + 1).toNat).any fun (k : Nat) =>
      match billInstant p (d0 + (k : Int)) with
      | some t => lo < t && t ≤ hi
      | none => false

end Palette

namespace Canvas

/-- The palette that rates delta(k) of a slot, with its PID (R190): chosen at the start of the interval. -/
def palOfDelta (c : Canvas) (seat slot k : Nat) : Nat × Palette :=
  let pid := pidAt c seat slot (((k : Int) - 1) * 60 * (seatPeriod c seat : Nat))
  (pid, palette c pid)

/-- The rate of delta(k) and the PID that gave it (R190). -/
def rateOf (c : Canvas) (seat slot k : Nat) : Nat × Nat :=
  let (pid, p) := palOfDelta c seat slot k
  (p.rateAt (((k : Int) - 1) * 60 * (seatPeriod c seat : Nat)), pid)

/-- The default rate of a seat (R191). -/
def defaultRate (c : Canvas) (seat : Nat) : Nat × Nat :=
  let pid := palDefault c seat
  (Palette.rateIn (palette c pid) 0 0, pid)

/-- Does the boundary at which interval `k` of a slot ends make a billing close (R195)? -/
def billsAt (c : Canvas) (seat slot k : Nat) : Bool :=
  let sec := 60 * seatPeriod c seat
  let hi : Int := (k * sec : Nat)
  (palette c (pidAt c seat slot hi)).billsIn (hi - (sec : Nat)) hi

/-! ### ENGINES (R175, R434) -/

/-- The engine mask of a seat. -/
def engMask (c : Canvas) (n : Nat) : Nat := f c tyENGINES (4 * n) 2

/-- The engine of a slot of a seat (R175). -/
def engineOf (c : Canvas) (seat slot : Nat) : Nat :=
  let l := (List.range 16).filter (bitOf (engMask c seat))
  l.getD (slot * 40503 % 65536 * l.length / 65536) 0

/-! ### VEE (R214) -/

/-- The rule set assigned to a seat: 0xFF for the empty one. -/
def veeAssign (c : Canvas) (n : Nat) : Nat := f c tyVEE (64 + n) 1

/-- The empty rule set: ENABLE 0 and AVG_SH 4. -/
def emptySet : Bytes := slice [0, 0, 0, 0, 0, 4] 0 64

/-- The rule set record of a seat; a canvas without a VEE section runs the empty one. -/
def veeSet (c : Canvas) (n : Nat) : Bytes :=
  if sectIdx c tyVEE = none ∨ veeAssign c n = 0xFF then emptySet
  else slice (body c tyVEE) (128 + 64 * veeAssign c n) 64

/-! ### ACCESS (R210) -/

/-- The right of a role for a group of objects: 0 none, 1 read, 2 or 3 read and action. -/
def right (c : Canvas) (seat level group : Nat) : Nat := bitsOf (f c tyACCESS (12 * seat + 4 * level) 4) (2 * group + 1) (2 * group)

/-! ### Sweep placement (R65) -/

/-- The 20 bits of a slot index reversed. -/
def bitrev20 (s : Nat) : Nat := (List.range 20).foldl (fun a i => 2 * a + (s / 2 ^ i) % 2) 0

/-- The offset of a slot's closes in ticks. -/
def sweepOff (c : Canvas) (s : Nat) : Nat := bitrev20 s * span c / 2 ^ 20

end Canvas

end Sys2Proof.Machine
end

