-- ==== Sys2Proof/Machine/LedgerImg.lean ====
section
/-!
DEFINITION. The ledger of a slot as its 32 blocks of bytes, each closed by its derivation seal (R178 to R185, R215, R236).
-/

namespace Sys2Proof.Machine

/-- Has a tick no deltas? -/
def JTick.isEmpty (j : JTick) : Bool :=
  j.recs.isEmpty && j.ledgers.isEmpty && j.keys.isEmpty && j.dir.isEmpty && j.camps.isEmpty && j.ceils.isEmpty

/-- A quantity's entry of a list, zero where it is missing. -/
def nthN (l : List Nat) (i : Nat) : Nat := l.getD i 0

/-- The HEADER (R180). -/
def Ledger.headerBytes (l : Ledger) (slot seat : Nat) : Bytes :=
  leBytes 4 (slot + 2 ^ 20 * seat) ++ leBytes 1 l.st ++ leBytes 1 l.lver ++ leBytes 1 l.palLast ++ leBytes 1 (b2n l.billed) ++
  leBytes 4 (l.ringTop.getD 0) ++ leBytes 8 l.lastTick ++ leBytes 4 l.applied ++ leBytes 6 l.aseq ++
  leBytes 2 l.billPeriod ++ leBytes 4 l.billIdx ++ leBytes 2 l.tamperOvf ++ zeros 2 ++ leBytes 4 l.lastStatus ++
  leBytes 5 l.statusTime ++ zeros 11

/-- An energy block (R181). -/
def Energy.bytes (e : Energy) : Bytes :=
  leBytes 6 e.total ++ (List.range 8).flatMap (fun r => leBytes 6 (nthN e.rates r)) ++ leBytes 4 e.lastIdx ++
  leBytes 2 (min e.defcnt 0xFFFF)

/-- MIRROR (R182). -/
def Ledger.mirrorBytes (l : Ledger) : Bytes :=
  (List.range 4).flatMap (fun q => leBytes 6 (nthN l.mtot q)) ++ leBytes 5 l.mtotTime ++ leBytes 4 l.mmd ++
  leBytes 5 l.mmdTime ++ (List.range 4).flatMap (fun q => leBytes 5 (nthN l.mtotT q)) ++ zeros 2

/-- Entries 6i to 6i + 5 of a demand table (R183). -/
def dmaxBytes (t : List Dmax) (i : Nat) : Bytes :=
  (List.range 6).flatMap fun j =>
    let e := t.getD (6 * i + j) {}
    leBytes 4 e.value ++ leBytes 5 e.time ++ leBytes 1 e.dfl

/-- Ring entries that the ring holds (R184). -/
def ringLen : Nat := 45

/-- Word W0 of the entry of interval `k` (R184). -/
def RingEntry.w0 (e : RingEntry) (k : Nat) : Nat :=
  k % 2 ^ 20 + 2 ^ 20 * (e.qp % 16) + 2 ^ 24 * b2n e.real + 2 ^ 25 * b2n e.est + 2 ^ 26 * b2n e.fwd +
  2 ^ 27 * b2n e.tbad + 2 ^ 28 * ((e.rate - 1) % 8) + 2 ^ 31 * b2n e.dfl

/-- The ring entry at place `j`, with its interval. -/
def Ledger.ringAt (l : Ledger) (j : Nat) : Option (Nat × RingEntry) := l.ring.find? fun p => p.1 % ringLen == j

/-- RING block `i`, 0 to 14 (R184). -/
def Ledger.ringBytes (l : Ledger) (i : Nat) : Bytes :=
  (List.range 3).flatMap fun j =>
    match l.ringAt (3 * i + j) with
    | some (k, e) => leBytes 4 (e.w0 k) ++ (List.range 4).flatMap fun q => leBytes 4 (nthN e.v q)
    | none => zeros 20

/-- TAMPER block `i`, 0 or 1 (R185). -/
def Ledger.tamperBytes (l : Ledger) (i : Nat) : Bytes :=
  ((List.range 4).flatMap fun j =>
    let t := l.tamper.getD (4 * i + j) {}
    leBytes 2 t.code ++ leBytes 2 t.count ++ leBytes 5 t.first ++ leBytes 5 t.last) ++ zeros 4

/-- TAMPER_RECENT (R185). -/
def Ledger.recentBytes (l : Ledger) : Bytes :=
  (List.range 10).flatMap fun i => match l.recent[i]? with
    | some (m, e) => leBytes 6 (m % 2 ^ 40 + 2 ^ 40 * e)
    | none => zeros 6

/-- VEE (R215). -/
def VeeBlk.bytes (v : VeeBlk) : Bytes :=
  (List.range 4).flatMap (fun q => leBytes 4 (wrapI 32 (v.avg.getD q 0))) ++ leBytes 2 v.stuckRun ++ leBytes 2 v.estRun ++
  leBytes 8 v.susp ++ leBytes 2 v.rules ++ (List.range 11).flatMap (fun i => leBytes 2 (nthN v.cnt i)) ++ zeros 8

/-- BALANCE (R236). -/
def BalBlk.bytes (b : BalBlk) : Bytes :=
  leBytes 4 b.r ++ leBytes 4 b.b ++ leBytes 4 b.p11 ++ leBytes 4 b.p12 ++ leBytes 4 b.p22 ++ leBytes 4 b.s2 ++
  leBytes 4 b.rBase ++ leBytes 2 b.nsamp ++ leBytes 2 b.vPend ++ leBytes 2 (wrapI 16 b.iPend) ++ leBytes 5 b.tPend ++
  leBytes 1 b.pend ++ leBytes 2 b.vmean ++ leBytes 2 b.vvar ++
  (List.range 3).flatMap (fun q => leBytes 2 (wrapI 16 (b.cov.getD q 0))) ++ leBytes 1 b.csamp ++ leBytes 1 b.phase ++
  leBytes 1 b.sBal ++ leBytes 1 b.sImp ++ leBytes 1 b.sTam ++ leBytes 1 b.score ++ leBytes 1 b.afl ++ zeros 3

/-- Bytes 0–59 of block `b` (R179). -/
def Ledger.blockBytes (l : Ledger) (slot seat b : Nat) : Bytes :=
  if b = 0 then l.headerBytes slot seat
  else if b ≤ 4 then (l.energy.getD (b - 1) {}).bytes
  else if b = 5 then l.mirrorBytes
  else if b ≤ 8 then dmaxBytes l.dmaxCur (b - 6)
  else if b ≤ 11 then dmaxBytes l.dmaxPrev (b - 9)
  else if b ≤ 26 then l.ringBytes (b - 12)
  else if b ≤ 28 then l.tamperBytes (b - 27)
  else if b = 29 then l.recentBytes
  else if b = 30 then l.vee.bytes
  else l.bal.bytes

/-- The derivation seal of a block (R178). -/
def derivSeal (slot b : Nat) (body : Bytes) : Nat := sealOf (leBytes 4 (slot % 2 ^ 20) ++ leBytes 1 b ++ body)

/-- The derivation seal of block `b` of a ledger. -/
def Ledger.chk (l : Ledger) (slot seat b : Nat) : Nat := derivSeal slot b (l.blockBytes slot seat b)

/-- A block with its derivation seal: the image of a journal delta or of a DERIVED record. -/
def Ledger.image (l : Ledger) (slot seat b : Nat) : Bytes := l.blockBytes slot seat b ++ leBytes 4 (l.chk slot seat b)

/-- The blocks in which two ledgers of a slot differ, one bit each. -/
def Ledger.diff (l m : Ledger) (slot seat : Nat) : Nat :=
  (List.range 32).foldl (fun a b => if l.blockBytes slot seat b = m.blockBytes slot seat b then a else a + 2 ^ b) 0

/-- Take block `b` of another image of the ledger. -/
def Ledger.takeBlock (l m : Ledger) (b : Nat) : Ledger :=
  if b = 0 then
    { l with
      st := m.st, lver := m.lver, palLast := m.palLast, billed := m.billed, ringTop := m.ringTop, lastTick := m.lastTick
      applied := m.applied, aseq := m.aseq, billPeriod := m.billPeriod, billIdx := m.billIdx, bills := m.bills
      tamperOvf := m.tamperOvf, lastStatus := m.lastStatus, statusTime := m.statusTime }
  else if b ≤ 4 then { l with energy := l.energy.set (b - 1) (m.energy.getD (b - 1) {}) }
  else if b = 5 then
    { l with mtot := m.mtot, mtotTime := m.mtotTime, mmd := m.mmd, mmdTime := m.mmdTime, mtotT := m.mtotT }
  else if b ≤ 8 then
    { l with dmaxCur := (List.range 18).map fun i =>
        (if i / 6 = b - 6 then m.dmaxCur else l.dmaxCur).getD i {} }
  else if b ≤ 11 then
    { l with dmaxPrev := (List.range 18).map fun i =>
        (if i / 6 = b - 9 then m.dmaxPrev else l.dmaxPrev).getD i {} }
  else if b ≤ 26 then
    let mine := fun (p : Nat × RingEntry) => p.1 % ringLen / 3 == b - 12
    { l with ring := (m.ring.filter mine).foldl (fun r p => SMap.put r p.1 p.2) (l.ring.filter fun p => !mine p) }
  else if b ≤ 28 then
    { l with tamper := (List.range 8).map fun i =>
        (if i / 4 = b - 27 then m.tamper else l.tamper).getD i {} }
  else if b = 29 then { l with recent := m.recent }
  else if b = 30 then { l with vee := m.vee }
  else { l with bal := m.bal }

/-! ### The ledgers of the device -/

/-- The ledger of a slot. -/
def Dev.ledger (d : Dev) (slot : Nat) : Ledger := SMap.get (fun _ => {}) d.ldg.ledgers slot

/-- The seat that owns a slot, 0 where none does. -/
def Dev.owner (d : Dev) (slot : Nat) : Nat := (d.cfg.seatOfSlot slot).getD 0

/-- Put a ledger back without a journal delta. -/
def Dev.setLedger (d : Dev) (slot : Nat) (l : Ledger) : Dev :=
  { d with ldg := { d.ldg with ledgers := SMap.set (fun _ => {}) d.ldg.ledgers slot l } }

/-- Steps 5 to 7 of R176: the changed blocks are sealed, committed in one write, and placed in the tick's journal deltas; they
count as changed since the slot's previous close (R206). -/
def Dev.commitLedger (d : Dev) (slot : Nat) (l : Ledger) : Dev :=
  let m := (d.ledger slot).diff l slot (d.owner slot)
  let l := { l with changed := l.changed ||| m }
  let d := d.setLedger slot l
  let j := d.ldg.jrn
  if m = 0 then d else
  { d with ldg := { d.ldg with jrn := { j with
    ledgers := SMap.set (fun _ => {}) j.ledgers slot l
    blocks := SMap.upd (fun _ => 0) j.blocks slot (· ||| m) } } }

/-! ### DERIVED records (R206, R207, R224) -/

/-- Does the image of block `b` hold a delta rated under the default palette (R191, R207)? -/
def Ledger.holdsDef (l : Ledger) (b : Nat) : Bool :=
  if b = 0 then false
  else if b ≤ 4 then (l.energy.getD (b - 1) {}).defcnt != 0
  else if 6 ≤ b ∧ b ≤ 11 then
    (List.range 6).any fun i =>
      bitOf (((if b ≤ 8 then l.dmaxCur else l.dmaxPrev).getD (6 * ((b - 6) % 3) + i) {}).dfl) 0
  else if 12 ≤ b ∧ b ≤ 26 then l.ring.any fun p => p.1 % ringLen / 3 == b - 12 && p.2.dfl
  else false

/-- ESTIMATED of a DERIVED record (R224). -/
def Ledger.holdsEst (l : Ledger) (b : Nat) : Bool :=
  if 1 ≤ b ∧ b ≤ 4 then l.ring.any fun p => p.2.est
  else if 12 ≤ b ∧ b ≤ 26 then l.ring.any fun p => p.1 % ringLen / 3 == b - 12 && p.2.est
  else false

/-- SUSPECT of a DERIVED record (R224). -/
def Ledger.holdsSusp (l : Ledger) (b : Nat) : Bool :=
  if 12 ≤ b ∧ b ≤ 26 then (List.range 3).any fun i => bitOf l.vee.susp (3 * (b - 12) + i)
  else b == 30 && l.vee.acted

/-- The marks that the causes 1, 2 and 4 carry (R207). -/
def causeMark (cause : Nat) : Nat :=
  match cause with
  | 1 => 16
  | 2 => 4
  | 3 => 8
  | 4 => 32
  | _ => 0

/-- The billing period to which interval `k` belongs: each billing close at or after it lies one period further back (R196). -/
def Ledger.periodOf (l : Ledger) (k : Nat) : Nat :=
  (l.billPeriod + 2 ^ 16 - (l.bills.filter fun b => decide (k ≤ b)).length % 2 ^ 16) % 2 ^ 16

/-- Emit a DERIVED record of block `b` (R206); `late` gives an interval of the closed billing period that it reports (R196). -/
def Dev.derived (d : Dev) (slot b cause : Nat) (late : Option Nat) (from_ : Option (Nat × Nat)) (atick : Nat) : Dev :=
  let l := d.ledger slot
  let seat := d.owner slot
  let body := leBytes 4 slot ++ leBytes 1 b ++ leBytes 1 cause ++
    leBytes 2 ((late.map l.periodOf).getD l.billPeriod) ++ l.image slot seat b
  let flags := causeMark cause ||| (if late.isSome then 8 else 0) ||| (if l.holdsDef b then 2 else 0) |||
    (if l.holdsEst b then 64 else 0) ||| (if l.holdsSusp b then 128 else 0)
  let d := d.stage seat from_ upDERIVED flags atick body
  if b = 30 then d.setLedger slot { d.ledger slot with vee := { (d.ledger slot).vee with acted := false } } else d

end Sys2Proof.Machine
end

