-- ==== Sys2Proof/Machine/Vee.lean ====
section
/-!
DEFINITION. Validation, estimation and editing (R214 to R224), with what they add to the ledger: deltas with their rates
(R188 to R191) and demand windows (R194, R196). Every operation works on the ledger of one slot, held apart until the
engine commits it (R176).
-/

namespace Sys2Proof.Machine

/-- The work on one slot: the device, the ledger being changed, and what the running record has come to. -/
structure LCtx where
  d : Dev
  l : Ledger
  slot : Nat
  seat : Nat
  /-- DEVTIME_INVALID of the running record (R164). -/
  devinv : Bool := false
  /-- A delta of the record was rated under the default palette (R191). -/
  dfr : Bool := false
  /-- DMAX_PREV blocks that a late window changed, each with the interval that ended the window (R196). -/
  lateB : List (Nat × Nat) := []
  /-- Deltas whose amounts have changed and whose windows are not yet evaluated (R194). -/
  dirty : List Nat := []

namespace LCtx

/-- P in minutes (R186). -/
def p (c : LCtx) : Nat := c.d.cfg.seatPeriod c.seat

/-- A field of the rule set (R214). -/
def rule (c : LCtx) (off n : Nat) : Nat := u (c.d.cfg.veeSet c.seat) off n

/-- Is a rule enabled? -/
def ruleOn (c : LCtx) (bit : Nat) : Bool := bitOf (c.rule 0 2) bit

def onL (c : LCtx) (g : Ledger → Ledger) : LCtx := { c with l := g c.l }
def onV (c : LCtx) (g : VeeBlk → VeeBlk) : LCtx := c.onL fun l => { l with vee := g l.vee }
def onD (c : LCtx) (g : Dev → Dev) : LCtx := { c with d := g c.d }

/-- The present entry of interval `k`. -/
def ent (c : LCtx) (k : Nat) : Option RingEntry := SMap.find c.l.ring k

/-- The present entry below interval `k`. -/
def below (c : LCtx) (k : Nat) : Option RingEntry := if k = 0 then none else c.ent (k - 1)

/-- Write an entry. -/
def putEnt (c : LCtx) (k : Nat) (e : RingEntry) : LCtx := c.onL fun l => { l with ring := SMap.put l.ring k e }

/-- The counters of VEE_SEAT_CNT in the order of the VEE block (R215, R225). -/
def cntFld (i : Nat) : Fld :=
  [Reg.VEE_SEAT_CNT_0.GAPS, Reg.VEE_SEAT_CNT_0.ESTS, Reg.VEE_SEAT_CNT_1.EDITS, Reg.VEE_SEAT_CNT_1.LATE,
   Reg.VEE_SEAT_CNT_2.SPIKES, Reg.VEE_SEAT_CNT_2.HIGHS, Reg.VEE_SEAT_CNT_3.ROLLS, Reg.VEE_SEAT_CNT_3.REVS,
   Reg.VEE_SEAT_CNT_4.STUCKS, Reg.VEE_SEAT_CNT_4.TIMES].getD i Reg.VEE_SEAT_CNT_5.BRIDGES

/-- Count in the VEE block and in VEE_SEAT_CNT. -/
def count (c : LCtx) (i : Nat) : LCtx :=
  (c.onV fun v => { v with cnt := v.cnt.set i (min (nthN v.cnt i + 1) 0xFFFF) }).onD (·.bump (cntFld i) 1 c.seat)

/-- Raise a sticky bit whose event names the slot. -/
def sticky (c : LCtx) (S : Sticky) : LCtx := c.onD (·.raiseFor S c.seat c.slot)

/-- Entry `k` is suspect. -/
def suspect (c : LCtx) (k : Nat) : LCtx := c.onV fun v => { v with susp := v.susp ||| 2 ^ (k % ringLen) }

/-- Is entry `k` suspect? -/
def isSusp (c : LCtx) (k : Nat) : Bool := bitOf c.l.vee.susp (k % ringLen)

/-- A rule acts (R216): its RULES bit is set, and entry `k`, where there is one, is suspect. -/
def act (c : LCtx) (bit : Nat) (k : Option Nat) : LCtx :=
  let c := c.onV fun v => { v with rules := v.rules ||| 2 ^ bit, acted := true }
  match k with
  | some k => c.suspect k
  | none => c

/-- GAP acts at the close of interval `k` (R216): its RULES bit is set, and the entry is suspect. It acts on no record, so that
SUSPECT of block 30 does not follow it (R224). -/
def actGap (c : LCtx) (k : Nat) : LCtx := (c.onV fun v => { v with rules := v.rules ||| 2 ^ 6 }).suspect k

/-- Raise RING_TOP to `k`: entries at or below k − 45 are evicted and their SUSP bits cleared (R184, R215). -/
def raiseTop (c : LCtx) (k : Nat) : LCtx :=
  let gone := c.l.ring.filter fun q => q.1 + ringLen ≤ k
  let mask := gone.foldl (fun a q => a ||| 2 ^ (q.1 % ringLen)) 0
  c.onL fun l => { l with
    ringTop := some k
    ring := l.ring.filter fun q => !(q.1 + ringLen ≤ k)
    vee := { l.vee with susp := l.vee.susp - (l.vee.susp &&& mask) } }

/-- Does interval `k` lie above RING_TOP? -/
def above (c : LCtx) (k : Nat) : Bool :=
  match c.l.ringTop with
  | some t => t < k
  | none => true

/-- Does interval `k` lie at or below RING_TOP − 45? -/
def outside (c : LCtx) (k : Nat) : Bool :=
  match c.l.ringTop with
  | some t => k + ringLen ≤ t
  | none => false

/-- Write an estimated entry, raising RING_TOP as a placement would. -/
def putEst (c : LCtx) (k : Nat) (v : List Nat) : LCtx :=
  let c := if c.above k then c.raiseTop k else c
  c.putEnt k { real := false, est := true, v }

/-! ### Deltas into the registers (R189 to R191) -/

/-- delta(k) is estimated: an endpoint entry is, or it is a bridge (R224). -/
def estDelta (c : LCtx) (k : Nat) : Bool :=
  match c.ent k with
  | some e => e.est || e.bridge || ((c.below k).map (·.est)).getD false
  | none => false

/-- Add a signed amount to TOTAL and RATE[r] of quantity `q`. -/
def addEnergy (c : LCtx) (q r : Nat) (a : Int) : LCtx :=
  c.onL fun l =>
    let e := l.energy.getD q {}
    let e := { e with
      total := wrapI 48 (e.total + a)
      rates := e.rates.set (r - 1) (wrapI 48 (nthN e.rates (r - 1) + a)) }
    { l with energy := l.energy.set q e }

/-- Add a list of amounts, one for each quantity. -/
def addEnergies (c : LCtx) (r : Nat) (as : List Int) : LCtx :=
  as.zipIdx.foldl (fun c a => c.addEnergy a.2 r a.1) c

/-- Change every energy block. -/
def onEnergy (c : LCtx) (g : Energy → Energy) : LCtx := c.onL fun l => { l with energy := l.energy.map g }

/-- The rate of a new delta(k), its PID, and whether the default palette rates it (R190, R191). -/
def rateNew (c : LCtx) (k : Nat) (e : RingEntry) : Nat × Nat × Bool :=
  if e.tbad || ((c.below k).map (·.tbad)).getD false || c.devinv then
    let r := c.d.cfg.defaultRate c.seat
    (r.1, r.2, true)
  else
    let r := c.d.cfg.rateOf c.seat c.slot k
    (r.1, r.2, false)

/-! ### Demand windows (R194, R196) -/

/-- Sum of the amounts of quantity `q` over entries. -/
def sumQ (es : List RingEntry) (q : Nat) : Int := es.foldl (fun a e => a + e.added.getD q 0) 0

/-- Raise an entry of a demand table. -/
def dmaxRaise (t : List Dmax) (i v time dfl : Nat) : List Dmax :=
  if (t.getD i {}).value < v then t.set i { value := v, time, dfl } else t

/-- Evaluate the window that ends at `kk`, if the palette of delta(kk) has one there and it holds delta(j). -/
def window (c : LCtx) (kk j : Nat) : LCtx :=
  let pal := (c.d.cfg.palOfDelta c.seat c.slot kk).2
  let n := pal.window
  if n = 0 || (!pal.sliding && kk % n != 0) || j + n ≤ kk || kk + 1 < n then c else
  let ks := (List.range n).map fun i => kk + 1 - n + i
  let es := ks.filterMap c.ent
  if es.length < n || es.any (!·.fwd) || ks.any c.estDelta then c else
  let late := c.l.billed && kk ≤ c.l.billIdx
  let dfl := b2n (es.any (·.dfl)) + 2 * b2n pal.sliding
  let rate := (es.getLast?.map (·.rate)).getD 1
  let t0 := if late then c.l.dmaxPrev else c.l.dmaxCur
  let t1 := [0, 1].foldl (fun t q =>
    let w := min (Int.fdiv (sumQ es q * 6) ((n * c.p : Nat) : Int)).toNat (2 ^ 32 - 1)
    let t := dmaxRaise t (9 * q) w (kk * c.p * 60) dfl
    dmaxRaise t (9 * q + rate) w (kk * c.p * 60) dfl) t0
  if late then
    let bs := (List.range 3).filter fun i => dmaxBytes t0 i != dmaxBytes t1 i
    { c.onL fun l => { l with dmaxPrev := t1 } with lateB := c.lateB ++ bs.map fun i => (i + 9, kk) }
  else c.onL fun l => { l with dmaxCur := t1 }

/-- Evaluate every window that holds delta(j). -/
def windows (c : LCtx) (j : Nat) : LCtx := (List.range 15).foldl (fun c i => c.window (j + i) j) c

/-- Every delta of the record is in place: the windows that hold a changed one are evaluated (R194, R222). -/
def settle (c : LCtx) : LCtx := { c.dirty.eraseDups.foldl windows c with dirty := [] }

/-- add_delta (R189 to R191): the first amounts of delta(k) are rated and added; later ones replace them at the rate stored
in the entry (R222). The windows that hold the delta are evaluated once all deltas of the record stand. -/
def addDelta (c : LCtx) (k : Nat) (a : List Int) (bridge : Bool := false) : LCtx :=
  match c.ent k with
  | none => c
  | some e =>
    let c := if e.fwd then
        let c := (c.addEnergies e.rate ((List.range 4).map fun q => a.getD q 0 - e.added.getD q 0)).putEnt k { e with added := a }
        { c with dfr := c.dfr || e.dfl }
      else
        let (r, pid, df) := c.rateNew k e
        let c := (c.addEnergies r a).onEnergy fun b =>
          { b with lastIdx := k, defcnt := min (b.defcnt + b2n df) 0xFFFF }
        let c := (c.onL fun l => { l with palLast := pid }).putEnt k
          { e with fwd := true, rate := r, dfl := df, added := a, bridge }
        if df then { c.onD (·.bump Reg.LDG_SEAT_CNT_2.DEF_RATED 1 c.seat) with dfr := true } else c
    let c := if c.l.billed && k ≤ c.l.billIdx then c.onL fun l => { l with lateAt := some k } else c
    { c with dirty := c.dirty ++ [k] }

/-! ### Validation of deltas (R216, R217) -/

/-- The amounts of the rule bits and their counters (R214, R215). -/
def rTIME : Nat := 0
def rROLL : Nat := 1
def rREV : Nat := 2
def rHIGH : Nat := 3
def rSPIKE : Nat := 4
def rSTUCK : Nat := 5
def rGAP : Nat := 6

/-- Half of 2^32: a delta from here on is a decrease (R189). -/
def neg : Nat := 2 ^ 31

/-- Rules 2 to 4 on delta(k) of one quantity: the amount to add (R216). -/
def testOne (c : LCtx) (k x : Nat) : LCtx × Nat :=
  let dmax := c.rule 16 4
  let roll := u (c.d.cfg.veeSet c.seat) 28 6
  let y := (x + roll) % 2 ^ 32
  if c.ruleOn rROLL && dmax < x && roll != 0 && y ≤ dmax then ((c.act rROLL (some k)).count 6, y)
  else if c.ruleOn rREV && neg ≤ x && 2 ^ 32 - x ≤ c.rule 24 4 then
    (((c.act rREV (some k)).count 7).sticky Stk.VEE.REV, 0)
  else if c.ruleOn rHIGH && dmax < x then
    (((c.act rHIGH (some k)).count 5).sticky Stk.VEE.HIGH, if bitOf (c.rule 2 1) 1 || neg ≤ x then 0 else x)
  else if neg ≤ x then (c.suspect k, 0)
  else (c, x)

/-- Rules 2 to 4 on the quantities of a list. -/
def test (c : LCtx) (k : Nat) (a : List Nat) (qs : List Nat) : LCtx × List Nat :=
  qs.foldl (fun r q =>
    let t := r.1.testOne k (nthN r.2 q)
    (t.1, r.2.set q t.2)) (c, a)

/-- SPIKE on the added amounts. -/
def spike (c : LCtx) (k : Nat) (a : List Nat) (qs : List Nat) : LCtx :=
  if !c.ruleOn rSPIKE then c else
  qs.foldl (fun c q =>
    if c.rule 20 4 ≤ nthN a q ∧ (c.rule 6 1 : Int) * c.l.vee.avg.getD q 0 < 16 * (nthN a q : Int) then
      (c.act rSPIKE (some k)).count 4
    else c) c

/-- STUCK on the active import amount. -/
def stuck (c : LCtx) (k a : Nat) : LCtx :=
  if !c.ruleOn rSTUCK then c
  else if a ≠ 0 then c.onV fun v => { v with stuckRun := 0 }
  else
    let old := c.l.vee.stuckRun
    let c := c.onV fun v => { v with stuckRun := min (old + 1) 0xFFFF }
    let n := c.rule 8 2
    if c.l.vee.stuckRun < n then c
    else if old < n then ((c.act rSTUCK (some k)).count 8).sticky Stk.VEE.STUCK
    else c.act rSTUCK (some k)

/-- The running mean of R217. -/
def mean (c : LCtx) (a : List Nat) (qs : List Nat) : LCtx :=
  let sh := c.rule 5 1
  c.onV fun v => { v with avg := qs.foldl (fun av q =>
    let m := av.getD q 0
    let m := m + Int.fdiv (16 * (nthN a q : Int) - m) (2 ^ sh : Nat)
    av.set q (max (-(2 ^ 31 : Nat)) (min ((2 ^ 31 : Nat) - 1) m))) v.avg }

/-- Rules 5 and 6 and the running mean on a delta whose endpoint entries are both REAL (R216, R217). -/
def after (c : LCtx) (k : Nat) (a : List Nat) (qs : List Nat) : LCtx :=
  let c := c.spike k a qs
  let c := if qs.contains 0 then c.stuck k (nthN a 0) else c
  if c.isSusp k then c else c.mean a qs

/-- All four quantities. -/
def allQ : List Nat := [0, 1, 2, 3]

/-- Amounts as integers. -/
def ints (a : List Nat) : List Int := a.map Int.ofNat

/-- The delta of an entry over one below, modulo 2^32. -/
def deltaOf (lo hi : List Nat) (q : Nat) : Nat := (nthN hi q + 2 ^ 32 - nthN lo q % 2 ^ 32) % 2 ^ 32

/-- One delta that has become computable (R188). -/
def forwardOne (c : LCtx) (j : Nat) : LCtx :=
  match c.ent j, c.below j with
  | some e, some lo =>
    if e.fwd then c else
    let t := c.test j (allQ.map (deltaOf lo.v e.v)) allQ
    let c := t.1.addDelta j (ints t.2)
    if e.real && lo.real then c.after j t.2 allQ else c
  | _, _ => c

/-- Every delta that has become computable by a value at `k` (R188). -/
def forward (c : LCtx) (k : Nat) : LCtx := (c.forwardOne k).forwardOne (k + 1)

/-! ### Interpolation (R219, R220) and bridges (R221) -/

/-- Interval `i` of `n` receives this amount of a difference (R220). -/
def share (dd n i : Nat) : Nat := if dd < neg then dd / n + b2n (decide (i ≤ dd % n)) else if i = n then dd else 0

/-- The first `i` of these amounts together. -/
def shares (dd n i : Nat) : Nat := if dd < neg then i * (dd / n) + min i (dd % n) else 0

/-- The values of the entries between two present ones, for the quantities of a list. -/
def interpVals (c : LCtx) (a b : Nat) (va vb : List Nat) (qs : List Nat) : LCtx :=
  let n := b - a
  (List.range (n - 1)).foldl (fun c i0 =>
    let k := a + 1 + i0
    let put := fun (v : List Nat) => qs.foldl (fun v q =>
      v.set q ((nthN va q + shares (deltaOf va vb q) n (i0 + 1)) % 2 ^ 32)) v
    match c.ent k with
    | some e => c.putEnt k { e with v := put e.v }
    | none => (c.putEst k (put va)).count 1) c

/-- The deltas between two present entries, for the quantities of a list. Those of D ≥ 2^31 are tested at the upper end (R220); where
nothing lies between, the one delta is that of R188, and it is tested whatever its size, as on a first placement (R23). -/
def interpAdd (c : LCtx) (a b : Nat) (va vb : List Nat) (qs : List Nat) : LCtx :=
  let n := b - a
  (List.range n).foldl (fun c i0 =>
    let i := i0 + 1
    let k := a + i
    match c.ent k, c.below k with
    | some e, some lo =>
      let am := allQ.map fun q =>
        if qs.contains q then share (deltaOf va vb q) n i else (e.added.getD q 0).toNat
      let big := if i = n then qs.filter fun q => n = 1 || neg ≤ deltaOf va vb q else []
      let t := c.test k am big
      let c := t.1.addDelta k (ints t.2)
      if e.real && lo.real && !e.bridge then c.after k t.2 qs else c
    | _, _ => c) c

/-- Interpolation between present entries `a` and `b` (R220). -/
def interpolate (c : LCtx) (a b : Nat) (qs : List Nat) : LCtx :=
  match c.ent a, c.ent b with
  | some ea, some eb => (c.interpVals a b ea.v eb.v qs).interpAdd a b ea.v eb.v qs
  | _, _ => c

/-- A bridge delta from a value `lo` to entry `k` (R221). -/
def bridgeTo (c : LCtx) (lo : List Nat) (k : Nat) : LCtx :=
  match c.ent k with
  | none => c
  | some e =>
    let t := c.test k (allQ.map (deltaOf lo e.v)) allQ
    ((t.1.count 10).sticky Stk.VEE.BRIDGE).addDelta k (ints t.2) true

/-! ### Editing (R222) -/

/-- The lowest interval of the ring. -/
def ringLow (c : LCtx) : Nat := match c.l.ringTop with
  | some t => t + 1 - ringLen
  | none => 0

/-- The nearest REAL entry below `k` within the ring, if every entry between is estimated. -/
def realBelow (c : LCtx) (k : Nat) : Nat → Option Nat
  | 0 => none
  | f + 1 =>
    if k ≤ c.ringLow then none else
    match c.ent (k - 1) with
    | some e => if e.real then some (k - 1) else realBelow c (k - 1) f
    | none => none

/-- The nearest REAL entry above `k`, if every entry between is estimated. -/
def realAbove (c : LCtx) (k : Nat) : Nat → Option Nat
  | 0 => none
  | f + 1 =>
    match c.ent (k + 1) with
    | some e => if e.real then some (k + 1) else realAbove c (k + 1) f
    | none => none

/-- Shift the run of estimated entries from `k` up to the first entry that is not, by a difference per quantity. -/
def shiftUp (c : LCtx) (k : Nat) (old new : List Nat) : Nat → LCtx
  | 0 => c
  | f + 1 =>
    match c.ent k with
    | some e =>
      if e.est then
        shiftUp (c.putEnt k { e with v := allQ.map fun q => (nthN e.v q + deltaOf old new q) % 2 ^ 32 }) (k + 1) old new f
      else c
    | none => c

/-- A real value has been put at `k`, whose values were `old`: the estimates around it are redrawn for the quantities of a
list (R184, R222). -/
def edit (c : LCtx) (k : Nat) (old : List Nat) (qs : List Nat) : LCtx :=
  let c := match c.realBelow k ringLen with
    | some j => c.interpolate j k qs
    | none => if (c.below k).isSome then c.interpolate (k - 1) k qs else c
  match c.realAbove k ringLen with
  | some j => c.interpolate k j qs
  | none => match c.ent k with
    | some e => c.shiftUp (k + 1) old e.v ringLen
    | none => c

/-! ### Placing a value (R184, R188, R219, R221 to R223) -/

/-- The nearest present entry below `k`. -/
def nearest (c : LCtx) (k : Nat) : Option (Nat × RingEntry) := (c.l.ring.filter fun q => q.1 < k).getLast?

/-- A real value of quantity `q` is placed at an empty entry `k`. The other quantities take what the nearest present entry below `k`
within the ring holds, once the ring stands at `k` (R184); a bridge counts from the nearest present entry before that (R221). -/
def placeNew (c : LCtx) (k q v : Nat) (tbad flag : Bool) : LCtx :=
  let lo := c.nearest k
  let up := c.above k
  let c := if up then (c.raiseTop k).onV fun w => { w with estRun := 0 } else c
  let vals := (((c.nearest k).map (·.2.v)).getD [0, 0, 0, 0]).set q v
  let c := c.putEnt k { real := true, est := false, tbad, qp := 2 ^ q, v := vals }
  let c := if flag then c.suspect k else c
  let c := match lo with
    | none => c
    | some (j, e) => if j + 44 < k then c.bridgeTo e.v k else if j + 2 ≤ k then c.interpolate j k allQ else c
  (c.forward k).settle

/-- A real value of quantity `q` replaces an estimated entry (R222). -/
def placeEst (c : LCtx) (k q v : Nat) (e : RingEntry) (tbad flag : Bool) : LCtx :=
  let c := c.putEnt k { e with real := true, est := false, tbad, qp := 2 ^ q, v := e.v.set q v }
  let c := if flag then c.suspect k else c
  (((c.count 2).edit k e.v allQ).forward k).settle

/-- A quantity joins a REAL entry that has no value of it yet (R184). -/
def placeMore (c : LCtx) (k q v : Nat) (e : RingEntry) (tbad flag : Bool) : LCtx :=
  let c := c.putEnt k { e with tbad := e.tbad || tbad, qp := e.qp + 2 ^ q, v := e.v.set q v }
  let c := if flag then c.suspect k else c
  ((c.edit k e.v [q]).forward k).settle

/-! ### Extrapolation at a close (R218) -/

/-- The close of interval `k` finds its entry empty: GAPS is counted, and with GAP enabled and entry k − 1 present an estimate
is written. -/
def closeGap (c : LCtx) (k : Nat) : LCtx :=
  if (c.ent k).isSome || c.outside k then c else
  let c := c.count 0
  match c.below k with
  | none => c
  | some lo =>
    if !c.ruleOn rGAP then c else
    let avg := c.l.vee.estRun < c.rule 4 1 && c.rule 3 1 % 4 = 0
    let e := allQ.map fun q => if avg then Int.fdiv (c.l.vee.avg.getD q 0) 16 else 0
    let v := allQ.map fun q => wrapI 32 (nthN lo.v q + e.getD q 0)
    let c := (c.putEst k v).onV fun w => { w with estRun := min (w.estRun + 1) 0xFFFF }
    (((c.actGap k).count 1).addDelta k e).settle

end LCtx

end Sys2Proof.Machine
end

