-- ==== Sys2Proof/Machine/Topology.lean ====
section
/-!
DEFINITION. The TOPOLOGY section (R226 to R229) and the exact values of the fields that the drop impedance tracker keeps.
-/

namespace Sys2Proof.Machine

namespace Canvas

/-- Is a TOPOLOGY section in force? -/
def hasTopo (c : Canvas) : Bool := (sectIdx c tyTOPOLOGY).isSome

def nNode (c : Canvas) : Nat := f c tyTOPOLOGY 0 4
def nDrop (c : Canvas) : Nat := f c tyTOPOLOGY 4 4
def xWait (c : Canvas) : Nat := f c tyTOPOLOGY 8 2
def hDepth (c : Canvas) : Nat := f c tyTOPOLOGY 10 2

/-- A field of a seat's parameter record (R229). -/
def balParam (c : Canvas) (seat off n : Nat) : Nat := f c tyTOPOLOGY (64 + 32 * seat + off) n

def bpLAG (c : Canvas) (n : Nat) : Nat := balParam c n 0 1
def bpFORGET (c : Canvas) (n : Nat) : Nat := balParam c n 1 1
def bpCSH (c : Canvas) (n : Nat) : Nat := balParam c n 2 1
def bpALARM_THR (c : Canvas) (n : Nat) : Nat := balParam c n 3 1
def bpALARM_N (c : Canvas) (n : Nat) : Nat := balParam c n 4 1
def bpNODE_N (c : Canvas) (n : Nat) : Nat := balParam c n 5 1
def bpW_BAL (c : Canvas) (n : Nat) : Nat := balParam c n 6 1
def bpW_IMP (c : Canvas) (n : Nat) : Nat := balParam c n 7 1
def bpW_TAM (c : Canvas) (n : Nat) : Nat := balParam c n 8 1
def bpRES_LO (c : Canvas) (n : Nat) : Nat := balParam c n 10 2
def bpRES_HI (c : Canvas) (n : Nat) : Nat := balParam c n 12 2
def bpRES_ALARM (c : Canvas) (n : Nat) : Nat := balParam c n 14 2
def bpIMP_RISE (c : Canvas) (n : Nat) : Nat := balParam c n 16 2
def bpEST_LIM (c : Canvas) (n : Nat) : Nat := balParam c n 18 2
def bpTWIN (c : Canvas) (n : Nat) : Nat := balParam c n 20 2
def bpCMIN (c : Canvas) (n : Nat) : Nat := balParam c n 22 2
def bpCMARGIN (c : Canvas) (n : Nat) : Nat := balParam c n 24 2
def bpI_MIN (c : Canvas) (n : Nat) : Nat := balParam c n 26 2
def bpV_NOM (c : Canvas) (n : Nat) : Nat := balParam c n 28 2
def bpEIN_MIN (c : Canvas) (n : Nat) : Nat := balParam c n 30 2

/-- A field of a node record (R227). -/
def nodeF (c : Canvas) (i off n : Nat) : Nat := f c tyTOPOLOGY (2112 + 32 * i + off) n

def nodeType (c : Canvas) (i : Nat) : Nat := nodeF c i 0 1
def nodeSeat (c : Canvas) (i : Nat) : Nat := nodeF c i 1 1
def nodeSpan (c : Canvas) (i : Nat) : Bool := bitOf (nodeF c i 2 1) 0
def nodeRefph (c : Canvas) (i : Nat) : Nat := bitsOf (nodeF c i 2 1) 2 1
def nodeParent (c : Canvas) (i : Nat) : Option Nat :=
  if nodeF c i 4 4 = 0x3FFFF then none else some (nodeF c i 4 4)
def nodeSupply (c : Canvas) (i : Nat) : Nat := bitsOf (nodeF c i 8 4) 19 0
def nodeHasSup (c : Canvas) (i : Nat) : Bool := bitOf (nodeF c i 8 4) 20
def nodeNL (c : Canvas) (i : Nat) : Nat := nodeF c i 12 4
def nodeLL (c : Canvas) (i : Nat) : Nat := nodeF c i 16 4
def nodeSRATED (c : Canvas) (i : Nat) : Nat := nodeF c i 20 4
def nodeG (c : Canvas) (i : Nat) : Nat := nodeF c i 24 4
def nodeHome (c : Canvas) (i : Nat) : Nat := nodeF c i 28 1
def nodeNpart (c : Canvas) (i : Nat) : Nat := nodeF c i 29 1

/-- A node's record. -/
def nodeRec (c : Canvas) (i : Nat) : Bytes := slice (body c tyTOPOLOGY) (2112 + 32 * i) 32

/-- The drop record that governs a slot: the first that names it (R228). -/
def dropOf (c : Canvas) (slot : Nat) : Option Bytes :=
  let b := body c tyTOPOLOGY
  ((List.range (nDrop c)).map fun i => slice b (2112 + 32 * nNode c + 8 * i) 8).find? fun r =>
    bitsOf (u r 0 4) 19 0 == slot

def dropPoly (r : Bytes) : Bool := bitOf (u r 0 4) 20
def dropDecl (r : Bytes) : Nat := bitsOf (u r 0 4) 22 21
def dropNode (r : Bytes) : Nat := bitsOf (u r 4 4) 16 0

/-- The nodes that a slot supplies. -/
def suppliedBy (c : Canvas) (slot : Nat) : List Nat :=
  (List.range (nNode c)).filter fun i => nodeHasSup c i && nodeSupply c i == slot

/-- The first node that passes a test on the way from node `i` to its root; `fuel` bounds the chain (R227: 4 nodes). -/
def firstUp (c : Canvas) (ok : Nat → Bool) (i : Nat) : Nat → Option Nat
  | 0 => none
  | n + 1 => if ok i then some i else match nodeParent c i with
    | some j => firstUp c ok j n
    | none => none

/-- A slot's nearest TRANSFORMER ancestor, and its nearest ancestor with a supply. -/
def xfmrOf (c : Canvas) (node : Nat) : Option Nat := firstUp c (fun i => nodeType c i == 2) node 8
def supOf (c : Canvas) (node : Nat) : Option Nat := firstUp c (nodeHasSup c) node 8

/-- The node whose reference ring a supply slot feeds: the nearest TRANSFORMER among its nodes (R237). -/
def refNodeOf (c : Canvas) (slot : Nat) : Option Nat := ((suppliedBy c slot).filter fun i => nodeType c i == 2).getLast?

end Canvas

/-- The exact value of a binary32 field (R236). -/
def f32 (w : Nat) : Rat :=
  let e := bitsOf w 30 23
  let m := bitsOf w 22 0
  let v : Rat :=
    if e = 0 then (m : Rat) / (2 ^ 149 : Nat)
    else if e < 150 then ((2 ^ 23 + m : Nat) : Rat) / (2 ^ (150 - e) : Nat)
    else if e < 255 then (((2 ^ 23 + m) * 2 ^ (e - 150) : Nat) : Rat)
    else 0
  if bitOf w 31 then -v else v

/-- The largest power of two, as an exponent, that is not above `n / d`. -/
def exp32 (n d : Nat) : Int :=
  let e : Int := (Nat.log2 n : Int) - (Nat.log2 d : Int)
  if n * 2 ^ (-e).toNat < d * 2 ^ e.toNat then e - 1 else e

/-- The binary32 bits of the magnitude `n / d`: exact where binary32 holds the value, otherwise the neighbour below or above it as
`up` says, at most the largest finite number. -/
def mag32 (n d : Nat) (up : Bool) : Nat :=
  if n = 0 then 0 else
  let e := max (exp32 n d) (-126)
  let a := n * 2 ^ (23 - e).toNat
  let b := d * 2 ^ (e - 23).toNat
  min ((e + 126).toNat * 2 ^ 23 + a / b + (if a % b ≠ 0 ∧ up = true then 1 else 0)) 0x7F7FFFFF

/-- The binary32 bits of an exact value (R236), rounded once, as it is stored: log entry 238. -/
def to32 (x : Rat) : Nat :=
  mag32 x.num.natAbs x.den (Config.roundAway x.num x.den) + (if x.num < 0 then 2 ^ 31 else 0)

/-- Round to the nearest integer; which way a tie goes is open. -/
def roundNear (x : Rat) : Int :=
  let two := 2 * x.num
  let lo := Int.fdiv two (2 * x.den : Nat)
  let r := two - lo * (2 * x.den : Nat)
  if r < x.den then lo
  else if r = x.den then (if Config.tie x.num x.den then lo + 1 else lo)
  else lo + 1

/-- Saturate an integer into an unsigned 16-bit field. -/
def satU16 (i : Int) : Nat := (max 0 (min i 65535)).toNat

/-- Saturate an integer into a signed 16-bit field. -/
def satS16 (i : Int) : Int := max (-32768) (min i 32767)

/-- The state of a node. -/
def Dev.node (d : Dev) (i : Nat) : NodeSt := SMap.get (fun _ => {}) d.bal.nodes i

/-- Change the state of a node. -/
def Dev.onNode (d : Dev) (i : Nat) (g : NodeSt → NodeSt) : Dev :=
  { d with bal := { d.bal with nodes := SMap.upd (fun _ => {}) d.bal.nodes i g } }

end Sys2Proof.Machine
end

