-- ==== Sys2Proof/Machine/Track.lean ====
section
/-!
DEFINITION. What the ledger engines do for loss and theft detection: INSTANT samples and reference entries (R237), and at
each close the contribution (R230), the drop impedance tracker (R238), phase identification (R239), the score and the slot
alarm (R240, R241), and the tracker orders (R242).
-/

namespace Sys2Proof.Machine

/-- A value times a power of ten, truncated toward zero (R187). -/
def scaled (v e : Int) : Int :=
  if 0 ≤ e then v * (10 ^ e.toNat : Nat) else Int.tdiv v ((10 ^ (-e).toNat : Nat))

/-- A value times a power of ten, rounded to nearest (R238). -/
def nearTen (v e : Int) : Int :=
  if 0 ≤ e then v * (10 ^ e.toNat : Nat) else roundNear ((v : Rat) / ((10 ^ (-e).toNat : Nat) : Rat))

/-! ### Reference entries (R237) -/

/-- A reference entry joins the ring of a TRANSFORMER node: the deviations are taken before the means move. -/
def RefSt.enter (r : RefSt) (csh t : Nat) (v : List Nat) : RefSt :=
  let dev := (List.range 3).map fun q => (10 * nthN v q : Int) - (nthN r.mean q : Int)
  let e : RefEntry := { mtime := t, v, dev }
  { r with
    ring := (r.ring ++ [e]).drop (r.ring.length + 1 - 8)
    mean := (List.range 3).map fun q =>
      satU16 (roundNear ((nthN r.mean q : Rat) + (dev.getD q 0 : Rat) / (2 ^ csh : Nat)))
    var := (List.range 3).map fun q =>
      let dq : Rat := dev.getD q 0
      satU16 (roundNear ((nthN r.var q : Rat) + (dq * dq - (nthN r.var q : Rat)) / (2 ^ csh : Nat))) }

/-- Phase `q` of a supply slot's voltage at an instant: the three of one instant form an entry. -/
def RefSt.take (r : RefSt) (csh t q v : Nat) : RefSt :=
  let old := if r.pendT = t then r.pendV else [none, none, none]
  let now := old.set q (some v)
  match now with
  | [some a, some b, some c] => { r.enter csh t [a, b, c] with pendT := 0, pendV := [none, none, none] }
  | _ => { r with pendT := t, pendV := now }

/-- The phase that a voltage OBIS code names: 32.7.0, 52.7.0, 72.7.0. -/
def obisPhase (obis : Bytes) : Option Nat :=
  if obis = [1, 0, 32, 7, 0, 255] then some 0
  else if obis = [1, 0, 52, 7, 0, 255] then some 1
  else if obis = [1, 0, 72, 7, 0, 255] then some 2
  else none

/-! ### Helpers over the device -/

/-- Add to the accumulator of a node and interval. -/
def BalSt.addAcc (b : BalSt) (node idx : Nat) (g : NodeAcc → NodeAcc) : BalSt :=
  if b.acc.any fun a => a.node == node && a.idx == idx then
    { b with acc := b.acc.map fun a => if a.node == node && a.idx == idx then g a else a }
  else { b with acc := b.acc ++ [g { node, idx }] }

/-- The sector in the neighbour entry of a slot on its PLC port (R119). -/
def Dev.slotSector (d : Dev) (slot : Nat) : Nat :=
  (d.pool.adir.findSome? fun e =>
    if e.2.slot = slot then
      match e.2.port with
      | some p => if d.isPlc p then some (SMap.get (fun _ => ({} : NeighPhase)) (d.plcSt p).neigh (e.1 % 2 ^ 128)).sector else none
      | none => none
    else none).getD 0

namespace LCtx

def onB (c : LCtx) (g : BalBlk → BalBlk) : LCtx := c.onL fun l => { l with bal := g l.bal }

/-- Count a sample discarded unmatched. -/
def pendDrop (c : LCtx) : LCtx := c.onD (·.bump Reg.BAL_SEAT_CNT_3.PEND_DROP 1 c.seat)

/-- Start a new sample at an instant, discarding what PEND holds of another. -/
def pendAt (c : LCtx) (t : Nat) : LCtx :=
  let b := c.l.bal
  if b.pend = 0 ∨ b.tPend = t then c.onB fun b => { b with tPend := t } else
  let c := if b.pend % 4 = 3 then c.pendDrop else c
  c.onB fun b => { b with pend := 0, vPend := 0, iPend := 0, tPend := t }

/-- An INSTANT record (R237): it fills the pending sample of a slot with a drop, or the reference ring of the node that a
supply slot feeds. -/
def instant (c : LCtx) (obis : Bytes) (unit : Nat) (v sc : Int) (t : Nat) : LCtx :=
  let cv := c.d.cfg
  if !(cv.suppliedBy c.slot).isEmpty then
    match obisPhase obis, cv.refNodeOf c.slot with
    | some q, some n =>
      if unit = 35 then
        c.onD (·.onNode n fun s => { s with ref := s.ref.take (cv.bpCSH c.seat) t q (satU16 (nearTen v (sc + 1))) })
      else c
    | _, _ => c
  else if (cv.dropOf c.slot).isNone then c
  else if obis = [1, 0, 32, 7, 0, 255] ∧ unit = 35 then
    (c.pendAt t).onB fun b => { b with vPend := satU16 (nearTen v (sc + 1)), pend := b.pend ||| 1 }
  else if obis = [1, 0, 31, 7, 0, 255] ∧ unit = 33 then
    (c.pendAt t).onB fun b => { b with iPend := satS16 (nearTen v (sc + 2)), pend := b.pend ||| 2 }
  else if obis = [1, 0, 16, 7, 0, 255] ∧ unit = 27 then
    (c.pendAt t).onB fun b => { b with pend := b.pend % 4 + 4 + 8 * b2n (decide (v < 0)) }
  else c

/-! ### The contribution of a close (R230) -/

/-- The resistance that the drop loss uses. -/
def lossR (b : BalBlk) : Rat :=
  if f32 b.rBase > 0 then f32 b.rBase else if b.nsamp ≥ 96 then f32 b.r else 0

/-- Net energy of interval `j` and whether it is estimated. -/
def netOf (c : LCtx) (j : Nat) : Int × Bool :=
  let bad := c.l.st == 2 || c.l.st == 3
  match if bad then none else c.ent j with
  | some e =>
    if e.fwd then (e.added.getD 0 0 - e.added.getD 1 0, e.est || ((c.below j).map (·.est)).getD false)
    else (Int.fdiv (c.l.vee.avg.getD 0 0) 16, true)
  | none => (Int.fdiv (c.l.vee.avg.getD 0 0) 16, true)

/-- The loss over the drop for a net energy (R230). -/
def dropLoss (c : LCtx) (net : Int) : Int :=
  let i : Rat := ((net.natAbs * 6 : Nat) : Rat) / (c.p : Nat) / (((c.d.cfg.bpV_NOM c.seat : Nat) : Rat) / 10)
  (lossR c.l.bal * i * i * (c.p : Nat) / 6).floor

/-- The close of interval `k`, whose boundary tick is `bt`, sends the slot's contribution for interval k − LAG (R230). -/
def contribute (c : LCtx) (k bt : Nat) : LCtx :=
  let cv := c.d.cfg
  if !cv.hasTopo || bt < c.d.bal.topoTick || k < cv.bpLAG c.seat then c else
  let j := k - cv.bpLAG c.seat
  let (net, est) := c.netOf j
  let sup := cv.suppliedBy c.slot
  if !sup.isEmpty then
    c.onD fun d => { d with bal := sup.foldl (fun b n => b.addAcc n j fun a => { a with supply := some (net, est) }) d.bal }
  else match cv.dropOf c.slot with
  | none => c
  | some r =>
    c.onD fun d => { d with bal := d.bal.addAcc (Canvas.dropNode r) j fun a =>
      { a with net := a.net + net, lDrop := a.lDrop + c.dropLoss net, est := a.est + (if est then net.natAbs else 0) } }

/-! ### The tracker (R238) -/

/-- Hold a covariance term within ±10^6. -/
def hold6 (x : Rat) : Rat := max (-1000000) (min 1000000 x)

/-- The phase that a sample is compared with. -/
def phaseOf (b : BalBlk) (r : Bytes) : Nat :=
  if Canvas.dropPoly r then 1
  else if b.phase % 4 ≠ 0 then b.phase % 4
  else if Canvas.dropDecl r ≠ 0 then Canvas.dropDecl r
  else 1

/-- The correlation part of an update: every matched sample. -/
def correlate (b : BalBlk) (csh : Nat) (e : RefEntry) : BalBlk :=
  let dv : Int := 10 * (b.vPend : Int) - (b.vmean : Int)
  let s : Rat := (2 ^ csh : Nat)
  { b with
    vmean := satU16 (roundNear ((b.vmean : Rat) + (dv : Rat) / s))
    vvar := satU16 (roundNear ((b.vvar : Rat) + ((dv * dv : Int) - (b.vvar : Rat)) / s))
    cov := (List.range 3).map fun q =>
      let cq : Rat := b.cov.getD q 0
      satS16 (roundNear (cq + (((dv * e.dev.getD q 0 : Int) : Rat) - cq) / s))
    csamp := min (b.csamp + 1) 255 }

/-- The recursive least squares part of an update: current `i` in A, drop voltage `y` in V, forgetting factor `lam`. -/
def rls (b : BalBlk) (i y lam : Rat) : BalBlk :=
  let r := f32 b.r
  let o := f32 b.b
  let (p11, p12, p22) := (f32 b.p11, f32 b.p12, f32 b.p22)
  let e := y - (r * i + o)
  let (px0, px1) := (p11 * i + p12, p12 * i + p22)
  let g := lam + i * px0 + px1
  let (k0, k1) := (px0 / g, px1 / g)
  let r' := to32 (r + k0 * e)
  let n := min (b.nsamp + 1) 0xFFFF
  { b with
    r := r'
    b := to32 (o + k1 * e)
    p11 := to32 (hold6 ((p11 - k0 * px0) / lam))
    p12 := to32 (hold6 ((p12 - k0 * px1) / lam))
    p22 := to32 (hold6 ((p22 - k1 * px1) / lam))
    s2 := to32 (lam * f32 b.s2 + (1 - lam) * e * e)
    nsamp := n
    rBase := if f32 b.rBase = 0 ∧ 192 ≤ n ∧ f32 r' > 1 / 1000 then r' else b.rBase }

/-- The reference entry nearest an instant. -/
def nearestRef (es : List RefEntry) (t : Nat) : Option RefEntry :=
  let dist := fun (e : RefEntry) => ((e.mtime : Int) - (t : Int)).natAbs
  es.foldl (fun a e => match a with
    | some b => if dist e < dist b then some e else a
    | none => some e) none

/-- Take the pending sample at the close of interval `k` (R238); the second component says that it updated the slot. -/
def track (c : LCtx) (k : Nat) (r : Bytes) : LCtx × Bool :=
  let cv := c.d.cfg
  let b := c.l.bal
  if b.pend % 4 ≠ 3 then (c, false) else
  let ring := match cv.xfmrOf (Canvas.dropNode r) with
    | some n => (c.d.node n).visRef.ring
    | none => []
  match (nearestRef ring b.tPend).filter fun e => ((e.mtime : Int) - (b.tPend : Int)).natAbs ≤ cv.bpTWIN c.seat with
  | some e =>
    let i : Rat := (if bitOf b.pend 3 then -b.iPend else b.iPend : Int) / 100
    let y : Rat := ((nthN e.v (phaseOf b r - 1) : Rat) - (b.vPend : Rat)) / 10
    let lam : Rat := 1 - 1 / (2 ^ cv.bpFORGET c.seat : Nat)
    let b1 := correlate b (cv.bpCSH c.seat) e
    let big := i.abs ≥ ((cv.bpI_MIN c.seat : Nat) : Rat) / 100
    let b2 := if big then rls b1 i y lam else b1
    let c := c.onB fun _ => { b2 with pend := 0, vPend := 0, iPend := 0, tPend := 0 }
    (if big then c.onD (·.count Reg.BAL_SEAT_CNT_4.SAMPLES 1 c.seat) else c, true)
  | none =>
    if b.tPend + 2 * c.p * 60 + c.p * 60 < k * c.p * 60 then
      ((c.onB fun b => { b with pend := 0, vPend := 0, iPend := 0, tPend := 0 }).pendDrop, false)
    else (c, false)

/-! ### Phase identification (R239) -/

/-- The zero-crossing phase. -/
def zcPhase (refph sector : Nat) : Option Nat :=
  if sector = 0 || 6 < sector || refph = 0 then none
  else some (1 + (refph - 1 + [0, 2, 1, 0, 2, 1].getD (sector - 1) 0) % 3)

/-- INVERT: the zero-crossing sector is even, whatever REFPH. -/
def evenSector (sector : Nat) : Bool := sector == 2 || sector == 4 || sector == 6

/-- The square of a correlation with its sign: sign · c², exactly. -/
def corrSq (cov : Int) (vv rv : Nat) : Rat :=
  let s : Rat := (cov * cov : Int) / ((vv * rv : Nat) : Rat)
  if cov < 0 then -s else s

/-- Is √a (with `a` not negative) at least √|b| with the sign of `b`, plus `m` (not negative)? Exact: by squares. -/
def leadsBy (a b m : Rat) : Bool :=
  -- q ≥ −m, where q stands for the signed root of b
  let qm := b ≥ 0 || -b ≤ m * m
  if !qm then true
  else
    -- p² ≥ q² + 2·m·q + m²
    let l := a - b.abs - m * m
    let r2 := 4 * m * m * b.abs
    if b ≥ 0 then l ≥ 0 && l * l ≥ r2 else l ≥ 0 || l * l ≤ r2

/-- The correlation phase (R239): the phase of the largest correlation, if it is at least CMIN and leads the second by at
least CMARGIN. -/
def corrPhase (cv : Canvas) (seat : Nat) (b : BalBlk) (var : List Nat) : Option Nat :=
  if b.csamp < 64 then none else
  let cs := (List.range 3).map fun q => corrSq (b.cov.getD q 0) b.vvar (nthN var q)
  let best := (List.range 3).foldl (fun a q => if cs.getD a 0 < cs.getD q 0 then q else a) 0
  let rest := (List.range 3).filter (· != best)
  let second := rest.foldl (fun (a : Rat) q => max a (cs.getD q 0)) (cs.getD (rest.headD 0) 0)
  let cmin : Rat := ((cv.bpCMIN seat : Nat) : Rat) / 10000
  let cmar : Rat := ((cv.bpCMARGIN seat : Nat) : Rat) / 10000
  if cs.getD best 0 ≥ cmin * cmin && leadsBy (cs.getD best 0) second cmar then some (best + 1) else none

/-- What a correlation over a zero variance comes to is open (use 3). -/
def useCorr : Nat := 3

/-- PHASE is set at a close that made an update (R239). -/
def phase (c : LCtx) (r : Bytes) : LCtx :=
  let cv := c.d.cfg
  let b := c.l.bal
  let xf := cv.xfmrOf (Canvas.dropNode r)
  let decl := Canvas.dropDecl r
  let sector := c.d.slotSector c.slot
  let zc := zcPhase ((xf.map cv.nodeRefph).getD 0) sector
  let var := (xf.map fun n => (c.d.node n).visRef.var).getD [0, 0, 0]
  let open_ := b.csamp ≥ 64 && (b.vvar = 0 || var.any (· == 0))
  let co := if open_ then
      (let v := c.d.fresh useCorr 4; if v = 0 then none else some v)
    else corrPhase cv c.seat b var
  let c := if open_ then c.onD (·.took) else c
  let (id, src, conf) := match zc, co with
    | some z, some q => if z = q then (z, 3, false) else (z, 1, true)
    | some z, none => (z, 1, false)
    | none, some q => (q, 2, false)
    | none, none => (decl, 0, false)
  let mism := decl != 0 && id != decl
  let was := bitOf b.phase 5
  let c := c.onB fun b => { b with phase := id + 4 * src + 16 * b2n conf + 32 * b2n mism + 64 * b2n (evenSector sector) }
  if mism && !was then
    (c.onD (·.bump Reg.BAL_SEAT_CNT_3.PHASE_MISMATCH 1 c.seat)).sticky Stk.BAL.PHASE_MISMATCH
  else c

/-! ### The score and the alarm (R240, R241) -/

/-- The score's components at the close of interval `k`. -/
def components (c : LCtx) (k : Nat) (r : Bytes) : Nat × Nat × Nat :=
  let cv := c.d.cfg
  let b := c.l.bal
  let sBal := match cv.supOf (Canvas.dropNode r) with
    | some n => match (c.d.node n).visIdx with
      | some i => if i + 8 < k then 0 else (c.d.node n).visS
      | none => 0
    | none => 0
  let rb := f32 b.rBase
  let rho := f32 b.r / rb
  let sImp := if rb = 0 ∨ b.nsamp < 96 ∨ rho ≤ 5 / 4 then 0
    else (min 255 (255 * (rho - 5 / 4) / (((cv.bpIMP_RISE c.seat : Nat) : Rat) / 100 - 5 / 4)).floor).toNat
  let endS := k * c.p * 60
  let n := (c.l.recent.filter fun m => m.1 ≤ endS && endS ≤ m.1 + 86400).length
  (sBal, sImp, min 255 (64 * n))

/-- SCORE and the slot alarm. -/
def score (c : LCtx) (k : Nat) (r : Bytes) : LCtx :=
  let cv := c.d.cfg
  let (sBal, sImp, sTam) := c.components k r
  let sc := min 255 ((cv.bpW_BAL c.seat * sBal + cv.bpW_IMP c.seat * sImp + cv.bpW_TAM c.seat * sTam) / 256)
  let c := c.onB fun b => { b with sBal, sImp, sTam, score := sc }
  let al := bitOf c.l.bal.afl 0
  let run := bitsOf c.l.bal.afl 4 1
  let thr := cv.bpALARM_THR c.seat
  let hit := if al then decide (sc + 32 < thr) else decide (thr ≤ sc)
  let run := if hit then min (run + 1) 15 else 0
  if hit && cv.bpALARM_N c.seat ≤ run then
    let c := c.onB fun b => { b with afl := b2n (!al) }
    if al then c.onD (·.record 0x1441 1 c.seat c.slot [])
    else (c.onD (·.bump Reg.BAL_SEAT_CNT_2.SLOT_ALARMS 1 c.seat)).onD
      (·.raiseFor Stk.BAL.SLOT_ALARM c.seat c.slot [(1, sc), (1, sBal), (1, sImp), (1, sTam)])
  else c.onB fun b => { b with afl := b2n al + 2 * run }

/-- The drop record of the slot, where a TOPOLOGY section is in force: its closes are scored (R236, R240). -/
def drop (c : LCtx) : Option Bytes := if c.d.cfg.hasTopo then c.d.cfg.dropOf c.slot else none

/-- The close of interval `k` of a slot with a drop (R238 to R241). -/
def trackClose (c : LCtx) (k : Nat) : LCtx :=
  match c.drop with
  | none => c
  | some r =>
    let t := c.track k r
    let c := if t.2 then t.1.phase r else t.1
    c.score k r

/-! ### Tracker orders (R242) -/

/-- REBASE: a new baseline is captured after 192 further updates. -/
def rebase (c : LCtx) : LCtx := c.onB fun b => { b with rBase := 0, nsamp := 0 }

/-- RESET_TRACK: the tracker, R_BASE and NSAMP. -/
def resetTrack (c : LCtx) : LCtx :=
  let one := to32 1000
  (c.onB fun b => { b with r := 0, b := 0, p11 := one, p12 := 0, p22 := one, s2 := 0 }).rebase

end LCtx

end Sys2Proof.Machine
end

