-- ==== Sys2Proof/Machine/Ledger.lean ====
section
/-!
DEFINITION. The ledger engines: applying a record (R176, R177, R180, R187, R197), sweep and catch-up closes (R65 to R67, R195,
R206), orders in the seat's sequence (R193, R212, R242), repair (R201, R202), and the shadow engine (R203, R204).
-/

namespace Sys2Proof.Machine

/-! ### One record on one ledger -/

/-- The fields of a canonical record (R164). -/
abbrev Rec := Bytes

namespace Rec

def slot (r : Rec) : Nat := bitsOf (u r 0 4) 19 0
def kind (r : Rec) : Nat := bitsOf (u r 0 4) 23 20
def obis (r : Rec) : Bytes := slice r 6 6
def scaler (r : Rec) : Int := sgn 8 (u r 13 1)
def unit (r : Rec) : Nat := u r 14 1
def value (r : Rec) : Int := sgn 64 (u r 16 8)
def mtime (r : Rec) : Nat := u r 24 5
def idx (r : Rec) : Nat := u r 32 4
def period (r : Rec) : Nat := u r 36 2
def mtimeInv (r : Rec) : Bool := bitOf (u r 38 1) 0
def devtimeInv (r : Rec) : Bool := bitOf (u r 38 1) 1

/-- The quantity that an OBIS code 1-0:c.8.0.255 names. -/
def quantity (r : Rec) : Option Nat :=
  if obis r = [1, 0, 1, 8, 0, 255] then some 0
  else if obis r = [1, 0, 2, 8, 0, 255] then some 1
  else if obis r = [1, 0, 3, 8, 0, 255] then some 2
  else if obis r = [1, 0, 4, 8, 0, 255] then some 3
  else none

end Rec

/-- What a record comes to (R180, R187). -/
inductive RecEnd where
  /-- Applied; the derivation seal of this block goes into its READING record (R207). -/
  | applied (block : Nat)
  /-- A tamper record that was applied, with its code entry, if it found one, and TFLAGS (R197, R208). -/
  | tamper (entry : Option Nat) (tflags : Nat)
  /-- Acted on without changing a block (R237). -/
  | seen (block : Nat)
  /-- Written to history and uplinked with a zero derivation seal. -/
  | history
  | duplicate
  deriving DecidableEq, Repr

namespace LCtx

/-- A record written to history only (R187). -/
def histOnly (c : LCtx) : LCtx × RecEnd := (c.onD (·.bump Reg.LDG_SEAT_CNT_3.HIST_ONLY 1 c.seat), .history)

/-- A record whose unit does not match (R187). -/
def unitErr (c : LCtx) : LCtx × RecEnd :=
  ((c.onD (·.bump Reg.LDG_SEAT_CNT_3.UNIT_ERR 1 c.seat)).sticky Stk.LDG.UNIT_ERR, .history)

/-- Rule TIME (R216): `some true` rejects the record, `some false` flags its entry. -/
def timeRule (c : LCtx) (r : Rec) : Option Bool :=
  if !c.ruleOn rTIME || r.mtimeInv then none else
  let ahead := c.d.on Reg.TIME_STAT.VALID && decide (c.d.utc + (c.rule 10 2 : Nat) < (r.mtime : Int))
  let trail := decide (r.idx * c.p * 60 + c.rule 12 2 < r.mtime)
  if ahead || trail then some (bitOf (c.rule 2 1) 0) else none

/-- An INTERVAL record that the engine acts on (R184, R187, R223): TIME is tested before placement (R216). -/
def interval (c : LCtx) (r : Rec) (q : Nat) : LCtx × RecEnd :=
  let k := r.idx
  let v := wrapI 32 (scaled r.value (r.scaler + 1))
  let t := c.timeRule r
  let c := if t.isSome then (c.act rTIME none).count 9 else c
  if t = some true then (c.sticky Stk.VEE.TIME_REJ, .history) else
  if c.outside k then (c.count 3, .history) else
  let e := c.ent k
  if (e.map fun e => e.real && bitOf e.qp q).getD false then (c, .duplicate) else
  let tbad := r.mtimeInv || c.devinv
  let flag := t.isSome
  let c := match e with
    | none => c.placeNew k q v tbad flag
    | some e => if e.real then c.placeMore k q v e tbad flag else c.placeEst k q v e tbad flag
  (c, .applied (12 + k % ringLen / 3))

/-- A REGISTER record (R182, R187). -/
def register (c : LCtx) (r : Rec) (q : Nat) : LCtx × RecEnd :=
  if r.mtime < nthN c.l.mtotT q then c.histOnly else
  (c.onL fun l => { l with
    mtot := l.mtot.set q (wrapI 48 (scaled r.value (r.scaler + 1)))
    mtotT := l.mtotT.set q r.mtime, mtotTime := r.mtime }, .applied 5)

/-- A DEMAND record (R182, R187). -/
def demand (c : LCtx) (r : Rec) : LCtx × RecEnd :=
  if r.mtime < c.l.mmdTime then c.histOnly else
  (c.onL fun l => { l with
    mmd := (max 0 (min (scaled r.value r.scaler) (2 ^ 32 - 1 : Nat))).toNat, mmdTime := r.mtime }, .applied 5)

/-- The least MTIME of TAMPER_RECENT. -/
def oldestRecent (l : List (Nat × Nat)) : Nat := l.foldl (fun a p => min a p.1) (2 ^ 40)

/-- Insert a pair into TAMPER_RECENT and, of more than ten, evict that with the oldest MTIME (R197): a pair older than all of a full
list does not stay, so that the list holds the ten most recent (R24). -/
def insertRecent (l : List (Nat × Nat)) (m e : Nat) : List (Nat × Nat) :=
  if l.length < 10 then l ++ [(m, e)] else
  let old := oldestRecent l
  if m < old then l else l.set (l.findIdx fun p => p.1 == old) (m, e)

/-- A TAMPER record (R197). -/
def tamper (c : LCtx) (r : Rec) : LCtx × RecEnd :=
  let code := r.idx % 2 ^ 16
  let m := r.mtime
  let has := c.l.tamper.findIdx fun t => t.count != 0 && t.code == code
  let free := c.l.tamper.findIdx fun t => t.count == 0
  let e := if has < 8 then has else free
  if 8 ≤ e then
    ((c.onL fun l => { l with tamperOvf := min (l.tamperOvf + 1) 0xFFFF }).sticky Stk.LDG.TAMPER_OVF, .tamper none 4)
  else
    let t := c.l.tamper.getD e {}
    let rec10 := c.l.recent
    if t.count ≠ 0 ∧ (m = t.first ∨ m = t.last ∨ rec10.contains (m, e) = true) then (c, .duplicate)
    else if t.count ≠ 0 ∧ rec10.length = 10 ∧ m < oldestRecent rec10 ∧ t.first ≤ m then (c, .duplicate)
    else
      let isNew := t.count == 0
      let t' : TamperEnt :=
        { code, count := min (t.count + 1) 0xFFFF
          first := if isNew then m else min t.first m, last := if isNew then m else max t.last m }
      (c.onL fun l => { l with tamper := l.tamper.set e t', recent := insertRecent l.recent m e },
        .tamper (some e) (b2n (isNew || decide (m < t.first)) + 2 * b2n (isNew || decide (t.last < m))))

/-- Steps 3 and 4 of R176 for a record whose seal is good: what the engine does by KIND (R187). -/
def apply (c : LCtx) (r : Rec) : LCtx × RecEnd :=
  let c := { c.onV (fun v => { v with rules := 0 }) with devinv := r.devtimeInv, dfr := false, lateB := [] }
  match r.kind with
  | 0 => match r.quantity with
    | some q =>
      if r.period ≠ c.p then c.histOnly
      else if r.unit ≠ (if q < 2 then 30 else 32) then c.unitErr
      else c.interval r q
    | none => c.histOnly
  | 1 => match r.quantity with
    | some q => if r.unit ≠ (if q < 2 then 30 else 32) then c.unitErr else c.register r q
    | none => c.histOnly
  | 2 =>
    if r.obis ≠ [1, 0, 1, 6, 0, 255] then c.histOnly
    else if r.unit ≠ 27 then c.unitErr
    else c.demand r
  | 3 => c.tamper r
  | 4 =>
    let c' := c.instant r.obis r.unit r.value r.scaler r.mtime
    (c', if c'.l.bal = c.l.bal then .seen 31 else .applied 31)
  | 5 =>
    (c.onL fun l => { l with lastStatus := wrapI 32 r.value, statusTime := r.mtime }, .applied 0)
  | _ => c.histOnly

end LCtx

/-! ### Engines -/

/-- The state of an engine. -/
def Dev.eng (d : Dev) (e : Nat) : EngineSt := SMap.get (fun _ => {}) d.ldg.engines e

/-- Change an engine. -/
def Dev.onEng (d : Dev) (e : Nat) (g : EngineSt → EngineSt) : Dev :=
  { d with ldg := { d.ldg with engines := SMap.upd (fun _ => {}) d.ldg.engines e g } }

/-- The cycles of a tick (R56). -/
def Dev.budget (d : Dev) : Nat := d.tickNs

/-- The engine of a slot. -/
def Dev.engOf (d : Dev) (slot : Nat) : Nat := d.cfg.engineOf (d.owner slot) slot

/-- The work on a slot, begun. -/
def Dev.lctx (d : Dev) (slot : Nat) : LCtx := { d, l := d.ledger slot, slot, seat := d.owner slot }

/-- Write a record to the interval history in NAND (step 8 of R176): 256 records fill a page. -/
def Dev.history (d : Dev) (bytes : Bytes) (rate marks : Nat) : Dev :=
  let e : HistRec := { tick := d.time.tick, bytes, rate, marks }
  let d := { d with ldg := { d.ldg with hist := e :: d.ldg.hist } }
  if d.ldg.hist.length % 256 ≠ 0 then d else
  let d := d.nandWrite (lpaHistory + d.ftl.nextHistory) sHOT 0
  { d with ftl := { d.ftl with nextHistory := (d.ftl.nextHistory + 1) % historyPages } }

/-- The READING body (R171). -/
def readingBody (bytes : Bytes) (chk deriv aseq : Nat) : Bytes :=
  slice bytes 0 40 ++ leBytes 4 chk ++ leBytes 4 deriv ++ leBytes 6 aseq ++ [0, 0]

/-- The TAMPER body (R208). -/
def tamperBody (bytes : Bytes) (chk deriv count aseq tflags : Nat) : Bytes :=
  slice bytes 0 40 ++ leBytes 4 chk ++ leBytes 4 deriv ++ leBytes 4 count ++ leBytes 6 aseq ++ leBytes 1 tflags ++ zeros 5

/-- One re-rate order of a seat is done (R213): it counts only for the GO that BUSY stands for. -/
def Dev.rerateDone (d : Dev) (seat go : Nat) : Dev :=
  let left := SMap.get (fun _ => 0) d.ldg.rerate seat
  if go ≠ SMap.get (fun _ => 0) d.ldg.rerateGo seat ∨ left = 0 then d else
  let d := { d with ldg := { d.ldg with rerate := SMap.set (fun _ => 0) d.ldg.rerate seat (left - 1) } }
  if left = 1 then d.wr Reg.LDG_RERATE_CTL.BUSY 0 0 seat else d

/-- An item of a slot in FAILED (R202): a record goes to history and is uplinked with a derivation seal of zero; an order is
dropped. -/
def Dev.failedRecord (d : Dev) (q : QItem) : Dev :=
  match q.work with
  | .record bytes chk =>
    let d := (d.bump Reg.LDG_SEAT_CNT_4.FAILED 1 q.seat).history bytes 0 0
    d.stage q.seat (some (q.opening, q.aseq)) upREADING 0 q.atick (readingBody bytes chk 0 q.aseq)
  | .rerate go => d.rerateDone q.seat go
  | _ => d

/-- The marks of a record (R207, R224): a delta of it rated by default; its interval in a closed billing period; its own delta
estimated or a bridge; a rule that acted on it. -/
def LCtx.marks (c : LCtx) (bytes : Bytes) (en : RecEnd) : Nat :=
  let k := Rec.idx bytes
  let placed := (match en with
    | .applied b => 12 ≤ b && b ≤ 26
    | _ => false)
  (if c.dfr then 2 else 0) + (if placed && c.l.billed && k ≤ c.l.billIdx then 8 else 0) +
    (if placed && ((c.ent k).any (·.fwd)) && c.estDelta k then 64 else 0) + (if c.l.vee.rules ≠ 0 then 128 else 0)

/-- The READING or TAMPER record of an applied or history-only record (step 9 of R176, R207, R224). -/
def Dev.uplinkOf (d : Dev) (flags : Nat) (q : QItem) (bytes : Bytes) (chk : Nat) (en : RecEnd) : Dev :=
  let l := d.ledger q.slot
  let from_ := some (q.opening, q.aseq)
  let rd := fun (s : Nat) => d.stage q.seat from_ upREADING flags q.atick (readingBody bytes chk s q.aseq)
  match en with
  | .applied b => rd (l.chk q.slot q.seat b)
  | .seen b => rd (l.chk q.slot q.seat b)
  | .history => rd 0
  | .tamper e tf =>
    let s := match e with
      | some e => l.chk q.slot q.seat (27 + e / 4)
      | none => 0
    let n := match e with
      | some e => (l.tamper.getD e {}).count
      | none => 0
    d.stage q.seat from_ upTAMPER flags q.atick (tamperBody bytes chk s n q.aseq tf)
  | .duplicate => d

/-- The ledger after an applied record: HEADER's counters (R180). -/
def Ledger.applied1 (l : Ledger) (q : QItem) (tick : Nat) : Ledger :=
  { l with st := 1, applied := (l.applied + 1) % 2 ^ 32, aseq := q.aseq, lastTick := tick }

/-- Note an item of the seat's sequence whose work has changed a ledger without a record being applied (R26). -/
def Dev.noteOther (d : Dev) (q : QItem) : Dev :=
  let r : JRec := { seat := q.seat, opening := q.opening, aseq := q.aseq, slot := q.slot, chk := 0 }
  { d with ldg := { d.ldg with jrn := { d.ldg.jrn with others := d.ldg.jrn.others ++ [r] } } }

/-- Note an applied record: in the tick's deltas (R343), and among those that a correction replays (R204). -/
def Dev.noteApplied (d : Dev) (q : QItem) (chk : Nat) : Dev :=
  let r : JRec := { seat := q.seat, opening := q.opening, aseq := q.aseq, slot := q.slot, chk }
  { d with ldg := { d.ldg with
    jrn := { d.ldg.jrn with recs := d.ldg.jrn.recs ++ [r] }
    appliedCur := d.ldg.appliedCur ++ [q] } }

/-- Note the pre-image of a record that the sampled engine applies (R203); there is no sampling while microcode is swapped
(R357). -/
def Dev.sample (d : Dev) (q : QItem) (pre : Ledger) : Dev :=
  let e := d.engOf q.slot
  if d.on Reg.LDG_SHADOW.EN && !d.ldg.shadowStopped && d.upd.swap.isNone && d.time.tick % 16 == e then
    { d with ldg := { d.ldg with shadowCur := d.ldg.shadowCur ++ [{ engine := e, item := q, pre }] } }
  else d

/-- Is a record applied, in the sense of R180? -/
def RecEnd.isApplied (en : RecEnd) : Bool :=
  match en with
  | .applied _ => true
  | .tamper _ _ => true
  | _ => false

/-- A record whose block seals were good (R176, steps 2 to 9). -/
def Dev.applyGood (d : Dev) (q : QItem) (bytes : Bytes) (chk : Nat) : Dev :=
  if sealOf (slice bytes 0 40) ≠ chk then
    (d.bump Reg.LDG_SEAT_CNT_1.REC_SEAL 1 q.seat).raiseFor Stk.LDG.REC_SEAL q.seat q.slot [(6, q.aseq)]
  else if (d.ledger q.slot).st = 3 then d.failedRecord q else
  let pre := d.ledger q.slot
  let (c, en) := (d.lctx q.slot).apply bytes
  let d := c.d
  match en with
  | .duplicate => ((d.commitLedger q.slot c.l).noteOther q).bump Reg.ING_SEAT_CNT_5.DUP 1 q.seat
  | _ =>
    let d := if en.isApplied then
        ((((d.sample q pre).commitLedger q.slot (c.l.applied1 q d.time.tick)).count Reg.LDG_SEAT_CNT_0.APPLIED 1
          q.seat).noteApplied q chk)
      else (d.commitLedger q.slot c.l).noteOther q
    let e := SMap.find (d.ledger q.slot).ring (Rec.idx bytes)
    let flags := c.marks bytes en
    let d := d.history bytes ((e.map (·.rate)).getD 0) flags
    let d := d.uplinkOf flags q bytes chk en
    c.lateB.eraseDups.foldl (fun d b => d.derived q.slot b.1 3 (some b.2) (some (q.opening, q.aseq)) q.atick) d

/-- Entries of an engine's share of the carry queue in use: carried records and records of held slots (R61, R201). -/
def Dev.shareUsed (d : Dev) (e : Nat) : Nat :=
  (d.eng e).carry.length +
  (d.ldg.ledgers.foldl (fun a p => if p.2.held.isEmpty then a else if d.engOf p.1 = e then a + p.2.held.length else a) 0)

/-- Admission resumes when the share falls below 75 % (R62). -/
def Dev.carryResume (d : Dev) (e : Nat) : Dev :=
  if (d.eng e).stopped && 4 * d.shareUsed e < 3 * d.cfg.carryShare then d.onEng e fun s => { s with stopped := false } else d

/-- CARRY_HIGH (R62): above 87.5 % of its share, admission for an engine stops. -/
def Dev.carryHigh (d : Dev) (e : Nat) : Dev :=
  if (d.eng e).stopped || decide (8 * d.shareUsed e ≤ 7 * d.cfg.carryShare) then d
  else (d.onEng e fun s => { s with stopped := true }).raise Stk.TIME.CARRY_HIGH

/-- The share of an engine has changed: admission stops or resumes (R62). -/
def Dev.carryWatch (d : Dev) (e : Nat) : Dev := (d.carryHigh e).carryResume e

/-- The latest ledger of a slot that the NAND checkpoint and the journal give (R201): committed, then the deltas of the ticks
that wait for their commit. -/
def Dev.nandLedger (d : Dev) (slot : Nat) : Ledger :=
  let base := SMap.get (fun _ => ({} : Ledger)) d.ldg.nand.ledgers slot
  (d.ldg.jwait ++ [d.ldg.jrn]).foldl (fun l j => match SMap.find j.ledgers slot with
    | some m => m
    | none => l) base

/-- A slot goes to FAILED (R202): its held records go to history and uplink. -/
def Dev.failSlot (d : Dev) (slot : Nat) : Dev :=
  let l := d.ledger slot
  let d := d.commitLedger slot { l with st := 3, held := [] }
  let d := d.raiseFor Stk.LDG.REPAIR_FAIL (d.owner slot) slot
  let d : Dev := { d with ldg := { d.ldg with corr := d.ldg.corr.filter (·.slot != slot) } }
  (l.held.foldl Dev.failedRecord d).carryWatch (d.engOf slot)

/-- A slot with a bad block goes to REPAIR (R201). -/
def Dev.enterRepair (d : Dev) (slot : Nat) : Dev :=
  (d.setLedger slot { d.ledger slot with st := 2, repairAt := d.time.tick }).raiseFor Stk.LDG.BLK_SEAL (d.owner slot) slot

/-- Is a slot held: in REPAIR, or after a shadow mismatch (R201, R204)? -/
def Dev.isHeld (d : Dev) (slot : Nat) : Bool := (d.ledger slot).st == 2 || d.ldg.corr.any (·.slot == slot)

/-- A record of a held slot waits in the carry queue; the 1,025th sends the slot to FAILED (R201, R202). -/
def Dev.holdItem (d : Dev) (q : QItem) : Dev :=
  let l := d.ledger q.slot
  if l.held.length < 1024 then (d.setLedger q.slot { l with held := l.held ++ [q] }).carryWatch (d.engOf q.slot)
  else (d.failSlot q.slot).failedRecord q

/-- An order's header counters (R180). -/
def Ledger.ordered (l : Ledger) (q : QItem) (tick : Nat) : Ledger := { l with aseq := q.aseq, lastTick := tick }

/-- One ring entry under a re-rate order (R193). -/
def LCtx.rerateOne (c : LCtx) (k : Nat) : LCtx × List Nat :=
  match c.ent k with
  | none => (c, [])
  | some e =>
    if !(e.dfl && e.fwd) then (c, []) else
    let r := (c.d.cfg.rateOf c.seat c.slot k).1
    let moved := (List.range 4).filter fun q => r != e.rate && e.added.getD q 0 != 0
    let c := if r = e.rate then c else
      ((c.addEnergies e.rate (e.added.map fun a => -a)).addEnergies r e.added)
    let c := (c.onEnergy fun b => { b with defcnt := b.defcnt - 1 }).putEnt k { e with rate := r, dfl := false }
    (c.onD (·.bump Reg.LDG_SEAT_CNT_2.RERATED 1 c.seat), (12 + k % ringLen / 3) :: moved.map (· + 1))

/-- A re-rate order on a ledger: the ledger, and the blocks to report (R193). -/
def LCtx.rerate (c : LCtx) : LCtx × List Nat :=
  (c.l.ring.map (·.1)).foldl (fun r k => let t := r.1.rerateOne k; (t.1, r.2 ++ t.2)) (c, [])

/-- A billing close of a ledger at boundary `k` (R195, steps 1 to 3). -/
def Ledger.bill (l : Ledger) (k : Nat) : Ledger :=
  { l with
    dmaxPrev := l.dmaxCur, dmaxCur := List.replicate 18 {}
    billIdx := k % 2 ^ 32, billed := true, billPeriod := (l.billPeriod + 1) % 2 ^ 16
    bills := k :: l.bills.filter fun b => decide (l.ringTop.getD 0 < b + ringLen) }

/-- The blocks that a billing close reports (R195). -/
def billBlocks : List Nat := [1, 2, 3, 4, 9, 10, 11]

/-- Report blocks in block order. -/
def Dev.derivedAll (d : Dev) (slot : Nat) (bs : List Nat) (cause : Nat) (from_ : Option (Nat × Nat)) (atick : Nat) : Dev :=
  ((List.range 32).filter fun b => bs.contains b).foldl (fun d b => d.derived slot b cause none from_ atick) d

/-- The interval boundary at or before corrected UTC (R212). -/
def Dev.lastBoundary (d : Dev) (seat : Nat) : Nat := (Int.fdiv d.utc (60 * d.cfg.seatPeriod seat : Nat)).toNat

/-- Apply an order (R180, R193, R212, R242). -/
def Dev.applyOrder (d : Dev) (q : QItem) : Dev :=
  let c := d.lctx q.slot
  let from_ := some (q.opening, q.aseq)
  let t := d.time.tick
  let fin := fun (c : LCtx) => (c.d.commitLedger q.slot (c.l.ordered q t)).noteOther q
  match q.work with
  | .rerate go =>
    let r := c.rerate
    ((fin r.1).derivedAll q.slot r.2 2 from_ q.atick).rerateDone q.seat go
  | .billing =>
    if c.l.st = 0 then fin c
    else (fin (c.onL fun l => l.bill (d.lastBoundary q.seat))).derivedAll q.slot billBlocks 1 from_ q.atick
  | .rebase => fin (if (d.cfg.dropOf q.slot).isSome then c.rebase else c)
  | .resetTrack => fin (if (d.cfg.dropOf q.slot).isSome then c.resetTrack else c)
  | .record _ _ => d

/-- Apply an item of the queues: `bad` lists the blocks it touches whose stored seal fails, `asRead` gives the record's bytes
where they differ from those admitted. -/
def Dev.applyItem (d : Dev) (q : QItem) (bad : List Nat) (asRead : Option Bytes) : Dev :=
  match q.work with
  | .record bytes chk =>
    if d.isHeld q.slot then d.holdItem q
    else if !bad.isEmpty && (d.ledger q.slot).st != 3 then (d.enterRepair q.slot).holdItem q
    else d.applyGood q (asRead.getD bytes) chk
  | _ => if d.isHeld q.slot then d.holdItem q else d.applyOrder q

/-! ### Dispatch (R57) -/

/-- Is an item behind its seat's oldest ledger fence (R26)? -/
def Dev.fenced (d : Dev) (q : QItem) : Bool :=
  match (d.seat q.seat).fences.head? with
  | some f => q.opening == (d.seat q.seat).opening && f.cut ≤ q.aseq
  | none => false

/-- An interval boundary of a slot's seat that its closes have not reached (R67). -/
def Dev.pendingBounds (d : Dev) (slot : Nat) : List Bound :=
  match d.cfg.seatOfSlot slot with
  | none => []
  | some n => d.time.bounds.filter fun b => b.seat == n && (match (d.ledger slot).closedTo with
      | some x => x < b.utc
      | none => true)

/-- The slot's first boundary whose offset tick has come (R65). -/
def Dev.dueBound (d : Dev) (slot : Nat) : Option Bound :=
  ((d.pendingBounds slot).head?).filter fun b => b.tick + d.cfg.sweepOff slot ≤ d.time.tick

/-- The slots whose offset from a boundary is `o` ticks. -/
def Canvas.slotsAt (c : Canvas) (o : Nat) : List Nat :=
  let sp := max 1 (Canvas.span c)
  let lo := (o * 2 ^ 20 + sp - 1) / sp
  let hi := ((o + 1) * 2 ^ 20 + sp - 1) / sp
  (List.range (min hi (2 ^ 20) - lo)).map fun i => Canvas.bitrev20 (lo + i)

/-- The slots whose mandatory close falls in tick `t` and has not been made (R65, R67). -/
def Dev.dueSlots (d : Dev) (t : Nat) : List Nat :=
  (d.time.bounds.flatMap fun b =>
    if b.tick ≤ t ∧ t - b.tick < d.cfg.span then
      (d.cfg.slotsAt (t - b.tick)).filter fun s =>
        d.cfg.seatOfSlot s == some b.seat && !(d.ledger s).catching &&
        (match (d.ledger s).closedTo with
         | some x => decide (x < b.utc)
         | none => true)
    else []).eraseDups

/-- Mandatory work of an ended tick is unfinished: it runs ahead of all work of this one (R35). On the active side these are the
closes spilt, the journal commits that wait, and packages whose tick has ended with their transfer unfinished (R343). -/
def Dev.lateWork (d : Dev) : Bool :=
  d.isActive && (!d.ldg.spill.isEmpty || !d.ldg.jwait.isEmpty || d.cas.pkgOpen.any fun t => decide (t + 2 ≤ d.time.tick))

/-- Engine `e` has mandatory work ahead of it: that of an ended tick, or closes of this tick (R35, R57). -/
def Dev.mandLeft (d : Dev) (e : Nat) : Bool := d.lateWork || (d.dueSlots d.time.tick).any fun s => d.engOf s == e

/-- The slots of engine `e` with catch-up closes, lowest first. -/
def Dev.catchSlots (d : Dev) (e : Nat) : List Nat :=
  (d.ldg.ledgers.filter fun p => p.2.catching && d.engOf p.1 == e).map (·.1)

/-- The first item of a queue that no fence holds. -/
def Dev.firstFree (d : Dev) (l : List QItem) : Option (QItem × List QItem) :=
  match l with
  | [] => none
  | q :: qs =>
    if d.fenced q then (d.firstFree qs).map fun r => (r.1, q :: r.2) else some (q, qs)

/-- The next item that engine `e` takes (R57): from the carry queue, then from the input queue if it was admitted in an
earlier tick. The device is the one without it. -/
def Dev.nextItem (d : Dev) (e : Nat) : Option (QItem × Dev) :=
  match d.firstFree (d.eng e).carry with
  | some (q, qs) => some (q, d.onEng e fun s => { s with carry := qs })
  | none =>
    match d.firstFree ((d.eng e).inq.filter fun q => q.atick < d.time.tick) with
    | some (q, qs) =>
      some (q, d.onEng e fun s => { s with inq := qs ++ s.inq.filter fun q => !(q.atick < d.time.tick) })
    | none => none

/-- May engine `e` dispatch work of `need` cycles' margin now (R57)? -/
def Dev.mayDispatch (d : Dev) (e need : Nat) : Bool :=
  e < 16 && !d.mandLeft e && (d.eng e).used + need ≤ d.budget

/-- Engine `e` takes its next item, if it may and if the item passes a test. -/
def Dev.takeItem (d : Dev) (e cost : Nat) (ok : Work → Bool) (g : Dev → QItem → Dev) : Dev :=
  if !d.mayDispatch e 2000 || !(d.catchSlots e).isEmpty || 2000 < cost then d else
  match d.nextItem e with
  | some (q, d1) => if ok q.work then (g (d1.onEng e fun s => { s with used := s.used + cost }) q).carryWatch e else d
  | none => d

/-- APPLY_RECORD (R176): engine `e` applies the next record of its queues. -/
def Dev.applyRecord (d : Dev) (e cost : Nat) (bad : List Nat) (asRead : Option Bytes) : Dev :=
  d.takeItem e cost (fun w => match w with
    | .record _ _ => true
    | _ => false) fun d q => d.applyItem q bad asRead

/-- RERATE_ORDER_APPLY (R193). -/
def Dev.rerateApply (d : Dev) (e cost : Nat) : Dev :=
  d.takeItem e cost (fun w => match w with
    | .rerate _ => true
    | _ => false) fun d q => d.applyItem q [] none

/-- BILLING_ORDER_APPLY (R212). -/
def Dev.billingApply (d : Dev) (e cost : Nat) : Dev :=
  d.takeItem e cost (· == .billing) fun d q => d.applyItem q [] none

/-- TRACKER_ORDER_APPLY (R242). -/
def Dev.trackerApply (d : Dev) (e cost : Nat) : Dev :=
  d.takeItem e cost (fun w => w == .rebase || w == .resetTrack) fun d q => d.applyItem q [] none

/-! ### Closes (R65 to R67, R195, R206, R218, R230, R238 to R241) -/

/-- Make the close of a slot for a boundary. The ledger engines act only on P (R186); a close that scores the slot reports block 31
(R241). -/
def Dev.closeAt (d : Dev) (slot : Nat) (b : Bound) : Dev :=
  let seat := d.owner slot
  let sec : Nat := 60 * d.cfg.seatPeriod seat
  let d0 := d.setLedger slot { d.ledger slot with closedTo := some b.utc }
  if sec = 0 ∨ Int.fmod b.utc sec ≠ 0 then d0 else
  let k := (Int.fdiv b.utc sec).toNat
  let c := d0.lctx slot
  if c.l.st = 0 then (c.contribute k b.tick).d else
  let c := c.closeGap k
  let bill := c.d.cfg.billsAt seat slot k
  let c := if bill then c.onL fun l => l.bill k else c
  let c := (c.contribute k b.tick).trackClose k
  let scored := c.drop.isSome
  let d := c.d.commitLedger slot c.l
  let t := d.time.tick
  let l := d.ledger slot
  let bs := (List.range 32).filter fun i => bitOf l.changed i || (i == 31 && scored)
  let d := bs.foldl (fun d i => d.derived slot i 0 (if 1 ≤ i ∧ i ≤ 4 then l.lateAt else none) none t) d
  let d := if bill then d.derivedAll slot billBlocks 1 none t else d
  d.setLedger slot { d.ledger slot with changed := 0, lateAt := none }

/-- After a close: a further boundary whose offset tick has come is a catch-up close (R67). -/
def Dev.catchNext (d : Dev) (slot : Nat) : Dev :=
  let more := (d.dueBound slot).isSome
  d.setLedger slot { d.ledger slot with catching := more }

/-- SWEEP_CLOSE (R35, R65): the slot's earliest pending boundary is closed as mandatory work, that of ended ticks first. A standby makes its closes
with the packages of its active side. -/
def Dev.sweepClose (d : Dev) (slot cost : Nat) : Dev :=
  let e := d.engOf slot
  let spilt := d.ldg.spill.any fun s => s.1 == slot
  if !d.isActive || (d.ledger slot).catching || 4000 < cost || d.budget < (d.eng e).used + cost then d
  else if !spilt && d.lateWork then d
  else match d.dueBound slot with
  | none => d
  | some b =>
    let d := d.onEng e fun s => { s with used := s.used + cost, mand := s.mand + cost }
    let d := { d with ldg := { d.ldg with spill := d.ldg.spill.filter fun s => s.1 != slot } }
    (d.closeAt slot b).catchNext slot

/-- A catch-up close of a boundary has run: its evaluation counts from the last of them (R231). -/
def Dev.noteCaught (d : Dev) (n : Nat) (b : Bound) : Dev :=
  if d.cfg.hasTopo = false then d else
  let x : Caught := { seat := n, utc := b.utc, tick := d.time.tick }
  { d with bal := { d.bal with caught := d.bal.caught.filter (fun y => !(y.seat == n && y.utc == b.utc)) ++ [x] } }

/-- CATCHUP_CLOSE (R67): engine `e` makes the next catch-up close, slot by slot in slot order. -/
def Dev.catchupClose (d : Dev) (e cost : Nat) : Dev :=
  if !d.isActive || !d.mayDispatch e 4000 || 4000 < cost then d else
  match (d.catchSlots e).head? with
  | none => d
  | some s =>
    match d.dueBound s with
    | none => d.setLedger s { d.ledger s with catching := false }
    | some b =>
      let d := d.onEng e fun x => { x with used := x.used + cost }
      let d := d.noteCaught (d.owner s) b
      (d.closeAt s b).catchNext s

/-! ### Repair (R201, R202) -/

/-- SLOT_REPAIR_DONE (R201): the ledger is restored from the standby's copy, which the link has brought, where the position has a
partner, and otherwise from NAND; the held records are applied first,
and every restored block is reported. -/
def Dev.repairDone (d : Dev) (slot : Nat) (partner : Option Ledger) : Dev :=
  let l := d.ledger slot
  if l.st ≠ 2 then d else
  match if d.cfg.hasPartner then partner else some (d.nandLedger slot) with
  | none => d
  | some src =>
    let m := (List.range 32).foldl (fun x b => x.takeBlock src b) l
    let d := (d.commitLedger slot { m with st := 1, held := [] }).carryWatch (d.engOf slot)
    let d := l.held.foldl (fun d q => d.applyItem q [] none) d
    let d := d.bump Reg.LDG_SEAT_CNT_4.REPAIRED 1 (d.owner slot)
    d.derivedAll slot (List.range 32) 5 none d.time.tick

/-- SLOT_REPAIR_TIMEOUT (R202): restoration has not completed within 100 ticks. -/
def Dev.repairTimeout (d : Dev) (slot : Nat) : Dev :=
  let l := d.ledger slot
  if l.st = 2 ∧ l.repairAt + 100 ≤ d.time.tick then d.failSlot slot else d

/-- LDG_SLOT_REINIT (R202): the house seat puts the selected FAILED slot into EMPTY. -/
def Dev.slotReinit (d : Dev) : Dev :=
  let slot := d.rd Reg.LDG_SLOT_SEL.SLOT
  let l := d.ledger slot
  if l.st ≠ 3 then d else
  d.commitLedger slot { st := 0, lver := l.lver, closedTo := l.closedTo, catching := l.catching }

/-! ### The shadow engine (R203, R204) -/

/-- A record re-executed on a ledger: the ledger alone, nothing else of the device changes. -/
def Dev.replay (d : Dev) (l : Ledger) (q : QItem) : Ledger :=
  match q.work with
  | .record bytes chk =>
    if sealOf (slice bytes 0 40) ≠ chk then l else
    let (c, en) := LCtx.apply { d, l, slot := q.slot, seat := q.seat } bytes
    match en with
    | .applied _ => c.l.applied1 q l.lastTick
    | .tamper _ _ => c.l.applied1 q l.lastTick
    | .duplicate => l
    | _ => c.l
  | _ => l

/-- A mismatch of engine `e` is flagged; the third within 1,000 ticks is a fault of the engine (R204). -/
def Dev.shadowFlag (d : Dev) (e slot aseq : Nat) : Dev :=
  let t := d.time.tick
  let m := t :: (d.eng e).mism.filter fun x => t < x + 1000
  let d := d.onEng e fun s => { s with mism := m }
  let d := d.raiseIn Stk.LDG_SHADOW_MISM.MISM 0 0 e (d.slotView slot) slot [(1, e), (6, aseq)]
  if 3 ≤ m.length then d.raiseIn Stk.LDG_ENG_FAULT.FAULT 0 0 e 0xFF e [] else d

/-- SHADOW_EXECUTE (R203, R204): the shadow engine re-executes the next record of the engine sampled in the last tick. -/
def Dev.shadowExecute (d : Dev) (cost : Nat) (cmp : ShadowCmp) : Dev :=
  if d.budget < d.ldg.shadowUsed + cost || !d.on Reg.LDG_SHADOW.EN || d.ldg.shadowStopped then d else
  match d.ldg.shadowLast with
  | [] => d
  | x :: xs =>
    let d := { d with ldg := { d.ldg with
      shadowLast := xs, shadowUsed := d.ldg.shadowUsed + cost, shadowRecs := d.ldg.shadowRecs + 1 } }
    match cmp with
    | .equal => d
    | .differs agree =>
      let d := d.shadowFlag x.engine x.item.slot x.item.aseq
      if agree then
        let later := (d.ldg.appliedLast ++ d.ldg.appliedCur).filter fun q => q.slot == x.item.slot
        let work := later.dropWhile fun q => !(q.opening == x.item.opening && q.aseq == x.item.aseq)
        let k : Correction := { engine := x.engine, slot := x.item.slot, tick := d.time.tick, pre := x.pre, work }
        { d with ldg := { d.ldg with corr := d.ldg.corr.filter (·.slot != x.item.slot) ++ [k] } }
      else
        { d.raise Stk.LDG_SHADOW_MISM.SHADOW_SELF with ldg := { d.ldg with shadowStopped := true } }

/-- SHADOW_CORRECTION_INSTALL (R204): at the next boundary the shadow's outcome replaces the ledger, through a journal delta,
and its blocks are reported; the held records follow. -/
def Dev.shadowInstall (d : Dev) (slot : Nat) : Dev :=
  match d.ldg.corr.find? (·.slot == slot) with
  | none => d
  | some k =>
    if d.time.tick ≤ k.tick then d else
    let l := d.ledger slot
    let m := k.work.foldl d.replay k.pre
    let out := (List.range 32).foldl (fun x b => x.takeBlock m b) l
    let bs := (List.range 32).filter fun b => bitOf (k.pre.diff out slot (d.owner slot)) b
    let d := { d with ldg := { d.ldg with corr := d.ldg.corr.filter (·.slot != slot) } }
    let d := d.commitLedger slot { out with held := [] }
    let d := (d.derivedAll slot bs 4 none d.time.tick).carryWatch (d.engOf slot)
    l.held.foldl (fun d q => d.applyItem q [] none) d

end Sys2Proof.Machine
end

