-- ==== Sys2Proof/Machine/CampBase.lean ====
section
/-!
DEFINITION. What the campaign engine reads of a campaign and of its targets: the descriptor, a target's address and port, and
the blocks that a port still has to multicast (R248, R250, R252, R253).
-/

namespace Sys2Proof.Machine

/-! ### The descriptor (R248) -/

def CampSt.f (c : CampSt) (off n : Nat) : Nat := u c.body off n
def CampSt.mcast (c : CampSt) : Bool := bitOf (c.f 1 1) 0
def CampSt.blk (c : CampSt) : Nat := c.f 2 2
def CampSt.first (c : CampSt) : Nat := c.f 4 4
def CampSt.last (c : CampSt) : Nat := c.f 8 4
def CampSt.imgLen (c : CampSt) : Nat := c.f 12 4
def CampSt.actTime (c : CampSt) : Nat := c.f 16 8
def CampSt.bkey (c : CampSt) : Nat := c.f 24 2
def CampSt.remc (c : CampSt) : Nat := c.f 26 2
def CampSt.duty (c : CampSt) : Nat := c.f 28 1
def CampSt.maxTry (c : CampSt) : Nat := c.f 29 1
def CampSt.maxRound (c : CampSt) : Nat := c.f 30 1
def CampSt.perBeacon (c : CampSt) : Nat := c.f 31 1

/-- The payload that follows a descriptor. -/
def campPayload (body : Bytes) : Bytes := body.drop 64

/-- Blocks of an image; a calendar has none. -/
def CampSt.total (c : CampSt) : Nat := if c.kind = 1 then (c.imgLen + c.blk - 1) / max 1 c.blk else 0

/-- Block `i` of an image. -/
def CampSt.block (c : CampSt) (i : Nat) : Bytes := slice (campPayload c.body) (i * c.blk) (min c.blk (c.imgLen - i * c.blk))

/-- The phase that a campaign is in, or was in when it was paused. -/
def CampSt.phase (c : CampSt) : Nat := if c.state = 8 then c.paused else c.state

/-! ### Targets -/

/-- A target that the rounds of R253 still serve. -/
def Target.active (t : Target) : Bool := t.st == .pending || t.st == .initiated || t.st == .incomplete

/-- A target for which nothing is left to be done. -/
def Target.over (t : Target) : Bool := t.st == .verified || t.st == .failed || t.st == .notarget

/-- Of two directory entries of a slot, the one inserted later (R292). -/
def laterEnt (a b : Nat × AdirEnt) : Nat × AdirEnt := if a.2.n < b.2.n then b else a

/-- The key most recently inserted for a slot, with its entry (R250, R292). -/
def Dev.campAddr (d : Dev) (slot : Nat) : Option (Nat × AdirEnt) :=
  match d.pool.adir.filter fun e => e.2.slot == slot with
  | [] => none
  | e :: es => some (es.foldl laterEnt e)

/-- The RADIO port that holds an EUI-64 in its neighbour table, with the short address. -/
def Dev.neighOf (d : Dev) (eui : Nat) : Option (Nat × Nat) :=
  d.radio.findSome? fun r => (r.2.neigh.find? fun n => n.2.eui == eui).map fun n => (r.1, n.1)

/-- The port of an address: a SERIAL key names it, a neighbour table holds it, or it is the port on which the address was last
heard. -/
def Dev.addrPort (d : Dev) (a : Nat × AdirEnt) : Option Nat :=
  if a.1 / 2 ^ 128 = 4 then some (a.1 % 256) else
  match d.neighOf (a.1 % 2 ^ 64) with
  | some n => if a.1 / 2 ^ 128 = 1 then some n.1 else a.2.port
  | none => a.2.port

/-- The port of a target. -/
def Dev.tgtPort (d : Dev) (t : Target) : Option Nat := (d.campAddr t.slot).bind d.addrPort

/-- A port whose standard has a broadcast (R252). -/
def Dev.mcPort (d : Dev) (p : Nat) : Bool := d.mode p == Canvas.mPLC || d.mode p == Canvas.mRADIO

/-- Does a target take multicast blocks, and answer a read of its bitmap (R250)? -/
def Dev.mcTarget (d : Dev) (c : CampSt) (t : Target) : Bool :=
  c.kind == 1 && c.mcast && (d.tgtPort t).elim false d.mcPort

/-- The ports that carry a target which takes multicast blocks. -/
def Dev.mcPorts (d : Dev) (c : CampSt) : List Nat :=
  if c.kind == 1 && c.mcast then
    ((c.targets.filter fun t => !t.over).filterMap d.tgtPort).eraseDups.filter d.mcPort
  else []

/-- Blocks sent on a port in MULTICAST or step 3. -/
def CampSt.sentOn (c : CampSt) (p : Nat) : Nat := SMap.get (fun _ => 0) c.pos p

/-- The next block for a port in MULTICAST (`some`) or step 3 of a round, if one is left. -/
def CampSt.nextBlock (c : CampSt) (p : Nat) : Option Nat :=
  if c.phase = 4 then (if c.sentOn p < c.total then some (c.sentOn p) else none)
  else if c.phase = 5 ∧ c.step = 3 then c.again[c.sentOn p]?
  else none

/-- Does a port still have blocks of a running campaign to multicast: its beacon carries Frame Pending (R252)? -/
def Dev.campPending (d : Dev) (p : Nat) : Bool :=
  d.camp.camps.any fun c => (c.2.state == 4 || c.2.state == 5) && (c.2.nextBlock p).isSome && (d.mcPorts c.2).contains p

end Sys2Proof.Machine
end

