-- ==== Sys2Proof/Machine/Radio.lean ====
section
/-!
DEFINITION. Radio ports: beacons and the admission window, received frames and their acknowledgements, indirect transmission,
association, GTS, the reset balls, and the transmit grant (R87, R127 to R145).
-/

namespace Sys2Proof.Machine

/-- What a radio port holds. -/
def Dev.rad (d : Dev) (p : Nat) : RadioSt := SMap.get (fun _ => {}) d.radio p

/-- Change what a radio port holds. -/
def Dev.onRad (d : Dev) (p : Nat) (g : RadioSt → RadioSt) : Dev := { d with radio := SMap.upd (fun _ => {}) d.radio p g }

/-- The ports that run the radio MAC. -/
def Dev.radioPorts (d : Dev) : List Nat := (List.range 256).filter d.isRadio

/-! ### Reset balls and INIT (R87, R130) -/

/-- Has a group a port in RADIO mode? -/
def Dev.groupHasRadio (d : Dev) (g : Nat) : Bool := (List.range 16).any fun i => d.mode (16 * g + i) == Canvas.mRADIO

/-- Is the reset ball of a group high (R87)? -/
def Dev.rstHigh (d : Dev) (g : Nat) : Bool := bitOf (d.rd Reg.FP_GRP_RST.RELEASE) g && d.groupHasRadio g

/-- RADIO_INIT (R130): the INIT writes are made to a port's transceiver; only the grant holder starts SPI (R142). -/
def Dev.radioInit (d : Dev) (p : Nat) : Dev :=
  if d.isRadio p && d.granted && d.rstHigh (p / 16) then d.emit (.radioInit p (d.cfg.radInit p)) else d

/-- FP_GRP_RST_WRITE (R87, R130): each ball follows its bit; a group that is released runs INIT on its radio ports. -/
def Dev.fpGrpRstWrite (d : Dev) (v : Nat) : Dev :=
  let was := (List.range 16).map d.rstHigh
  let d := d.wr Reg.FP_GRP_RST.RELEASE v
  (List.range 16).foldl (fun d g =>
    let w := was.getD g false
    let n := d.rstHigh g
    if w == n then d else
    let d := d.emit (.radioReset g (!n))
    if n then (List.range 16).foldl (fun d i => d.radioInit (16 * g + i)) d else d) d

/-! ### Beacons and the window (R131, R132, R139, R141) -/

/-- The quota q of an interval (R141). -/
def Dev.joinQuota (d : Dev) (p : Nat) : Nat := max 1 (d.cfg.radJoinRate p * d.cfg.radBI p / 1000000000)

/-- DEFER: 2^m / w, capped at 255. -/
def Dev.deferOf (d : Dev) (p w : Nat) : Nat := min 255 (2 ^ d.cfg.radMod p / max 1 w)

/-- What the running interval's beacon carries of the window goes into the registers (R146). -/
def Dev.showWindow (d : Dev) (p : Nat) : Dev :=
  let s := d.rad p
  let d := (d.wr Reg.RADIO_STAT.STORM (b2n s.storm) p).wr Reg.RADIO_STAT.HOLD (b2n s.hold) p
  (d.wr Reg.RADIO_HINT.WIN s.w p).wr Reg.RADIO_HINT.START s.start p

/-- The hint element of the running interval (R139). -/
def Dev.hint (d : Dev) (p : Nat) : Bytes :=
  let w := d.rd Reg.RADIO_HINT.WIN p
  [0xE5] ++ leBytes 1 (1 + 16 * d.rd Reg.RADIO_STAT.HOLD p + 32 * d.rd Reg.RADIO_STAT.STORM p) ++
    leBytes 1 (d.cfg.radMod p) ++ leBytes 2 (d.rd Reg.RADIO_HINT.START p) ++ leBytes 2 w ++ leBytes 1 (d.deferOf p w)

/-- HINT_WINDOW_UPDATE (R141): the window for the next beacon, from quota `q`, modulus `m` and hold_requested(). -/
def RadioSt.nextWindow (s : RadioSt) (q m : Nat) (hold : Bool) : RadioSt :=
  let a := s.eligible
  let s := { s with eligible := 0, accepted := 0 }
  if hold then { s with hold := true } else
  let w := if a > q then max 1 (s.w / 2) else if 2 * a < q then min (2 ^ m) (s.w * 2) else s.w
  let full := if w = 2 ^ m then s.full + 1 else 0
  { s with hold := false, w, full, start := (s.start + w) % 2 ^ m, storm := if full ≥ 16 then false else s.storm || a > q }

/-- Superframes after which an unused GTS expires, by the standard: twice 2^(8 − BO), or 2 above BO 8 (R133). -/
def gtsExpiry (bo : Nat) : Nat := if bo ≤ 8 then 2 * 2 ^ (8 - bo) else 2

/-- A GTS unused for its expiry is freed (R133). -/
def RadioSt.ageGts (s : RadioSt) (bo : Nat) : RadioSt :=
  { s with gts := (s.gts.map fun g => { g with idle := g.idle + 1 }).filter fun g => g.idle ≤ gtsExpiry bo }

/-- Up to 7 pending addresses: the neighbours whose indirect frames are oldest (R132). -/
def RadioSt.pendingAddrs (s : RadioSt) : List Nat :=
  (s.indirect.foldl (fun a f => if a.contains f.dst then a else a ++ [f.dst]) []).take 7

/-- The instant of beacon `k` of a port (R131). -/
def Dev.beaconAt (d : Dev) (p k : Nat) : Int := (d.rad p).base + (k * d.cfg.radBI p : Nat)

/-- Superframe slots that GTSs take. -/
def gtsSlots (l : List Gts) : Nat := (l.map Gts.len).foldl (· + ·) 0

/-- The GTS fields of a beacon (R132): owner, starting slot, length and direction; GTSs fill the superframe from its end. -/
def gtsFields : Nat → List Gts → List (Nat × Nat × Nat × Bool)
  | _, [] => []
  | e, g :: gs => (g.owner, e - g.len, g.len, g.rx) :: gtsFields (e - g.len) gs

/-- The superframe specification (R132): BO, SO, the last slot of the CAP, PAN coordinator and association permit. -/
def Dev.superframe (d : Dev) (p : Nat) : Nat :=
  d.cfg.radBO p + 2 ^ 4 * d.cfg.radSO p + 2 ^ 8 * (15 - gtsSlots (d.rad p).gts) + 2 ^ 14 + 2 ^ 15

/-- Send beacon `k` of a port: BSN is the low byte of its number. -/
def Dev.sendBeacon (d : Dev) (p k : Nat) : Dev :=
  let s := d.rad p
  d.emit (.beacon p (k % 256) (d.superframe p) s.pendingAddrs (gtsFields 16 s.gts) (d.hint p) (d.campPending p))

/-- BEACON (R131, R132): at the instant of the port's next beacon it is sent by the grant holder, and both sides update the
window, the age of indirect frames and GTS for the next interval. -/
def Dev.beacon (d : Dev) (p : Nat) : Dev :=
  let s := d.rad p
  let at0 := (d.beaconAt p s.k).toNat
  if !d.isRadio p || at0 ≥ d.nextB then d else
  let d := (d.advance at0).showWindow p
  let d := if d.granted then (d.sendBeacon p s.k).onRad p fun s => { s with sent := some s.k } else d
  d.onRad p fun s =>
    { (s.nextWindow (d.joinQuota p) (d.cfg.radMod p) (d.on Reg.ING_STAT.HOLD)).ageGts (d.cfg.radBO p) with
      k := s.k + 1
      fp := d.campPending p
      indirect := s.indirect.map fun f => { f with age := f.age + 1 } }

/-- At start a port's MAC begins: W is 1 and STORM is 1, and beacons follow the tick lattice (R131, R141). What DRAM has kept of
its neighbours is shown again. -/
def Dev.radioStart (d : Dev) (p : Nat) : Dev :=
  let bi := d.cfg.radBI p
  let k := ((d.time.cnt : Int) - d.time.base + bi - 1).toNat / bi
  (d.wr Reg.RADIO_STAT.ASSOC (d.rad p).neigh.length p).onRad p fun s => { base := d.time.base, k, neigh := s.neigh, indirect := s.indirect, polled := s.polled }

/-! ### Association (R140, R141) -/

/-- Is an EUI-64 eligible in the running interval, by what its beacon carried (R140)? -/
def Dev.eligibleNow (d : Dev) (p eui : Nat) : Bool :=
  let n := 2 ^ d.cfg.radMod p
  !d.on Reg.RADIO_STAT.HOLD p &&
    decide ((eui % 65536 % n + n - d.rd Reg.RADIO_HINT.START p % n) % n < d.rd Reg.RADIO_HINT.WIN p)

/-- The least unused short address from `a` on; addresses run from 1 to 0xFFFD. -/
def RadioSt.freeShort (s : RadioSt) (a : Nat) : Nat :=
  ((List.range 65533).find? fun i => (SMap.find s.neigh (1 + (a + i) % 65533)).isNone).elim 0 fun i => 1 + (a + i) % 65533

/-- Answer an association 0x01 (PAN at capacity). -/
def Dev.assocRefuse (d : Dev) (p eui : Nat) : Dev :=
  (d.bump Reg.RADIO_JOIN.DEFERRED 1 p).emit (.assocAnswer p eui 0xFFFF 1)

/-- A neighbour enters the table of a port under a short address. -/
def Dev.assocEnter (d : Dev) (p eui short : Nat) : Dev :=
  let n : Neigh := { eui }
  let d := d.onRad p fun s => { s with accepted := s.accepted + 1, neigh := s.neigh.put short n }
  (d.wr Reg.RADIO_STAT.ASSOC (d.rad p).neigh.length p).bump Reg.RADIO_JOIN.ANSWERED 1 p

/-- Accept an association. Which unused short address is given is left open. -/
def Dev.assocAccept (d : Dev) (p eui : Nat) : Dev :=
  let s := d.rad p
  let short := match s.neigh.find? fun e => e.2.eui == eui with
    | some e => e.1
    | none => s.freeShort (d.fresh 53 65533)
  (d.took.assocEnter p eui short).emit (.assocAnswer p eui short 0)

/-- An association request is accepted if eligible, within the quota and the table has room (R141). -/
def Dev.associate (d : Dev) (p eui : Nat) : Dev :=
  let s := d.rad p
  if !d.eligibleNow p eui then d.assocRefuse p eui else
  let d := d.onRad p fun s => { s with eligible := s.eligible + 1 }
  if s.accepted ≥ d.joinQuota p then d.assocRefuse p eui
  else if s.neigh.length ≥ d.cfg.radNcap p && !(s.neigh.any fun e => e.2.eui == eui) then
    (d.assocRefuse p eui).raisePort Stk.RADIO.TABLE_FULL p
  else d.assocAccept p eui

/-! ### GTS (R133) -/

/-- Symbols of one superframe slot. -/
def Dev.slotSymbols (d : Dev) (p : Nat) : Nat := 60 * 2 ^ d.cfg.radSO p

/-- Is a GTS of `len` superframe slots granted to a short address? -/
def Dev.gtsOk (d : Dev) (p short len : Nat) : Bool :=
  let s := d.rad p
  s.gts.length < d.cfg.radGtsMax p && decide ((16 - (gtsSlots s.gts + len)) * d.slotSymbols p ≥ 440) &&
    (SMap.find s.neigh short).isSome

/-- A GTS request takes effect: an allocation if it is granted, or the return of a GTS. -/
def Dev.gtsTake (d : Dev) (p short : Nat) (r : GtsReq) : Dev :=
  if r.alloc then
    if d.gtsOk p short r.len then d.onRad p fun s => { s with gts := s.gts ++ [{ owner := short, len := r.len, rx := r.rx }] } else d
  else d.onRad p fun s => { s with gts := s.gts.filter fun g => !(g.owner == short && g.rx == r.rx) }

/-- One GTS request; an allocation is answered. -/
def Dev.gtsOne (d : Dev) (p short : Nat) (r : GtsReq) : Dev :=
  let ok := d.gtsOk p short r.len
  let d := d.gtsTake p short r
  if r.alloc then d.emit (.gtsAnswer p short ok) else d

/-- Insert a request in order of short address. -/
def insertReq (r : RadioFrame × GtsReq) : List (RadioFrame × GtsReq) → List (RadioFrame × GtsReq)
  | [] => [r]
  | q :: qs => if r.1.src ≤ q.1.src then r :: q :: qs else q :: insertReq r qs

/-! ### Indirect transmission (R134) -/

/-- Offer an indirect frame: refused while the queue holds 64. The second component says that it was taken. -/
def Dev.indirectPut (d : Dev) (p dst : Nat) (bytes : Bytes) (from_ : Producer) : Dev × Bool :=
  if (d.rad p).indirect.length ≥ 64 then (d, false)
  else (d.onRad p fun s => { s with indirect := s.indirect ++ [{ dst, bytes, from_ }] }, true)

/-- Remove the oldest frame for a neighbour. -/
def dropFirstFor (dst : Nat) : List Indirect → List Indirect
  | [] => []
  | f :: fs => if f.dst = dst then fs else f :: dropFirstFor dst fs

/-- Frames that INDIRECT_EXPIRE drops: those not polled within the persistence. -/
def Dev.indirectExpired (d : Dev) (p : Nat) : List Indirect :=
  (d.rad p).indirect.filter fun f => f.age ≥ d.cfg.radPersist p

/-- Drop and count the frames not polled within the persistence (R134). -/
def Dev.indirectDrop (d : Dev) (p : Nat) : Dev :=
  let n := (d.indirectExpired p).length
  (d.onRad p fun s => { s with indirect := s.indirect.filter fun f => f.age < d.cfg.radPersist p }).bump
    Reg.RADIO_INDIR.EXPIRED n p

/-- The frame that INDIRECT_TX sends: the oldest for the neighbour polled first. -/
def Dev.indirectHead (d : Dev) (p : Nat) : Option Indirect :=
  match (d.rad p).polled with
  | [] => none
  | a :: _ => (d.rad p).indirect.find? fun f => f.dst == a

/-- INDIRECT_TX (R134): the oldest frame of the neighbour polled first is sent, `fails` tries without an acknowledgement; after
3 retries it is dropped and counted as expired. -/
def Dev.indirectSend (d : Dev) (p fails : Nat) : Dev :=
  match (d.rad p).polled with
  | [] => d
  | a :: rest =>
    let d := d.onRad p fun s => { s with polled := rest }
    match (d.rad p).indirect.find? fun f => f.dst == a with
    | none => d
    | some f =>
      let d := (List.range (min fails 3 + 1)).foldl (fun d _ => d.emit (.portTx p f.bytes)) d
      let d := d.onRad p fun s => { s with indirect := dropFirstFor a s.indirect }
      if fails > 3 then d.bump Reg.RADIO_INDIR.EXPIRED 1 p else d

/-! ### Received frames (R135 to R137) -/

/-- The Frame Pending answer that a duplicate repeats, where a frame is a duplicate (R137). -/
def Dev.dupOf (d : Dev) (p : Nat) (f : RadioFrame) (c : Nat) : Option Bool :=
  let hold := d.cfg.radDupHold p * 100000000
  match SMap.find (d.rad p).neigh f.src with
  | some n => if n.seq = some f.seq && c < n.at0 + hold then some n.pending else none
  | none =>
    if (d.rad p).ext.any fun e => e.eui == f.src && e.seq == f.seq && decide (c < e.at0 + hold) then some false else none

/-- An accepted frame is remembered for the duplicate check. -/
def Dev.remember (d : Dev) (p : Nat) (f : RadioFrame) (c : Nat) (pending : Bool) : Dev :=
  d.onRad p fun s =>
    match SMap.find s.neigh f.src with
    | some n => { s with neigh := s.neigh.put f.src { n with seq := some f.seq, at0 := c, pending } }
    | none =>
      let e : ExtSeen := { eui := f.src, seq := f.seq, at0 := c }
      { s with ext := (s.ext ++ [e]).drop (s.ext.length + 1 - 64) }

/-- Send an acknowledgement, or count it as late (R136): while the IRQ is polled T0 is not known. -/
def Dev.radAck (d : Dev) (p : Nat) (f : RadioFrame) (pending late : Bool) : Dev :=
  if !f.ackReq then d
  else if late || d.on Reg.FP_STAT.IRQ_POLL p then (d.bump Reg.RADIO_DUP.ACK_LATE 1 p).raisePort Stk.RADIO.ACK_LATE p
  else d.emit (.radioAck p f.seq pending (if d.cfg.radFcs4 p = 1 then 7 else 5))

/-- A frame that came in a GTS of its sender uses it (R133). -/
def RadioSt.useGts (s : RadioSt) (f : RadioFrame) : RadioSt :=
  if f.inGts then { s with gts := s.gts.map fun g => if g.owner = f.src && !g.rx then { g with idle := 0 } else g } else s

/-- The device's partner, when it has one, gets each received PSDU (R145). -/
def Dev.toShadow (d : Dev) (p t0 : Nat) (dup : Bool) (f : RadioFrame) : Dev :=
  if d.on Reg.CAS_STAT.PARTNER_UP then d.emit (.shadowPsdu p t0 dup f.psdu) else d

/-- What an IRQ after reception leads to (R135 to R137): the status read must show RX_END or TX_END, and the frame must pass FCS,
security and address checks. A duplicate is acknowledged as the original was; a new frame is taken by `k` if the receive queue
has room, acknowledged with the Frame Pending answer that `pend` gives, and discarded otherwise. The IRQ edge came at counter
value `c`; `late` says that the decision was not ready in time. -/
def Dev.radioTake (d : Dev) (p c : Nat) (f : RadioFrame) (fcsOk endSet late : Bool) (pend : Dev → Bool) (k : Dev → Dev) : Dev :=
  if !d.isRadio p || !d.granted then d else
  let d := (d.advance c).serviced p c
  if !endSet then d.raisePort Stk.RADIO.SPI_ERR p
  else if !fcsOk then d
  else if f.secured then (d.bump Reg.RADIO_DROP.SECURED 1 p).raisePort Stk.RADIO.SECURED p
  else if !f.toUs then d
  else
    let d := d.onRad p fun s => s.useGts f
    let t0 := c - 1000 * d.cfg.radRxLat p
    match d.dupOf p f c with
    | some pe => ((d.bump Reg.RADIO_DUP.DUP 1 p).toShadow p t0 true f).radAck p f pe late
    | none =>
      if !d.rxqRoom p f.psdu.length then (d.bump Reg.RADIO_DROP.QFULL 1 p).raisePort Stk.RADIO.QFULL p
      else
        let pe := pend d
        (((k (d.remember p f c pe)).toShadow p t0 false f).radAck p f pe late)

/-- A neighbour leaves: its entry, its frames and its GTSs go (R127). -/
def Dev.disassociate (d : Dev) (p short : Nat) : Dev :=
  let d := d.onRad p fun s =>
    { s with
      neigh := SMap.erase s.neigh short
      indirect := s.indirect.filter fun f => f.dst != short
      polled := s.polled.filter (· != short)
      gts := s.gts.filter fun g => g.owner != short }
  d.wr Reg.RADIO_STAT.ASSOC (d.rad p).neigh.length p

/-- A data frame enters the receive queue; a disassociation notification is the MAC's own. -/
def Dev.takeData (d : Dev) (p : Nat) (f : RadioFrame) : Dev :=
  if f.leaves then d.disassociate p f.src else (d.rxqPut p f.psdu).count Reg.RADIO_RXCNT.FRAMES 1 p

/-- Does the indirect queue hold a frame for a neighbour (R134)? -/
def Dev.pendingFor (d : Dev) (p src : Nat) : Bool := (d.rad p).indirect.any fun x => x.dst == src

/-- A Data Request is served: the neighbour's oldest frame falls due (R134). -/
def Dev.takePoll (d : Dev) (p src : Nat) : Dev :=
  let d := d.bump Reg.RADIO_INDIR.SERVED 1 p
  if d.pendingFor p src then d.onRad p fun s => { s with polled := s.polled ++ [src] } else d

/-- RADIO_FRAME_RX (R135 to R137). -/
def Dev.radioFrameRx (d : Dev) (p c : Nat) (f : RadioFrame) (fcsOk endSet late : Bool) : Dev :=
  d.radioTake p c f fcsOk endSet late (fun _ => false) fun d => d.takeData p f

/-- DATA_REQUEST (R134): a neighbour's Data Request is acknowledged with Frame Pending from its indirect queue, and its oldest
frame falls due. -/
def Dev.dataRequest (d : Dev) (p c : Nat) (f : RadioFrame) (fcsOk endSet late : Bool) : Dev :=
  d.radioTake p c f fcsOk endSet late (fun d => d.pendingFor p f.src) fun d => d.takePoll p f.src

/-- ASSOCIATION_REQUEST (R135, R137, R141). -/
def Dev.associationRequest (d : Dev) (p c : Nat) (f : RadioFrame) (eui : Nat) (fcsOk endSet late : Bool) : Dev :=
  d.radioTake p c f fcsOk endSet late (fun _ => false) fun d => d.associate p eui

/-- GTS_REQUEST (R133, R135, R137): the requests of one backoff period, the lower short address first. -/
def Dev.gtsRequest (d : Dev) (p c : Nat) (reqs : List (RadioFrame × GtsReq)) (fcsOk endSet late : Bool) : Dev :=
  (reqs.foldl (fun a r => insertReq r a) []).foldl (fun d r =>
    d.radioTake p c r.1 fcsOk endSet late (fun _ => false) fun d => d.gtsOne p r.1.src r.2) d

/-- The shadow MAC takes an association request as the active side answered it (R145). -/
def Dev.shadowAssoc (d : Dev) (p eui : Nat) (short : Option Nat) : Dev :=
  let d := if d.eligibleNow p eui then d.onRad p fun s => { s with eligible := s.eligible + 1 } else d
  match short with
  | some a => d.assocEnter p eui a
  | none => d.bump Reg.RADIO_JOIN.DEFERRED 1 p

/-- What the shadow MAC does with a forwarded frame that is no duplicate. -/
def Dev.shadowTake (d : Dev) (p : Nat) (f : RadioFrame) (kind : ShadowKind) : Dev :=
  match kind with
  | .data => if d.rxqRoom p f.psdu.length then d.takeData p f else d
  | .dataRequest => d.takePoll p f.src
  | .assoc eui short => d.shadowAssoc p eui short
  | .gts r => d.gtsTake p f.src r

/-- PARTNER_PSDU (R145): the side without the grant takes a forwarded PSDU with its T0 and verdict into its shadow MAC. -/
def Dev.partnerPsdu (d : Dev) (p t0 : Nat) (dup : Bool) (f : RadioFrame) (kind : ShadowKind) : Dev :=
  if !d.isRadio p || d.granted then d
  else if dup then d.bump Reg.RADIO_DUP.DUP 1 p
  else
    let d := d.onRad p fun s => s.useGts f
    (d.remember p f (t0 + 1000 * d.cfg.radRxLat p) (kind == .dataRequest && d.pendingFor p f.src)).shadowTake p f kind

/-! ### The transmit grant (R142 to R145) -/

/-- Ports in PLC_AFE mode whose AFE follows the grant: TXON goes to those with lock, TXOFF to every one. -/
def Dev.afeGrant (d : Dev) (on : Bool) : Dev :=
  ((List.range 256).filter fun p => d.mode p == Canvas.mPLC).foldl (fun d p =>
    if on && !d.on Reg.PLC_STAT.RX_LOCK p then d
    else (d.afeCommand p (if on then cmdTXON else cmdTXOFF) 0 0).wr Reg.PLC_STAT.TXON (b2n on) p) d

/-- The INIT writes of every radio port whose transceiver is out of reset (R130). -/
def Dev.initAll (d : Dev) : Dev := d.radioPorts.foldl Dev.radioInit d

/-- Raise TXGRANT: frames that waited for it go out. While the peer's line is high too the selector has not moved yet, and INIT
waits for its fall (R143 to R145); otherwise it runs now (R130). -/
def Dev.grantOn (d : Dev) : Dev :=
  if d.granted then d else
  let d := ((d.wr Reg.TXG_STAT.OWN 1).emit (.txGrant true)).afeGrant true
  let d := { d with grant := { d.grant with tookOver := false } }
  let d := d.livePorts.foldl Dev.txDrain d
  if d.on Reg.TXG_STAT.PEER then d.raise Stk.RADIO_GLB.GRANT_BOTH else d.initAll

/-- Lower TXGRANT. -/
def Dev.grantOff (d : Dev) : Dev :=
  let d := { d with grant := { d.grant with tookOver := false } }
  if d.granted then ((d.afeGrant false).wr Reg.TXG_STAT.OWN 0).emit (.txGrant false) else d

/-- May the device raise TXGRANT (R143): the peer's line has been low for at least 1 tick, or this device has just taken over? -/
def Dev.mayGrant (d : Dev) : Bool :=
  d.isActive && d.seatsOpen &&
    (d.grant.tookOver || (!d.on Reg.TXG_STAT.PEER && decide (d.grant.peerAt + d.tickNs ≤ d.time.cnt)))

/-- GRANT_RAISE (R143). -/
def Dev.grantRaise (d : Dev) (c : Nat) : Dev :=
  let d := d.advance c
  if d.mayGrant then d.grantOn else d

/-- GRANT_PEER_RISE (R143): TXGRANT_PEER has been high for 100 µs; a holder yields. -/
def Dev.grantPeerRise (d : Dev) (c : Nat) : Dev :=
  let d := d.advance c
  let d := { d with grant := { d.grant with peerAt := d.time.cnt } }.wr Reg.TXG_STAT.PEER 1
  if d.granted then
    ((d.raise Stk.RADIO_GLB.GRANT_BOTH).grantOff).raise Stk.RADIO_GLB.GRANT_YIELD
  else d

/-- The current interval's beacon is sent, with the shadow BSN, unless this device sent it itself (R145). -/
def Dev.shadowBeacon (d : Dev) (p : Nat) : Dev :=
  let k := (d.rad p).k
  if k = 0 || (d.rad p).sent = some (k - 1) then d
  else (d.sendBeacon p (k - 1)).onRad p fun s => { s with sent := some (k - 1) }

/-- GRANT_PEER_FALL (R145): while the grant is held, INIT runs and the current interval's beacon is sent unless this device
sent it itself. -/
def Dev.grantPeerFall (d : Dev) (c : Nat) : Dev :=
  let d := d.advance c
  let was := d.on Reg.TXG_STAT.PEER
  let d := { d with grant := { d.grant with peerAt := d.time.cnt } }.wr Reg.TXG_STAT.PEER 0
  if !was || !d.granted then d else d.radioPorts.foldl Dev.shadowBeacon d.initAll

end Sys2Proof.Machine
end

