-- ==== Sys2Proof/Machine/Vault.lean ====
section
/-!
DEFINITION. The vault: its monotonic counters, the root secret and enrolment, slots and their use, update messages and
their commitment, challenges, export, and what it does at start (R260 to R282).
-/

namespace Sys2Proof.Machine

/-! ### Monotonic counters (R277 to R280) -/

/-- Write the stale copy of the HI cell: the invalid copy, or else the one R279 does not take. -/
def Counter.writeHi (c : Counter) (v : CntCopy) : Counter :=
  let first := !c.hi0.valid || (c.hi1.valid && (pickHi c.hi0 c.hi1).map (·.1) == some 1)
  if first then { c with hi0 := v } else { c with hi1 := v }

/-- Write the stale copy of the LO cell, for the HI value that the current choice goes with. -/
def Counter.writeLo (c : Counter) (h : Nat) (v : CntCopy) : Counter :=
  let first := !c.lo0.valid || (c.lo1.valid && (pickLo h c.lo0 c.lo1).map (·.1) == some 1)
  if first then { c with lo0 := v } else { c with lo1 := v }

/-- A pulse on a counter: a copy of its HI cell, or of its LO cell while the HI value is `h`. -/
inductive CellWrite where
  | hi (v : CntCopy)
  | lo (h : Nat) (v : CntCopy)
  deriving DecidableEq, Repr

/-- Make a pulse on a counter. -/
def Counter.pulse (c : Counter) (w : CellWrite) : Counter :=
  match w with
  | .hi v => c.writeHi v
  | .lo h v => c.writeLo h v

/-- A torn pulse leaves its copy invalid. -/
def CellWrite.torn (w : CellWrite) : CellWrite :=
  match w with
  | .hi _ => .hi { st := .bad }
  | .lo h _ => .lo h { st := .bad }

/-- The pulses that advance a counter to `n`, when `n` is above its value (R280). -/
def Counter.pulses (c : Counter) (n : Nat) : List CellWrite :=
  match c.read with
  | none => []
  | some v =>
    let n := min n (2 ^ 64 - 1)
    let h := v / 2 ^ 32
    let h2 := n / 2 ^ 32
    let l2 := n % 2 ^ 32
    if n ≤ v then []
    else if h2 = h then [.lo h { st := .good, value := l2, aux := h }]
    else [.hi { st := .good, value := h2, aux := l2, pend := true }, .lo h { st := .good, value := l2, aux := h2 },
      .hi { st := .good, value := h2 }]

/-- Advance a counter to `n` (R280). -/
def Counter.advanceTo (c : Counter) (n : Nat) : Counter := (c.pulses n).foldl Counter.pulse c

/-- At start a HI copy with PEND has steps 2 and 3 of R280 completed (R279). -/
def Counter.recover (c : Counter) : Counter :=
  match pickHi c.hi0 c.hi1 with
  | some (_, h) =>
    if h.pend then
      let c := c.writeLo h.value { st := .good, value := h.aux, aux := h.value }
      c.writeHi { st := .good, value := h.value }
    else c
  | none => c

/-- Advance counter `i` to a value. -/
def Dev.counterTo (d : Dev) (i n : Nat) : Dev :=
  { d with vault := { d.vault with counters := SMap.upd (fun _ => {}) d.vault.counters i fun c => c.advanceTo n } }

/-- A pulse of the vault's array: what it leaves when it is made, and when it is torn. -/
structure Pulse where
  made : VaultSt → VaultSt
  torn : VaultSt → VaultSt

/-- The pulses that advance counter `i` to `n`. -/
def Dev.counterPulses (d : Dev) (i n : Nat) : List Pulse :=
  let put := fun (w : CellWrite) (v : VaultSt) =>
    { v with counters := SMap.upd (fun _ => {}) v.counters i fun c => c.pulse w }
  ((SMap.get (fun _ => ({} : Counter)) d.vault.counters i).pulses n).map fun w => { made := put w, torn := put w.torn }

/-- The supply is lost when `k` pulses have been made, and the next is torn; the device is off until VIN is back (R371). -/
def Dev.powerCut (d : Dev) (ps : List Pulse) (k : Nat) : Dev :=
  let v := (ps.take k).foldl (fun v p => p.made v) d.vault
  let v := match ps[k]? with
    | some p => p.torn v
    | none => v
  ({ d with vault := v, sys := { d.sys with phase := .off } } : Dev).showBallsOf d.livePorts

/-- Has a counter failed (R279)? -/
def Dev.counterFailed (d : Dev) (i : Nat) : Bool :=
  ((SMap.get (fun _ => ({} : Counter)) d.vault.counters i).read).isNone

/-- OPERATING_HOUR (R277): counter 4 advances at each completed hour of running. -/
def Dev.operatingHour (d : Dev) (c : Nat) : Dev :=
  let d := d.advance c
  if d.time.cnt < d.time.hourAt + 3600 * 1000000000 then d else
  { d.counterTo 4 (d.counter 4 + 1) with time := { d.time with hourAt := d.time.hourAt + 3600 * 1000000000 } }

/-! ### Root, keys and slots (R261 to R268) -/



/-- Are both copies erased? -/
def TwoCopy.blank (t : TwoCopy) : Bool := t.st0 == .erased && t.st1 == .erased

/-- The root secret, where there is one. -/
def Dev.rootKey (d : Dev) : Option Bytes := d.vault.root.read

/-- A device key derived from the root (R261). -/
def Dev.rootDerived (d : Dev) (info : String) : Bytes := hkdf (d.rootKey.getD []) noSalt (ascii info) 32

/-- The binding value (R263, R264): 16 bytes, zero before enrolment. -/
def Dev.bindVal (d : Dev) : Bytes :=
  match d.rootKey, d.vault.enrol.read with
  | some _, some nonce => (hmac (d.rootDerived "HZ-BIND") nonce).take 16
  | _, _ => zeros 16

/-- The record of a slot. -/
def Dev.vslot (d : Dev) (n : Nat) : VSlot := SMap.get (fun _ => {}) d.vault.slots n

/-- Fields of ATTR (R266). -/
def usageOf (attr : Nat) : Nat := attr % 16
def attrEXPW (attr : Nat) : Bool := bitOf attr 4
def attrPARENT (attr : Nat) : Bool := bitOf attr 5
def attrDERIV (attr : Nat) : Bool := bitOf attr 6
def attrMKEK (attr : Nat) : Bool := bitOf attr 7
def attrORPHAN (attr : Nat) : Bool := bitOf attr 8

/-- CHECK of a record and its blob (R266). -/
def Dev.slotCheck (d : Dev) (n attr link : Nat) (blob : Bytes) : Bytes :=
  (hmac (d.rootDerived "HZ-CHECK") (leBytes 2 n ++ leBytes 2 attr ++ leBytes 2 link ++ blob)).take 8

/-- A slot's record for a key. -/
def Dev.slotFor (d : Dev) (n attr link : Nat) (key : Bytes) : VSlot :=
  let blob := keyWrap (d.rootDerived "HZ-WRAP") key
  { attr, link, blob, check := d.slotCheck n attr link blob }

/-- The key in a slot, unwrapped. -/
def Dev.slotKey (d : Dev) (n : Nat) : Bytes := (keyUnwrap (d.rootDerived "HZ-WRAP") (d.vslot n).blob).getD []

/-- Is a slot usable (R268)? Its own check passed, it is neither EMPTY nor ORPHAN, and so for every slot of its parent
chain; a descendant that waits for the sweep is not (R269); `fuel` bounds the chain, which holds at most four slots (R267). -/
def Dev.usableF (d : Dev) : Nat → Nat → Bool
  | 0, _ => false
  | k + 1, n =>
    let s := d.vslot n
    d.rootKey.isSome && usageOf s.attr != 0 && !attrORPHAN s.attr && !d.vault.failed.contains n &&
      !d.vault.sweep.contains n && (n == 1 || d.usableF k s.link)

/-- Is a slot usable (R268)? -/
def Dev.usable (d : Dev) (n : Nat) : Bool := d.usableF 6 n

/-- Slots in the parent chain of a slot, slot 1 included (R267). -/
def Dev.chainLen (d : Dev) : Nat → Nat → Nat
  | 0, _ => 99
  | k + 1, n => if n = 1 then 1 else 1 + d.chainLen k (d.vslot n).link

/-- Does the parent chain of a slot pass through `p`? -/
def Dev.descends (d : Dev) (p : Nat) : Nat → Nat → Bool
  | 0, _ => false
  | k + 1, n =>
    if n = 1 || usageOf (d.vslot n).attr = 0 then false
    else (d.vslot n).link == p || d.descends p k (d.vslot n).link

/-- What the rest of the device uses a slot as, from the next boundary (R268). -/
def Dev.effOf (d : Dev) (n : Nat) : VEff :=
  let s := d.vslot n
  let ok := d.usable n
  { attr := s.attr, link := s.link, usable := ok, key := if ok then d.slotKey n else [] }

/-- Bring the use of every slot up to date (R268). -/
def Dev.vaultEff (d : Dev) : Dev :=
  { d with vault := { d.vault with
    eff := SMap.ofEntries (fun _ => {}) (d.vault.slots.map fun e => (e.1, d.effOf e.1)) } }

/-- A slot as the cipher farm, the unwrap units, campaigns and canvas validation use it. -/
def Dev.veff (d : Dev) (n : Nat) : VEff := SMap.get (fun _ => {}) d.vault.eff n

/-- Does a seat hold a vault slot (R272)? Seat 0 acts on any; others on their AUTH slot and their range. -/
def Dev.ownsSlot (d : Dev) (n slot : Nat) : Bool :=
  n == 0 || slot == d.cfg.seatAuth n || (d.cfg.seatVlo n ≤ slot && slot ≤ d.cfg.seatVhi n)

/-- Write the number of slots whose own check failed, and the state of the sweep. -/
def Dev.vaultStat (d : Dev) : Dev :=
  (d.wr Reg.VAULT_STAT.BAD d.vault.failed.length).wr Reg.VAULT_STAT.SWEEP (b2n (!d.vault.sweepRoots.isEmpty))

/-- Set a seat's result (R271, R282). -/
def Dev.vresult (d : Dev) (n code op slot : Nat) : Dev :=
  ((d.wr Reg.VAULT_RESULT.CODE code 0 n).wr Reg.VAULT_RESULT.OP op 0 n).wr Reg.VAULT_RESULT.SLOT slot 0 n

/-- VAULT_STAT.BUSY while a message is held. -/
def Dev.vbusy (d : Dev) : Dev := d.wr Reg.VAULT_STAT.BUSY (b2n (!d.vault.queue.isEmpty))

/-- Start the orphan sweep of every descendant of a slot (R269). -/
def Dev.startSweep (d : Dev) (root : Nat) (before : Dev) : Dev :=
  let ds := (before.vault.slots.map (·.1)).filter fun n => before.descends root 6 n && !attrORPHAN (before.vslot n).attr
  { d with vault := { d.vault with
    sweep := d.vault.sweep ++ ds.filter fun n => !d.vault.sweep.contains n
    sweepRoots := d.vault.sweepRoots ++ [root] } }.vaultStat

/-- A pulse that writes a slot record; torn, its CHECK fails. -/
def slotPulse (n : Nat) (r : VSlot) : Pulse :=
  let put := fun (r : VSlot) (v : VaultSt) => { v with slots := SMap.set (fun _ => {}) v.slots n r }
  { made := put r, torn := put { r with check := [] } }

/-- VAULT_ENROL (R263, R265): derive the owner secret into slot 1 and publish dpub, bind and conf, or be refused; `ps` says how its
array pulses end. -/
def Dev.vaultEnrol (d : Dev) (n : Nat) (ps : Pulses) : Dev :=
  let res := fun (d : Dev) code => d.vresult n code 0xE 1
  match d.rootKey with
  | none => res d 16
  | some root =>
    if n != 0 || !d.on Reg.VAULT_STAT.ENROL_PERMIT then (res d 14).raise Stk.VAULT.ENROL_REJ else
    let nonce := d.rdBytes Reg.VAULT_ENROL_NONCE.VALUE 8
    let opub := d.rdBytes Reg.VAULT_ENROL_PUB.VALUE 8
    let dk := hkdf root nonce (ascii "HZ-DEVKEY") 32
    let dpub := x25519 dk base25519
    let z := x25519 dk opub
    if ofLe z = 0 then (res d 15).raise Stk.VAULT.ENROL_REJ
    else if ps = .failed then (res d 13).raise Stk.VAULT.NV_FAIL else
    let osec := hkdf z nonce (ascii "HZ-OWNER" ++ dpub ++ opub) 32
    let owned := usageOf (d.vslot 1).attr != 0
    let pulses : List Pulse := [slotPulse 1 (d.slotFor 1 0x21 0 osec),
        { made := fun v => { v with enrol := v.enrol.write nonce }, torn := fun v => { v with enrol := v.enrol.tear } }] ++
      if owned then d.counterPulses 5 (d.counter 5 + 1) ++ d.counterPulses 2 ((d.counter 2 / 2 ^ 32 + 1) * 2 ^ 32) else []
    match ps with
    | .cut k => if owned ∧ 1 ≤ k then (d.powerCut pulses k).startSweep 1 d else d.powerCut pulses k
    | _ =>
    let d1 : Dev := { d with vault := pulses.foldl (fun (v : VaultSt) (p : Pulse) => p.made v) d.vault }
    let d1 : Dev := { d1 with vault := { d1.vault with failed := d1.vault.failed.filter (· != 1) } }
    let d1 := if owned then d1.startSweep 1 d else d1

    let bind := d1.bindVal
    let conf := hmac osec (ascii "HZ-ENROL" ++ bind ++ leBytes 8 (d1.counter 1))
    let d1 := d1.wrBytes Reg.VAULT_DEV_PUB.VALUE dpub 8
    let d1 := d1.wrBytes Reg.VAULT_BIND.BIND bind 4
    let d1 := d1.wrBytes Reg.VAULT_ENROL_CONF.VALUE conf 8
    res ((d1.wr Reg.VAULT_STAT.STATE 2).vaultStat) 0

/-- VAULT_ZEROISE (R262): the house seat, with the strap's permission and the key, erases everything but the counters and
the RTC curve. -/
def Dev.vaultZeroise (d : Dev) (n zkey : Nat) : Dev :=
  if n != 0 || zkey != 0xA55A || !d.on Reg.VAULT_STAT.ENROL_PERMIT then d else
  let d := { d with vault := { d.vault with
    root := {}, enrol := {}, slots := [], mark := none, failed := [], accepted := none
    sweep := [], sweepRoots := [], bcast := [] } }
  ((d.wr Reg.VAULT_STAT.STATE 0).wrBytes Reg.VAULT_BIND.BIND [] 4).vaultStat.vbusy

/-! ### Update messages (R270 to R273) -/

/-- VAULT_SUBMIT (R271): queue the seat's message for fetch, or answer busy. -/
def Dev.vaultSubmit (d : Dev) (n : Nat) : Dev :=
  if d.vault.queue.contains n then d.wr Reg.VAULT_RESULT.CODE 11 0 n else
  let d := { d with vault := { d.vault with queue := d.vault.queue ++ [n] } }.vbusy
  d.emit (.dmaRead (d.rd Reg.VAULT_MSG_ADDR_LO.VALUE 0 n + 2 ^ 32 * d.rd Reg.VAULT_MSG_ADDR_HI.VALUE 0 n)
    (d.rd Reg.VAULT_MSG_LEN.VALUE 0 n))

/-- The key length in bytes that a USAGE needs (R266). -/
def keyLen (usage : Nat) : Nat := if usage = 3 || usage = 4 then 16 else 32

/-- Are ATTR and slot number one of the combinations of R267? -/
def attrOk (slot attr : Nat) : Bool :=
  let us := usageOf attr
  attr / 2 ^ 8 == 0 &&
  (if slot = 2 then us == 2 else if 3 ≤ slot && slot ≤ 7 then us == 7
   else if 8 ≤ slot && slot ≤ 127 then us == 4 || us == 5
   else 128 ≤ slot && slot ≤ 4095 && (us == 3 || us == 6)) &&
  (!attrEXPW attr || us == 3 || us == 4 || us == 6) &&
  (attrPARENT attr == (us == 5 || us == 6)) &&
  (attrDERIV attr == (us == 6)) &&
  (!attrMKEK attr || us == 3)

/-- Slots that have MKEK set. -/
def Dev.mkekCount (d : Dev) : Nat := (d.vault.slots.filter fun e => attrMKEK e.2.attr).length

/-- K_tx or K_upd of an authenticating slot (R270). -/
def Dev.txKey (d : Dev) (auth : Nat) (info : String) : Bytes := hkdf (d.slotKey auth) d.bindVal (ascii info) 32

/-- The payload length of an operation (R270). -/
def plenOk (op plen : Nat) : Bool :=
  match op with
  | 1 => plen == 24 || plen == 40
  | 2 => plen == 24 || plen == 40
  | 3 => plen == 0
  | 4 => plen == 32
  | 5 => plen == 64
  | _ => true

/-- May a seat from 1 up do an operation on a target (R272)? -/
def Dev.seatMay (d : Dev) (n op slot attr : Nat) : Bool :=
  let a := if op = 1 || op = 4 then attr else (d.vslot slot).attr
  let us := usageOf a
  (op == 2 && slot == d.cfg.seatAuth n) || op == 5 ||
  (d.cfg.seatVlo n ≤ slot && slot ≤ d.cfg.seatVhi n && ((us == 3 && attrMKEK a) || us == 4 || us == 6))

/-- The checks of R271 on a fetched message, in order; the result of the first failure, or the message. -/
def Dev.vaultCheck (d : Dev) (n : Nat) (m : Bytes) : Except Nat VMsg :=
  let op := u m 5 1
  let plen := u m 38 2
  let auth := bitsOf (u m 32 2) 11 0
  let slot := bitsOf (u m 34 2) 11 0
  let attr := u m 36 2
  let counter := u m 8 8
  let payload := slice m 48 plen
  let us := if op = 1 || op = 4 then usageOf attr else usageOf (d.vslot slot).attr
  if d.rootKey.isNone then .error 16
  else if slice m 0 4 != [0x48, 0x5A, 0x56, 0x55] || u m 4 1 != 1 || u m 6 2 != 80 + plen || plen > 96
      || m.length != 80 + plen || !plenOk op plen || u m 40 8 != 0 || u m 32 2 ≥ 4096 || u m 34 2 ≥ 4096
      || (op != 1 && op != 4 && attr != 0) || (op == 5 && slot != 0) || (op == 4 && u payload 2 14 != 0) then .error 1
  else if slice m 16 16 != d.bindVal then .error 2
  else if !d.usable auth || (usageOf (d.vslot auth).attr != 1 && usageOf (d.vslot auth).attr != 5)
      || (n != 0 && auth != d.cfg.seatAuth n) then .error 3
  else if hmac (d.txKey auth "HZ-UPD") (slice m 0 (48 + plen)) != slice m (48 + plen) 32 then .error 4
  else if counter ≤ d.counter auth || d.counterFailed auth then .error 5
  else if op < 1 || op > 5 || (n != 0 && !d.seatMay n op slot attr) then .error 6
  else if op != 5 && (slot == 0
      || ((op == 1 || op == 4) && usageOf (d.vslot slot).attr != 0
          && !(op == 1 && slot == 2 && attrORPHAN (d.vslot 2).attr))
      || ((op == 2 || op == 3) && usageOf (d.vslot slot).attr == 0)
      || (op == 2 && attrORPHAN (d.vslot slot).attr)
      || (op == 3 && (slot == 1 || slot == 2))
      || (op == 4 && (!d.usable (bitsOf (u payload 0 2) 11 0)
          || usageOf (d.vslot (bitsOf (u payload 0 2) 11 0)).attr != 6))
      || d.vault.sweepRoots.contains slot || d.vault.sweep.contains slot) then .error 7
  else if ((op == 1 || op == 4) && (!attrOk slot attr || (attrMKEK attr && d.mkekCount ≥ 256)
        || d.chainLen 6 (if op == 1 then auth else bitsOf (u payload 0 2) 11 0) > 4))
      || (op == 2 && slot == 1) then .error 8
  else if (op == 1 || op == 2) && (match keyUnwrap (d.txKey auth "HZ-XPORT") payload with
      | some k => k.length != keyLen us
      | none => true) then .error 9
  else if op == 5 && (
      let ms := bitsOf (u payload 0 4) 19 0
      let kek := bitsOf (u payload 44 2) 11 0
      (match d.cfg.seatOfSlot ms with
       | some own => n != 0 && own != n
       | none => true)
      || !(d.usable kek && attrMKEK (d.vslot kek).attr) || !d.ownsSlot n kek) then .error 10
  else .ok { seat := n, op, slot, attr, auth, counter, payload }

/-- Take the message being served off the queue. -/
def Dev.vaultPop (d : Dev) : Dev :=
  { d with vault := { d.vault with queue := d.vault.queue.drop 1, accepted := none } }.vbusy

/-- VAULT_MSG_CHECK (R271): the fetched message of the seat at the head of the queue is checked; nothing fetched is
result 12. -/
def Dev.vaultMsgCheck (d : Dev) (m : Option Bytes) : Dev :=
  match d.vault.queue.head?, d.vault.accepted with
  | some n, none =>
    match m with
    | none => ((d.vresult n 12 0 0).vaultPop).raise Stk.VAULT.MSG_REJ
    | some m =>
      match d.vaultCheck n m with
      | .error code => ((d.vresult n code (u m 5 1 % 16) (bitsOf (u m 34 2) 11 0)).vaultPop).raise Stk.VAULT.MSG_REJ
      | .ok msg => { d with vault := { d.vault with accepted := some msg } }
  | _, _ => d

/-- Steps 3 to 5 of R273: the record is written and the counter of AUTH advanced. -/
def Dev.vaultApplyMark (d : Dev) (k : VMark) : Dev :=
  let d := { d with vault := { d.vault with
    slots := SMap.set (fun _ => {}) d.vault.slots k.slot k.record
    failed := d.vault.failed.filter (· != k.slot)
    mark := none } }
  (d.counterTo k.ctr k.value).vaultStat

/-- A pulse that writes the update mark; torn, it counts as STATE 0 (R273). -/
def markPulse (m : Option VMark) : Pulse :=
  { made := fun v => { v with mark := m }, torn := fun v => { v with mark := none } }

/-- Commit an accepted message with a record (R273): blob, mark, record, counter, mark. -/
def Dev.vaultCommit (d : Dev) (msg : VMsg) (r : VSlot) (ps : Pulses) : Dev :=
  let k : VMark := { slot := msg.slot, record := r, ctr := msg.auth, value := msg.counter }
  match ps with
  | .failed => ((d.vresult msg.seat 13 msg.op msg.slot).vaultPop).raise Stk.VAULT.NV_FAIL
  | .made =>
    let d := (d.nandWrite (lpaVault + msg.slot % 1024) sCOLD 0).vaultApplyMark k
    (d.vresult msg.seat 0 msg.op msg.slot).vaultPop
  | .cut i => (d.nandWrite (lpaVault + msg.slot % 1024) sCOLD 0).powerCut
      ([markPulse (some k), slotPulse k.slot r] ++ d.counterPulses k.ctr k.value ++ [markPulse none]) i

/-- The accepted message, if it is of an operation. -/
def Dev.acceptedOp (d : Dev) (op : Nat) : Option VMsg := d.vault.accepted.filter fun m => m.op == op

/-- VAULT_PUT (R270): the unwrapped key goes into an EMPTY slot with parent AUTH. -/
def Dev.vaultPut (d : Dev) (ps : Pulses) : Dev :=
  match d.acceptedOp 1 with
  | none => d
  | some m =>
    let key := (keyUnwrap (d.txKey m.auth "HZ-XPORT") m.payload).getD []
    d.vaultCommit m (d.slotFor m.slot m.attr m.auth key) ps

/-- VAULT_REPLACE (R270): a new key with the same ATTR and parent. -/
def Dev.vaultReplace (d : Dev) (ps : Pulses) : Dev :=
  match d.acceptedOp 2 with
  | none => d
  | some m =>
    let key := (keyUnwrap (d.txKey m.auth "HZ-XPORT") m.payload).getD []
    let s := d.vslot m.slot
    d.vaultCommit m (d.slotFor m.slot s.attr s.link key) ps

/-- VAULT_DESTROY (R269): the record is EMPTY from this commit on, and the sweep of its descendants starts. -/
def Dev.vaultDestroy (d : Dev) (ps : Pulses) : Dev :=
  match d.acceptedOp 3 with
  | none => d
  | some m =>
    let d1 := d.vaultCommit m {} ps
    if ps = .failed ∨ ps = .cut 0 then d1 else d1.startSweep m.slot d

/-- VAULT_DERIVE (R270): an EMPTY slot takes an HKDF child of a derivation base, which becomes its parent. -/
def Dev.vaultDerive (d : Dev) (ps : Pulses) : Dev :=
  match d.acceptedOp 4 with
  | none => d
  | some m =>
    let src := bitsOf (u m.payload 0 2) 11 0
    let key := hkdf (d.slotKey src) d.bindVal (slice m.payload 16 16) (keyLen (usageOf m.attr))
    d.vaultCommit m (d.slotFor m.slot m.attr src key) ps

/-- ORPHAN_SWEEP_DONE (R269): every descendant's record carries ORPHAN, and one event counts them. -/
def Dev.orphanSweepDone (d : Dev) : Dev :=
  if d.vault.sweepRoots.isEmpty then d else
  let n := d.vault.sweep.length
  let mark := fun (d : Dev) (s : Nat) =>
    let r := d.vslot s
    let attr := if attrORPHAN r.attr then r.attr else r.attr + 2 ^ 8
    { d with vault := { d.vault with
      slots := SMap.set (fun _ => {}) d.vault.slots s { r with attr, check := d.slotCheck s attr r.link r.blob } } }
  let d := d.vault.sweep.foldl mark d
  let d := { d with vault := { d.vault with sweep := [], sweepRoots := [] } }.vaultStat
  if n = 0 then d else d.raise Stk.VAULT.ORPHANED noIdx [(4, n)]

/-! ### Challenge and export (R274, R276) -/

/-- VAULT_CHAL (R276): the HMAC response for a permitted slot; one challenge per seat per tick. -/
def Dev.vaultChal (d : Dev) (n : Nat) : Dev :=
  let slot := d.rd Reg.VAULT_CHAL_SLOT.SLOT 0 n
  if (d.seat n).chalTick = some d.time.tick then d.vresult n 11 0xC slot else
  let d := d.onSeat n fun s => { s with chalTick := some d.time.tick }
  let us := usageOf (d.vslot slot).attr
  if !d.usable slot || (us != 5 && us != 7) || !d.ownsSlot n slot then
    (d.wrBytes Reg.VAULT_CHAL_RESP.VALUE [] 8 n).vresult n 3 0xC slot
  else
    let r := hmac (d.slotKey slot)
      (ascii "HZ-CHAL" ++ d.bindVal ++ leBytes 2 slot ++ d.rdBytes Reg.VAULT_CHAL_NONCE.VALUE 8 n)
    (d.wrBytes Reg.VAULT_CHAL_RESP.VALUE r 8 n).vresult n 0 0xC slot

/-- VAULT_EXPORT (R274): the selected slot's key, wrapped under K_tx of its parent, goes to host memory. -/
def Dev.vaultExport (d : Dev) (n : Nat) : Dev :=
  if n != 0 then d else
  let slot := d.rd Reg.VAULT_SLOT_SEL.SLOT
  let s := d.vslot slot
  let pus := usageOf (d.vslot s.link).attr
  if d.rootKey.isNone then d.vresult 0 16 0xF slot
  else if !d.usable slot || !attrEXPW s.attr || (pus != 1 && pus != 5) then d.vresult 0 8 0xF slot else
  let addr := d.rd Reg.VAULT_MSG_ADDR_LO.VALUE + 2 ^ 32 * d.rd Reg.VAULT_MSG_ADDR_HI.VALUE
  (d.emit (.dmaWrite addr (keyWrap (d.txKey s.link "HZ-XPORT") (d.slotKey slot)))).vresult 0 0 0xF slot

/-! ### Broadcast frame counters (R281) -/

/-- The running value of a broadcast slot: the ceiling, until a value has been handed out since the start. -/
def Dev.bcastRun (d : Dev) (slot : Nat) : Nat := (SMap.find d.vault.bcast slot).getD (d.counter slot)

/-- Hand out the next frame invocation counter of a broadcast slot; nothing beyond 0xFFFF_FFFF. -/
def Dev.bcastNext (d : Dev) (slot : Nat) : Dev × Option Nat :=
  let r := d.bcastRun slot
  if r ≥ 2 ^ 32 then (d, none) else
  let d := if r ≥ d.counter slot then d.counterTo slot (d.counter slot + 65536) else d
  ({ d with vault := { d.vault with bcast := SMap.set (fun _ => 0) d.vault.bcast slot (r + 1) } }, some r)

/-- A side that becomes active advances its counters to at least the mirrored ceilings (R281). -/
def Dev.bcastTakeover (d : Dev) : Dev :=
  d.vault.mirrorCeil.foldl (fun d e =>
    let d := d.counterTo e.1 e.2
    { d with vault := { d.vault with bcast := SMap.set (fun _ => 0) d.vault.bcast e.1 (d.counter e.1) } }) d

/-! ### Registers that select (R282) -/

/-- VAULT_CNT_LO_READ (R282): the low word of the selected counter; the high word is latched. A seat from 1 up reads the
counters of its own counted slots. -/
def Dev.vaultCntLoRead (d : Dev) (n : Nat) : Dev :=
  let i := d.rd Reg.VAULT_CNT_SEL.INDEX 0 n
  let v := if n == 0 || (8 ≤ i && d.ownsSlot n i) then d.counter i else 0
  { d with vault := { d.vault with cntHi := SMap.set (fun _ => 0) d.vault.cntHi n (v / 2 ^ 32) }
           rdata := BitVec.ofNat 32 v }

/-- VAULT_SLOT_STAT of a seat's selection (R282). -/
def Dev.vaultSlotStat (d : Dev) (n : Nat) : Nat :=
  let s := d.rd Reg.VAULT_SLOT_SEL.SLOT 0 n
  if !d.ownsSlot n s then 0 else
  let r := d.vslot s
  r.attr % 2 ^ 16 + 2 ^ 16 * (r.link % 2 ^ 12) + 2 ^ 28 * b2n (d.usable s) + 2 ^ 29 * b2n (d.vault.failed.contains s)

/-- A write of VAULT_CTL by a seat: seats 1 to 63 reach SUBMIT and CHAL only (R282). -/
def Dev.vaultCtl (d : Dev) (n v : Nat) : Dev :=
  let d := if bitOf v 0 && n == 0 then d.vaultEnrol 0 .made else d
  let d := if bitOf v 1 then d.vaultSubmit n else d
  let d := if bitOf v 2 then d.vaultChal n else d
  let d := if bitOf v 3 then d.vaultExport n else d
  if bitOf v 4 then d.vaultZeroise n (bitsOf v 31 16) else d

/-! ### Start (R261, R262, R268, R273, R279) -/

/-- What the array is found to have lost. -/
def Dev.vaultDamage (d : Dev) (x : NvDamage) : Dev :=
  let v := d.vault
  let v := match x with
    | .rootCopy i => { v with root := v.root.damage i }
    | .enrolCopy i => { v with enrol := v.enrol.damage i }
    | .curveCopy i => { v with curve := v.curve.damage i }
    | .slot n => { v with slots := SMap.upd (fun _ => {}) v.slots n fun s => { s with check := [] } }
    | .mark => { v with mark := none }
    | .counterCopy n k => { v with counters := SMap.upd (fun _ => {}) v.counters n fun c =>
        match k with
        | 0 => { c with hi0 := { c.hi0 with st := .bad } }
        | 1 => { c with hi1 := { c.hi1 with st := .bad } }
        | 2 => { c with lo0 := { c.lo0 with st := .bad } }
        | _ => { c with lo1 := { c.lo1 with st := .bad } } }
  { d with vault := v }

/-- The root at start: drawn if both copies are erased, kept if a copy passes, and otherwise bad (R261, R262). `noise` is
the accepted draw of 4,096 raw bits; nothing where the health tests failed three times in a row. -/
def Dev.rootStart (d : Dev) (noise : Option Bytes) : Dev :=
  if d.vault.root.blank then
    match noise with
    | some bits =>
      { d with vault := { d.vault with root := TwoCopy.both (sha256 bits) } }.wr
        Reg.VAULT_STAT.STATE 1
    | none => (d.wr Reg.VAULT_STAT.STATE 4).raise Stk.VAULT.TRNG_FAIL
  else if d.rootKey.isSome then d.wr Reg.VAULT_STAT.STATE (if d.vault.enrol.read.isSome then 2 else 1)
  else (d.wr Reg.VAULT_STAT.STATE 3).raise Stk.VAULT.ROOT_BAD

/-- Does a slot's own check fail (R266, R268)? -/
def Dev.slotFails (d : Dev) (n : Nat) : Bool :=
  let s := d.vslot n
  usageOf s.attr != 0 &&
    (s.check != d.slotCheck n s.attr s.link s.blob || (keyUnwrap (d.rootDerived "HZ-WRAP") s.blob).isNone)

/-- The vault's part of start: root, counters, update mark, slot checks, binding value, running frame counters. -/
def Dev.vaultStart (d : Dev) (noise : Option Bytes) (damage : List NvDamage) : Dev :=
  let d := (damage.foldl Dev.vaultDamage d).rootStart noise
  let d := { d with vault := { d.vault with
    counters := SMap.mapVals (fun _ c => c.recover) d.vault.counters
    queue := [], accepted := none, meterKeys := [] } }
  let bad := (d.vault.counters.filter fun e => e.2.read.isNone).map (·.1)
  let d := bad.foldl (fun d i => d.raise Stk.VAULT.COUNTER_BAD noIdx [(1, i)]) d
  let d := match d.vault.mark with
    | some k => (d.vaultApplyMark k).raise Stk.VAULT.PEND_REDO
    | none => d
  let failed := if d.rootKey.isSome then (d.vault.slots.map (·.1)).filter d.slotFails else []
  let d := { d with vault := { d.vault with failed } }
  let d := failed.foldl (fun d n => d.raise Stk.VAULT.SLOT_BAD n) d
  let bc := (d.vault.slots.filter fun e => usageOf e.2.attr == 4).map fun e => (e.1, d.counter e.1)
  let d := { d with vault := { d.vault with bcast := SMap.ofEntries (fun _ => 0) bc } }
  (d.wrBytes Reg.VAULT_BIND.BIND d.bindVal 4).vaultStat.vbusy.vaultEff

end Sys2Proof.Machine
end

