-- ==== Sys2Proof/Machine/Ingest.lean ====
section
/-!
DEFINITION. From the arbiter to admission: the message pool and its hold, reassembly, the cipher farm with its key records,
cache and replay unit, the decoder, admission and parked APDUs, and the address directory (R14, R15, R148 to R167, R292).
-/

namespace Sys2Proof.Machine

/-! ### Buffers of frames (R148, R151) -/

/-- Free the buffers of frames, each charged to its port's home seat. -/
def Dev.freeFrames (d : Dev) (fs : List PoolFrame) : Dev :=
  fs.foldl (fun d f => d.poolGive (d.cfg.homeSeat f.port) f.bufs) d

/-! ### Frames into the FIFO and out of it (R94, R95, R98, R150) -/

/-- The oldest frame of a receive queue is written once the FIFO takes it, or dropped for its length (R96, R97). -/
def Dev.queueIngest (d : Dev) (p : Nat) : Dev :=
  match (d.port p).rxq with
  | [] => d
  | f :: fs =>
    let d := d.startOfFrame p
    if !d.fifoTakes p then d else
    let d := d.onPort p fun s => { s with rxq := fs }
    if f.length > d.cfg.maxFrame p then d.overDrop p else d.fifoPut p { bytes := f, chk := sealOf f }

/-- FRAME_INGEST (R90, R94 to R97, R116, R135): a frame of a FIELDLINK or SERIAL link is written as it arrives; on a PLC_AFE or
RADIO port the oldest frame of the receive queue is. An isolated port takes none. -/
def Dev.frameIngest (d : Dev) (p : Nat) (bytes : Bytes) (err : Bool) : Dev :=
  let m := d.mode p
  if d.isolated p then d
  else if m == Canvas.mPLC || m == Canvas.mRADIO then d.queueIngest p
  else if m == Canvas.mOFF || d.rd Reg.FP_STAT.LINK p != 1 then d
  else d.linkFrame p bytes err

/-- Grant head frames of quad `q` to the pool while they fit the deficit; each has its buffers, charged to the home seat of its
port, before its first word is granted, and a refusal ends the turn (R101, R148, R150). -/
def Dev.ingressGrant (d : Dev) (q : Nat) : Nat → Dev
  | 0 => d
  | k + 1 =>
    match d.quad q with
    | [] => d
    | p :: rest =>
      let len := d.headLen (d.quad q) d.arb.passing
      let df := SMap.get (fun _ => 0) d.arb.quadDef q
      if df < len then d else
      match d.poolAsk .ingress (d.cfg.homeSeat p) (bufsOf len) with
      | (d, none) => d
      | (d, some bufs) => Dev.ingressGrant { d with arb := { d.arb with
          byQuad := SMap.set (fun _ => []) d.arb.byQuad q rest
          toPool := d.arb.toPool ++ [{ port := p, bufs }]
          quadDef := SMap.set (fun _ => 0) d.arb.quadDef q (df - len) } } q k

/-- One quad's part of an ingress round. -/
def Dev.ingressTurn (d : Dev) (q a : Nat) : Dev :=
  let df := if a = 0 then 0 else SMap.get (fun _ => 0) d.arb.quadDef q + d.rd Reg.FP_QUANTUM.Q * a
  let d := { d with arb := { d.arb with quadDef := SMap.set (fun _ => 0) d.arb.quadDef q df } }
  if a = 0 then d else d.ingressGrant q (d.quad q).length

/-- A round of the ingress tier: deficit round-robin among the quads. DESIGN CHOICE (log entry 223): the pointer moves on by one
requester each round. -/
def Dev.ingressRound (d : Dev) : Dev :=
  let as := (List.range 4).map d.quadActive
  let d := (List.range 4).foldl (fun d q => d.wr Reg.FPQ_ACTIVE.ACTIVE (as.getD q 0) q) d
  let d := (rrOrder 4 d.arb.ingressPtr).foldl (fun d q => d.ingressTurn q (as.getD q 0)) d
  { d with arb := { d.arb with ingressPtr := (d.arb.ingressPtr + 1) % 4 } }

/-- ARBITER_ROUND (R101): one round of a tier. -/
def Dev.arbiterRound (d : Dev) (t : Tier) : Dev :=
  match t with
  | .port g => d.portRound g
  | .group q => d.groupRound q
  | .ingress => d.ingressRound

/-- The head frame of a port leaves its FIFO. -/
def Dev.popFrame (d : Dev) (p : Nat) : Dev :=
  let d := { d with arb := { d.arb with toPool := d.arb.toPool.drop 1 } }
  (d.setBank p (1 - d.fill p) ((d.draining p).drop 1)).swapIfDrained p

/-- A frame read out of its FIFO passes to its buffers in the pool; one that is bad is dropped, and they are freed (R94, R98,
R151). -/
def Dev.passFrame (d : Dev) (g : PoolGrant) (f : Frame) (how : FifoRead) : Dev :=
  let p := g.port
  let free := fun (d : Dev) => d.poolGive (d.cfg.homeSeat p) g.bufs
  let ecc := d.cfg.fifoProt p == 1
  let d := match how with
    | .corrected n => if ecc then d.bump Reg.FP_ECC.COR n p else d
    | _ => d
  let bytes := match how with
    | .damaged bs => if ecc then f.out else slice bs 0 f.bytes.length
    | _ => f.out
  let d := d.popFrame p
  if ecc && how == .double then
    free (((d.bump Reg.FP_ECC.UNC 1 p).bump Reg.FP_DROP_B.ERR 1 p).raisePort Stk.FP.ECC_UNC p)
  else if f.err then free (d.bump Reg.FP_DROP_B.ERR 1 p)
  else { d with pool := { d.pool with frames := d.pool.frames ++ [{ port := p, bytes, chk := f.chk, bufs := g.bufs }] } }

/-- FRAME_TO_POOL (R98, R149, R150): the words of the frame granted first are read out of its FIFO and pass to the pool. -/
def Dev.frameToPool (d : Dev) (how : FifoRead) : Dev :=
  match d.arb.toPool with
  | [] => d
  | g :: _ =>
    match d.draining g.port with
    | [] => ({ d with arb := { d.arb with toPool := d.arb.toPool.drop 1 } } : Dev).poolGive (d.cfg.homeSeat g.port) g.bufs
    | f :: _ => d.passFrame g f how

/-! ### Reassembly (R152, R153) -/

/-- A discard in reassembly is counted at the home seat of the port. -/
def Dev.reasmDrop (d : Dev) (port : Nat) (fs : List PoolFrame) : Dev :=
  ((d.freeFrames fs).bump Reg.ING_SEAT_CNT_4.REASM 1 (d.cfg.homeSeat port)).raise Stk.ING.REASM_DROP

/-- Replace the contexts. -/
def Dev.setCtxs (d : Dev) (l : List ReCtx) : Dev :=
  ({ d with pool := { d.pool with ctxs := l } } : Dev).wr Reg.ING_STAT.CTX l.length

/-- The APDU that fragments make from place `pos` to `total`, if they cover it; `fuel` bounds the fragments. -/
def joinFrags (fs : SMap Bytes) (total pos : Nat) : Nat → Option Bytes
  | 0 => if pos = total then some [] else none
  | k + 1 =>
    if pos = total then some [] else
    match SMap.find fs pos with
    | some b => if b.isEmpty then none else (joinFrags fs total (pos + b.length) k).map (b ++ ·)
    | none => none

/-- A context that has all its fragments becomes an APDU. -/
def Dev.finishCtx (d : Dev) (c : ReCtx) (others : List ReCtx) : Dev :=
  match c.total.bind fun t => joinFrags c.frags t 0 c.frags.length with
  | some bytes =>
    let a : Apdu := { port := c.port, src := c.src, bytes, frames := c.frames }
    let d := d.setCtxs others
    { d with pool := { d.pool with apdus := d.pool.apdus ++ [a] } }
  | none => d.setCtxs (others ++ [c])

/-- Buffers that a context holds. -/
def ReCtx.bufs (c : ReCtx) : Nat := c.frames.foldl (fun a f => a + f.bufs.length) 0

/-- What a frame of a FIELDLINK port holds (R152): an IPv4 or IPv6 fragment, the APDU of a DLMS/COSEM wrapper at an offset with
its length, or nothing of the kind. -/
inductive LinkPdu where
  | ipFrag
  | apdu (off len : Nat)
  | none
  deriving DecidableEq, Repr

/-- The port of the DLMS/COSEM wrapper. -/
def dlmsPort : Nat := 4059

/-- A UDP datagram that lies in a frame from offset `i`: the APDU behind its wrapper header of version, source, destination and
length, if it goes to port 4059 and holds the whole. -/
def udpPdu (b : Bytes) (i : Nat) : LinkPdu :=
  let w := i + 8
  let n := ofBe (slice b (w + 6) 2)
  if ofBe (slice b (i + 2) 2) = dlmsPort ∧ ofBe (slice b w 2) = 1 ∧ ofBe (slice b (i + 4) 2) = 16 + n ∧ w + 8 + n ≤ b.length then
    .apdu (w + 8) n
  else .none

/-- What an Ethernet frame of a FIELDLINK port holds. -/
def linkPdu (b : Bytes) : LinkPdu :=
  let t := ofBe (slice b 12 2)
  if t = 0x0800 then
    if ofBe (slice b 20 2) % 2 ^ 14 ≠ 0 then .ipFrag
    else if u b 23 1 = 17 then udpPdu b (14 + 4 * (u b 14 1 % 16)) else .none
  else if t = 0x86DD then
    if u b 20 1 = 44 then .ipFrag else if u b 20 1 = 17 then udpPdu b 54 else .none
  else .none

/-- A fragment as reassembly takes it: on a FIELDLINK port the datagram's APDU is whole, unless it is a block of a
general-block-transfer; `none` for a frame that R152 discards. -/
def Dev.fragment (d : Dev) (f : PoolFrame) (g : Fragment) : Option Fragment :=
  if d.mode f.port != Canvas.mFIELDLINK then some g else
  match linkPdu f.bytes with
  | .apdu off len =>
    if u f.bytes off 1 = 0xE0 then some g else some { g with off, len, pos := 0, total := some len }
  | _ => none

/-- REASSEMBLE_FRAGMENT (R152, R153): a fragment joins its context, completing or discarding the APDU. -/
def Dev.reassemble (d : Dev) (g : Fragment) : Dev :=
  match d.pool.frames[g.frame]? with
  | none => d
  | some f =>
    let d := { d with pool := { d.pool with frames := d.pool.frames.eraseIdx g.frame } }
    match d.fragment f g with
    | none => d.reasmDrop f.port [f]
    | some g =>
    let mine := fun (c : ReCtx) => c.port == f.port && c.src == g.src && c.tag == g.tag
    let c := (d.pool.ctxs.find? mine).getD { port := f.port, src := g.src, tag := g.tag }
    let others := d.pool.ctxs.filter fun c => !mine c
    let c := { c with
      frags := SMap.put c.frags g.pos (slice f.bytes g.off g.len)
      frames := c.frames ++ [f]
      total := match g.total with
        | some t => some t
        | none => c.total
      lastTick := d.time.tick }
    let whole := g.pos = 0 ∧ g.total = some g.len
    if d.cfg.apduMax < g.pos + g.len ∨ (d.cfg.apduMax + 2047) / 2048 + 1 < c.bufs then
      (d.setCtxs others).reasmDrop f.port c.frames
    else if ¬ whole ∧ d.pool.ctxs.any mine = false ∧ 1024 ≤ d.pool.ctxs.length then d.reasmDrop f.port [f]
    else d.finishCtx c others

/-- REASM_TIMEOUT (R153): every context idle for more than 200 ticks is discarded with its buffers. -/
def Dev.reasmTimeout (d : Dev) : Dev :=
  let old := d.pool.ctxs.filter fun c => c.lastTick + 200 < d.time.tick
  old.foldl (fun d c => d.reasmDrop c.port c.frames) (d.setCtxs (d.pool.ctxs.filter fun c => d.time.tick ≤ c.lastTick + 200))

/-! ### The address directory (R292) -/

/-- A directory key: its type and its 16 bytes. -/
def adirKey (ty : Nat) (key : Nat) : Nat := ty % 16 * 2 ^ 128 + key % 2 ^ 128

/-- The key that a seat has written. -/
def Dev.adirKeyOf (d : Dev) (n : Nat) : Nat := adirKey (d.rd Reg.ADIR_ARG.TYPE 0 n) (ofLe (d.rdBytes Reg.ADIR_KEY.KEY 4 n))

/-- Entries that the directory holds. -/
def adirCap : Nat := 2097152

/-- A key's entry with the changes of this tick that are not yet in effect. -/
def PoolSt.adirSoon (p : PoolSt) (key : Nat) : Option AdirEnt :=
  match p.adirNext.reverse.find? (·.key == key) with
  | some c => c.ent
  | none => SMap.find p.adir key

/-- Entries that the directory will hold at the next boundary. -/
def PoolSt.adirSize (p : PoolSt) : Nat :=
  let changed := (p.adirNext.map (·.key)).eraseDups
  (p.adir.filter fun e => !changed.contains e.1).length + (changed.filter fun k => (p.adirSoon k).isSome).length

/-- Note a change of the directory: it takes effect at the boundary that opens the next tick, and travels in the tick's
journal deltas. -/
def Dev.adirChange (d : Dev) (c : AdirChange) : Dev :=
  { d with
    pool := { d.pool with adirNext := d.pool.adirNext ++ [c], adirCount := d.pool.adirCount + 1 }
    ldg := { d.ldg with jrn := { d.ldg.jrn with dir := d.ldg.jrn.dir ++ [c] } } }

/-- The result of a directory operation. -/
def Dev.adirResult (d : Dev) (n r : Nat) : Dev := (d.wr Reg.ADIR_STAT.BUSY 0 0 n).wr Reg.ADIR_STAT.RESULT r 0 n

/-- ADIR_INSERT (R292). -/
def Dev.adirInsert (d : Dev) (n : Nat) : Dev :=
  let key := d.adirKeyOf n
  let slot := d.rd Reg.ADIR_ARG.SLOT 0 n
  if d.cfg.seatOfSlot slot ≠ some n then d.adirResult n 2 else
  match d.pool.adirSoon key with
  | some e =>
    if e.seat ≠ n then d.adirResult n 3
    else (d.adirChange { key, ent := some { slot, seat := n, n := d.pool.adirCount, port := e.port } }).adirResult n 0
  | none =>
    if adirCap ≤ d.pool.adirSize then (d.adirResult n 1).raiseFor Stk.SEAT.DIR_FULL n n
    else (d.adirChange { key, ent := some { slot, seat := n, n := d.pool.adirCount } }).adirResult n 0

/-- ADIR_DELETE (R292). -/
def Dev.adirDelete (d : Dev) (n : Nat) : Dev :=
  let key := d.adirKeyOf n
  match d.pool.adirSoon key with
  | none => d.adirResult n 4
  | some e => if e.seat ≠ n then d.adirResult n 3 else (d.adirChange { key, ent := none }).adirResult n 0

/-- ADIR_LOOKUP (R292): only what is in effect is found. -/
def Dev.adirLookup (d : Dev) (n : Nat) : Dev :=
  match SMap.find d.pool.adir (d.adirKeyOf n) with
  | none => d.adirResult n 4
  | some e => if e.seat ≠ n then d.adirResult n 3 else (d.wr Reg.ADIR_ARG.SLOT e.slot 0 n).adirResult n 0

/-- A write of ADIR_CTL. -/
def Dev.adirCtl (d : Dev) (n v : Nat) : Dev :=
  match v % 4 with
  | 1 => d.adirInsert n
  | 2 => d.adirDelete n
  | 3 => d.adirLookup n
  | _ => d

/-- Apply one change of the directory. -/
def adirApply (m : SMap AdirEnt) (c : AdirChange) : SMap AdirEnt :=
  match c.ent with
  | some e => SMap.put m c.key e
  | none => SMap.erase m c.key

/-- ADIR_CHANGE_EFFECT (R292): at the boundary the changes of the tick take effect. -/
def Dev.adirEffect (d : Dev) : Dev :=
  { d with pool := { d.pool with adir := d.pool.adirNext.foldl adirApply d.pool.adir, adirNext := [] } }

/-! ### Key records and the key cache (R157 to R159) -/

/-- Bytes 0–59 of a key record with its seal. -/
def sealRecord (r : Bytes) : Bytes := slice r 0 60 ++ leBytes 4 (sealOf (slice r 0 60))

/-- The key record of a slot; one that nothing has written is zero. -/
def Dev.keyRec (d : Dev) (slot : Nat) : Bytes := (SMap.find d.pool.keys slot).getD (zeros 64)

/-- A key record changes: into DRAM and into the tick's journal deltas, where a record staged in the tick comes after every
replay update of the old one (R159). -/
def Dev.putKeyRec (d : Dev) (slot : Nat) (r : Bytes) : Dev :=
  let staged := (SMap.find d.pool.staged slot).isSome
  { d with
    pool := { d.pool with keys := SMap.put d.pool.keys slot r }
    ldg := { d.ldg with jrn := { d.ldg.jrn with
      keys := if staged then d.ldg.jrn.keys else SMap.put d.ldg.jrn.keys slot r } } }

/-- Ways of a set of the key cache, and its sets. -/
def cacheWays : Nat := 4
def cacheSets : Nat := 16384

/-- The lines of the set of a slot, most recently used first. -/
def Dev.cacheSet (d : Dev) (slot : Nat) : List KeyLine := SMap.get (fun _ => []) d.pool.cache (slot % cacheSets)

/-- Put lines into the set of a slot. -/
def Dev.setCache (d : Dev) (slot : Nat) (l : List KeyLine) : Dev :=
  { d with pool := { d.pool with cache := SMap.set (fun _ => []) d.pool.cache (slot % cacheSets) l } }

/-- The line of a slot is invalidated. -/
def Dev.dropLine (d : Dev) (slot : Nat) : Dev := d.setCache slot ((d.cacheSet slot).filter (·.slot != slot))

/-- Does the seal of a key record hold? -/
def recordGood (r : Bytes) : Bool := sealOf (slice r 0 60) == u r 60 4

/-- Is the KEK of a slot's record usable: the vault slot is, and it is a meter-KEK (R158)? -/
def Dev.kekGood (d : Dev) (slot : Nat) : Bool :=
  let v := d.veff (bitsOf (u (d.keyRec slot) 56 2) 11 0)
  v.usable && attrMKEK v.attr

/-- Is a slot's line in the key cache? -/
def Dev.cached (d : Dev) (slot : Nat) : Bool := (d.cacheSet slot).any (·.slot == slot)

/-- The unwrapped keys of a slot: from the cache, or fetched, checked and unwrapped (R158). A KEK that has become unusable or
orphaned bars the slot in the cache as well. -/
def Dev.slotKeys (d : Dev) (slot : Nat) : Dev × Option KeyLine :=
  let set := d.cacheSet slot
  match set.find? (·.slot == slot) with
  | some k =>
    let d := d.count Reg.KC_HIT.COUNT
    if d.kekGood slot then (d.setCache slot (k :: set.filter (·.slot != slot)), some k) else (d.dropLine slot, none)
  | none =>
    let d := d.count Reg.KC_MISS.COUNT
    let r := d.keyRec slot
    if recordGood r = false ∨ d.kekGood slot = false then (d, none) else
    match keyUnwrap (d.veff (bitsOf (u r 56 2) 11 0)).key (slice r 0 40) with
    | none => (d, none)
    | some ks =>
      let k : KeyLine := { slot, ek := slice ks 0 16, ak := slice ks 16 16 }
      (d.setCache slot ((k :: set).take cacheWays), some k)

/-- KEY_RECORD_INSTALL (R159): at the boundary the staged records replace the live ones, and their lines are invalidated. A
system title that changes goes to the slot directory (R337). -/
def Dev.keyInstall (d : Dev) : Dev :=
  let d := d.pool.staged.foldl (fun (d : Dev) e =>
    let d := ({ d with pool := { d.pool with keys := SMap.put d.pool.keys e.1 e.2 } } : Dev).dropLine e.1
    { d with cas := { d.cas with dirOut := d.cas.dirOut ++ [{ title := u e.2 40 8, pos := d.pos, slot := e.1 }] } }) d
  { d with pool := { d.pool with staged := [] } }

/-- METER_KEY (R275): the counter of AUTH advances first; the record, with its seal added, is staged and placed in the tick's
journal deltas; result 0 follows the commit. -/
def Dev.meterKey (d : Dev) (ps : Pulses) : Dev :=
  match d.acceptedOp 5 with
  | none => d
  | some msg =>
        match ps with
    | .failed => ((d.vresult msg.seat 13 5 0).vaultPop).raise Stk.VAULT.NV_FAIL
    | .cut k => d.powerCut (d.counterPulses msg.auth msg.counter) k
    | .made =>

    let slot := bitsOf (u msg.payload 0 4) 19 0
    let r := sealRecord (slice msg.payload 4 60)
    let d := d.counterTo msg.auth msg.counter
    let d : Dev := { d with
      pool := { d.pool with staged := SMap.put d.pool.staged slot r }
      ldg := { d.ldg with jrn := { d.ldg.jrn with keys := SMap.put d.ldg.jrn.keys slot r } }
      vault := { d.vault with meterKeys := d.vault.meterKeys ++ [{ seat := msg.seat, slot, tick := d.time.tick }] } }
    d.vaultPop

/-! ### The cipher farm (R156, R160 to R162) -/

/-- The parts of an inbound APDU (R156): unciphered; ciphered, with its system title if it carries one; or a form that the
device refuses. -/
inductive SecForm where
  | plain
  | ciphered (title : Option Bytes) (sc ic : Nat) (text tag : Bytes)
  | refused
  deriving DecidableEq, Repr

/-- The length field of IEC 62056-5-3 at an offset: the length and the offset after it. -/
def berLen (b : Bytes) (i : Nat) : Option (Nat × Nat) :=
  if b.length ≤ i then none else
  let n := u b i 1
  if n < 128 then some (n, i + 1) else
  let k := n - 128
  if k = 0 ∨ 4 < k ∨ b.length < i + 1 + k then none else some (ofBe (slice b (i + 1) k), i + 1 + k)

/-- Split the content of a ciphered APDU at an offset. -/
def secContent (b : Bytes) (i : Nat) (title : Option Bytes) : SecForm :=
  match berLen b i with
  | none => .refused
  | some (n, i) =>
    if n < 17 ∨ i + n ≠ b.length then .refused
    else .ciphered title (u b i 1) (ofBe (slice b (i + 1) 4)) (slice b (i + 5) (n - 17)) (slice b (i + n - 12) 12)

/-- The tags of the glo-ciphered service-specific APDUs: initiate, read, write, confirmed-service-error, unconfirmed-write and
information-report, then get, set, event notification and action. -/
def gloTags : List Nat :=
  [0x21, 0x25, 0x26, 0x28, 0x2C, 0x2D, 0x2E, 0x36, 0x38, 0xC8, 0xC9, 0xCA, 0xCB, 0xCC, 0xCD, 0xCF]

/-- The tags of ciphered and signed forms that the device does not support: ded-ciphered APDUs, general-ded-ciphering,
general-ciphering and general-signing. -/
def otherSecTags : List Nat :=
  [0x41, 0x45, 0x46, 0x48, 0x4C, 0x4D, 0x4E, 0x56, 0x58, 0xD0, 0xD1, 0xD2, 0xD3, 0xD4, 0xD5, 0xD7, 0xDC, 0xDD, 0xDF]

/-- The form of an inbound APDU. -/
def secForm (b : Bytes) : SecForm :=
  let t := u b 0 1
  if t = 0xDB then
    match berLen b 1 with
    | some (8, i) => secContent b (i + 8) (some (slice b i 8))
    | _ => .refused
  else if gloTags.contains t then secContent b 1 none
  else if otherSecTags.contains t then .refused
  else .plain

/-- Does the security control byte meet R156: suite 0, authentication 1, key set 0, compression 0? -/
def scOk (sc : Nat) : Bool := sc % 16 == 0 && bitOf sc 4 && !bitOf sc 6 && !bitOf sc 7

/-- R161: what the replay unit makes of an invocation counter: new IC_RX and WIN, or a replay. -/
def replayCheck (icRx win ic : Nat) : Option (Nat × Nat) :=
  if icRx < ic then
    let dd := ic - icRx
    some (ic, if 16 < dd then 0 else (win * 2 ^ dd + 2 ^ (dd - 1)) % 65536)
  else if ic < icRx ∧ icRx - ic ≤ 16 ∧ bitOf win (icRx - 1 - ic) = false then some (icRx, win + 2 ^ (icRx - 1 - ic))
  else none

/-- The seat whose counters an APDU is charged to: the owner of its slot, else the home seat of its port (R174). -/
def Dev.apduSeat (d : Dev) (a : Apdu) (slot : Option Nat) : Nat :=
  (slot.bind d.cfg.seatOfSlot).getD (d.cfg.homeSeat a.port)

/-- Discard an APDU: its buffers are freed. -/
def Dev.dropApdu (d : Dev) (a : Apdu) (seat : Nat) (F : Fld) : Dev := (d.freeFrames a.frames).bump F 1 seat

/-- An APDU passes to the decoder with its plaintext seal (R155). -/
def Dev.toDecoder (d : Dev) (a : Apdu) (slot seat : Nat) (bytes : Bytes) : Dev :=
  let p : Plain := { slot, seat, port := a.port, bytes, chk := sealOf bytes, frames := a.frames }
  { d with pool := { d.pool with plains := d.pool.plains ++ [p] } }

/-- The tag check of a ciphered APDU: its plaintext (R156). Without encryption the text is authenticated only. -/
def decryptApdu (k : KeyLine) (title : Bytes) (sc ic : Nat) (text tag : Bytes) : Option Bytes :=
  let iv := title ++ beBytes 4 ic
  let aad := leBytes 1 sc ++ k.ak
  if bitOf sc 5 then gcmOpen k.ek iv aad text tag
  else (gcmOpen k.ek iv (aad ++ text) [] tag).map fun _ => text

/-- The tag check and the replay check of a ciphered APDU; APDU_OK counts those that the replay unit accepts (R161, R174). -/
def Dev.decryptFor (d : Dev) (k : KeyLine) (a : Apdu) (slot seat sc ic : Nat) (text tag : Bytes) : Dev :=
  let r := d.keyRec slot
  match decryptApdu k (slice r 40 8) sc ic text tag with
  | none => d.dropApdu a seat Reg.ING_SEAT_CNT_2.AUTH
  | some pt =>
    match replayCheck (u r 48 4) (u r 58 2) ic with
    | none => d.dropApdu a seat Reg.ING_SEAT_CNT_2.REPLAY
    | some (rx, win) =>
      let r' := sealRecord (slice r 0 48 ++ leBytes 4 rx ++ slice r 52 6 ++ leBytes 2 win)
      ((d.putKeyRec slot r').toDecoder a slot seat pt).count Reg.ING_SEAT_CNT_0.APDU_OK 1 seat

/-- Policy of a key record (R157). -/
def policyOf (r : Bytes) : Nat := bitsOf (u r 56 2) 13 12

/-- The address of an APDU has been heard on a port. -/
def Dev.heardOn (d : Dev) (key port : Nat) : Dev :=
  match SMap.find d.pool.adir key with
  | some e => { d with pool := { d.pool with adir := SMap.put d.pool.adir key { e with port := some port } } }
  | none => d

/-- An APDU that its slot's policy bars is discarded (R156, R157). -/
def Dev.policyDrop (d : Dev) (a : Apdu) (seat : Nat) : Dev := d.dropApdu a seat Reg.ING_SEAT_CNT_3.POLICY

/-- An APDU whose slot has no usable key record is discarded (R158). -/
def Dev.keyDrop (d : Dev) (a : Apdu) (seat : Nat) : Dev :=
  (d.dropApdu a seat Reg.ING_SEAT_CNT_4.KEY).raise Stk.ING.KEY_BAD

/-- A ciphered APDU of a slot: its key record comes from the cache or is fetched; one with a bad seal says nothing, then the
policy decides, then the keys (R156 to R158). -/
def Dev.decryptCiphered (d : Dev) (a : Apdu) (slot seat : Nat) (title : Option Bytes) (sc ic : Nat) (text tag : Bytes) : Dev :=
  let r := d.keyRec slot
  let pol := policyOf r
  let known := d.cached slot || recordGood r
  match d.slotKeys slot with
  | (d, k) =>
    if !known then d.keyDrop a seat
    else if pol = 3 ∨ (pol = 2 ∧ bitOf sc 5 = false) ∨ (title.getD (slice r 40 8) ≠ slice r 40 8) then d.policyDrop a seat
    else match k with
      | none => d.keyDrop a seat
      | some k => d.decryptFor k a slot seat sc ic text tag

/-- The checks of an APDU whose slot is known. DEDUCED (log entry 232): an unciphered one needs no keys, so it neither reads nor
fills the key cache; the seal of its slot's record is checked. -/
def Dev.decryptSlot (d : Dev) (a : Apdu) (slot : Nat) : Dev :=
  let seat := d.apduSeat a (some slot)
  let r := d.keyRec slot
  match secForm a.bytes with
  | .refused => d.policyDrop a seat
  | .plain =>
    if !recordGood r then d.keyDrop a seat
    else if policyOf r ≠ 0 then d.policyDrop a seat
    else d.toDecoder a slot seat a.bytes
  | .ciphered title sc ic text tag =>
    if !scOk sc then d.policyDrop a seat else d.decryptCiphered a slot seat title sc ic text tag

/-- An APDU's slot is found from its link source address (R156), and the APDU is checked. -/
def Dev.decryptOne (d : Dev) (a : Apdu) : Dev :=
  match SMap.find d.pool.adir a.src with
  | none => d.policyDrop a (d.apduSeat a none)
  | some e =>
    if (d.cfg.seatOfSlot e.slot).isNone then d.policyDrop a (d.apduSeat a none)
    else (d.heardOn a.src a.port).decryptSlot a e.slot

/-- The number of an APDU's first buffer. -/
def Apdu.buf (a : Apdu) : Nat := ((a.frames.head?).bind (·.bufs.head?)).getD 0

/-- Put an APDU into a list in order of its buffer, behind those of the same number. -/
def insertApdu (a : Apdu) : List Apdu → List Apdu
  | [] => [a]
  | b :: bs => if a.buf < b.buf then a :: b :: bs else b :: insertApdu a bs

/-- APDUs in order of their buffers. -/
def byBuffer (l : List Apdu) : List Apdu := l.foldl (fun m a => insertApdu a m) []

/-- CIPHER_DECRYPT (R156 to R158, R161, R162): the APDUs at the indices `is`, whose tag checks complete in one cycle, are looked
up, checked, decrypted and verified, the lower-numbered buffer first. -/
def Dev.cipherDecrypt (d : Dev) (is : List Nat) : Dev :=
  let due := is.eraseDups.filterMap fun i => d.pool.apdus[i]?
  let left := (d.pool.apdus.zipIdx.filter fun e => !is.contains e.2).map (·.1)
  (byBuffer due).foldl Dev.decryptOne { d with pool := { d.pool with apdus := left } }

/-- Take the next IC_TX of a slot (R160). -/
def Dev.takeIc (d : Dev) (slot : Nat) : Dev × Option Nat :=
  let r := d.keyRec slot
  let ic := u r 52 4
  if ic = 0xFFFFFFFF then
    ((d.bump Reg.ING_SEAT_CNT_4.KEY 1 (d.owner slot)).raise Stk.ING.KEY_EXH, none)
  else (d.putKeyRec slot (sealRecord (slice r 0 52 ++ leBytes 4 (ic + 1) ++ slice r 56 4)), some ic)

/-- Encrypt an outbound APDU for a slot as general-glo-ciphering under suite 0 (R160); `sys` is the device's system title. -/
def Dev.cipherTo (d : Dev) (slot : Nat) (sys pt : Bytes) : Dev × Option Bytes :=
  match d.slotKeys slot with
  | (d, none) => ((d.bump Reg.ING_SEAT_CNT_4.KEY 1 (d.owner slot)).raise Stk.ING.KEY_BAD, none)
  | (d, some k) =>
    match d.takeIc slot with
    | (d, none) => (d, none)
    | (d, some ic) =>
      let c := gcmSeal k.ek (sys ++ beBytes 4 ic) ([0x30] ++ k.ak) pt 12
      let body := [0x30] ++ beBytes 4 ic ++ c.1 ++ c.2
      let len := if body.length < 128 then [BitVec.ofNat 8 body.length] else [0x82] ++ beBytes 2 body.length
      (d, some ([0xDB, 8] ++ sys ++ len ++ body))

/-- The short address under which a port's neighbour table holds a slot's meter. -/
def Dev.shortOf (d : Dev) (slot port : Nat) : Option Nat :=
  ((d.campAddr slot).bind fun a => d.neighOf (a.1 % 2 ^ 64)).bind fun n => if n.1 = port then some n.2 else none

/-- A frame for a slot goes out on a port: on RADIO it waits in the indirect queue of its neighbour until it is polled (R134); one
for no neighbour of the port is lost. -/
def Dev.sendTo (d : Dev) (slot port : Nat) (bs : Bytes) : Dev :=
  if d.mode port != Canvas.mRADIO then d.portSend port bs else
  match d.shortOf slot port with
  | some dst => (d.indirectPut port dst bs .other).1
  | none => d

/-- CIPHER_ENCRYPT (R160): an outbound APDU of a slot goes out on a port, or is refused. -/
def Dev.cipherEncrypt (d : Dev) (slot port : Nat) (sys pt : Bytes) : Dev :=
  match d.cipherTo slot sys pt with
  | (d, some bs) => d.sendTo slot port bs
  | (d, none) => d

/-- The EAP-PSK pre-shared key of a G3-PLC meter (R160). -/
def eapPsk (ak : Bytes) : Bytes := (hmac ak (ascii "HZ-EAP-PSK")).take 16

/-- The pre-shared key of the meter with an EUI-64 that bootstraps on a G3-PLC port, if the directory names its slot and the
slot's keys are usable. -/
def Dev.joinPsk (d : Dev) (p eui : Nat) : Dev × Option Bytes :=
  if d.cfg.plcStd p != 0 then (d, none) else
  match SMap.find d.pool.adir (adirKey 1 eui) with
  | none => (d, none)
  | some e =>
    match d.slotKeys e.slot with
    | (d, some k) => (d, some (eapPsk k.ak))
    | (d, none) => (d, none)

/-- PLC_JOIN_REQUEST (R117, R160, R167): the joining request of the meter `eui` is answered, within JOIN_RATE and outside a pool
hold, by the side that drives pair B (R112), or deferred. -/
def Dev.plcJoinRequest (d : Dev) (p eui : Nat) : Dev :=
  if !d.isPlc p || !d.granted then d
  else if d.joinDeferred p then d.bump Reg.PLC_JOIN.DEFERRED 1 p
  else
    let r := d.joinPsk p eui
    ((r.1.bump Reg.PLC_JOIN.ANSWERED 1 p).onPlc p fun s => { s with joins := d.recentJoins p ++ [d.time.tick] }).emit
      (.joinAnswer p eui r.2)

/-! ### Decoding (R164, R165) -/

/-- Uses of free values in decoding: the MTIME of an entry without a usable date-time, the IDX of an interval record without a
period, and a value or scaler that the record's field cannot hold. -/
def useMtime : Nat := 10
def useIdx : Nat := 11
def useValue : Nat := 12
def useScaler : Nat := 13

/-- Is a date-time wholly specified (R164)? -/
def timeSpecified (t : Bytes) : Bool :=
  ofBe (slice t 0 2) != 0xFFFF && ((slice t 2 7).all fun b => b != 0xFF) && ofBe (slice t 9 2) != 0x8000

/-- UTC seconds of a date-time, with its deviation, local time less UTC in minutes, applied. -/
def utcOfDateTime (t : Bytes) : Option Nat :=
  let y := ofBe (slice t 0 2)
  let m := u t 2 1
  let dd := u t 3 1
  let h := u t 5 1
  let mi := u t 6 1
  let s := u t 7 1
  let dev := sgn 16 (ofBe (slice t 9 2))
  if y = 0xFFFF ∨ m < 1 ∨ 12 < m ∨ dd < 1 ∨ 31 < dd ∨ 23 < h ∨ 59 < mi ∨ 59 < s ∨ dev = -32768 then none else
  let x := daysOf y m dd * 86400 + 3600 * h + 60 * mi + s - 60 * dev
  if x < 0 ∨ (2 ^ 40 : Int) ≤ x then none else some x.toNat

/-- The classes that a KIND is decoded from (R164); an event notification may name any object. -/
def kindOk (k cls : Nat) : Bool :=
  match k with
  | 0 => cls == 7
  | 1 => cls == 3 || cls == 4
  | 2 => cls == 5
  | 3 => true
  | 4 => cls == 3
  | 5 => cls == 1
  | _ => false

/-- The nearest integer to `1000 * num / den`; which way a tie goes is left open. -/
def times1000 (num : Int) (den : Nat) : Int :=
  let n := 1000 * num
  let q := Int.fdiv n den
  let rem := 2 * (n - q * den)
  if rem < den then q else if (den : Int) < rem then q + 1 else if Config.tie n den then q + 1 else q

/-- A number `m * 2 ^ e`, negative where `s` says so. -/
def binFloat (s : Bool) (m : Nat) (e : Int) : MeterValue :=
  let v : Int := if s then -(m : Int) else m
  if 0 ≤ e then .float (v * 2 ^ e.toNat) 1 else .float v (2 ^ (-e).toNat)

/-- The number of an IEEE 754 pattern with `eb` exponent bits and `mb` fraction bits. -/
def ieeeValue (eb mb w : Nat) : MeterValue :=
  let s := bitOf w (eb + mb)
  let e := w / 2 ^ mb % 2 ^ eb
  let m := w % 2 ^ mb
  let bias : Int := 2 ^ (eb - 1) - 1 + mb
  if e = 2 ^ eb - 1 then .nan
  else if e = 0 then binFloat s m (1 - bias)
  else binFloat s (2 ^ mb + m) (e - bias)

/-- The value of the COSEM data that begin at an offset: a tag and, for a number, its bytes, the highest first (IEC 62056-5-3). -/
def axdrValue (b : Bytes) (i : Nat) : MeterValue :=
  let n := fun (k : Nat) => ofBe (slice b (i + 1) k)
  match u b i 1 with
  | 3 => .int (n 1)
  | 5 => .int (sgn 32 (n 4))
  | 6 => .int (n 4)
  | 13 => .int (10 * (n 1 / 16) + n 1 % 16)
  | 15 => .int (sgn 8 (n 1))
  | 16 => .int (sgn 16 (n 2))
  | 17 => .int (n 1)
  | 18 => .int (n 2)
  | 20 => .int (sgn 64 (n 8))
  | 21 => .int (n 8)
  | 22 => .int (n 1)
  | 23 => ieeeValue 8 23 (n 4)
  | 24 => ieeeValue 11 52 (n 8)
  | _ => .other

/-- VALUE, SCALER and FLOAT of an item. A value outside 64 bits, or that is no number, and a scaler outside 8 bits are stated
nowhere: each is a free value. -/
def Dev.itemValue (d : Dev) (v : MeterValue) (sc : Int) : Nat × Nat × Bool :=
  let scaler := fun (s : Int) => if -128 ≤ s ∧ s ≤ 127 then wrapI 8 s else d.fresh useScaler 256
  match v with
  | .int i => (wrapI 64 i, scaler sc, false)
  | .float num den =>
    let x := times1000 num (max 1 den)
    (if -(2 ^ 63 : Int) ≤ x ∧ x < (2 ^ 63 : Int) then wrapI 64 x else d.fresh useValue (2 ^ 64), scaler (sc - 3), true)
  | .nan => (d.fresh useValue (2 ^ 64), scaler (sc - 3), true)
  | .other => (d.fresh useValue (2 ^ 64), scaler sc, false)

/-- The canonical record of an item (R164), its value and date-time read from the plaintext; `none` for content that is not
decoded. -/
def Dev.record40 (d : Dev) (p : Plain) (push : Bool) (it : DlmsItem) : Option Bytes :=
  match it with
  | .other => none
  | .content k cls obis attr sc unit status vAt tAt event period =>
    if kindOk k cls = false then none else
    let time := tAt.map fun i => slice p.bytes i 12
    let secs := time.bind utcOfDateTime
    let t := secs.getD (d.fresh useMtime (2 ^ 40))
    let clock := (time.map fun t => u t 11 1).getD (d.fresh useMtime 256)
    let spec := (time.map timeSpecified).getD false
    let inv := secs.isNone || !spec || bitOf clock 0 || bitOf clock 1
    let (value, scaler, float) := d.itemValue (axdrValue p.bytes vAt) sc
    let idx := if k = 0 then (if period = 0 then d.fresh useIdx (2 ^ 32) else t / (60 * period)) else if k = 3 then event % 65536 else 0
    some (leBytes 4 (p.slot % 2 ^ 20 + 2 ^ 20 * k) ++ leBytes 2 cls ++ slice obis 0 6 ++ leBytes 1 attr ++ leBytes 1 scaler ++
      leBytes 1 unit ++ leBytes 1 status ++ leBytes 8 value ++ leBytes 5 t ++ leBytes 1 clock ++ [0, 0] ++ leBytes 4 idx ++
      leBytes 2 (if k = 0 then period else 0) ++
      leBytes 1 (b2n inv + 2 * b2n (!d.on Reg.TIME_STAT.VALID) + 4 * b2n float + 8 * b2n push) ++ leBytes 1 p.port)

/-- The records of an APDU's items, with the free values they take counted, and the items that were skipped. -/
def Dev.decodeItems (d : Dev) (p : Plain) (push : Bool) (its : List DlmsItem) : Dev × List Bytes × Nat :=
  its.foldl (fun (a : Dev × List Bytes × Nat) it =>
    match a.1.record40 p push it with
    | some r => (a.1.took, a.2.1 ++ [r], a.2.2)
    | none => (a.1, a.2.1, a.2.2 + 1)) (d, [], 0)

/-! ### Admission (R15, R61, R62, R166, R343) -/

/-- The sequence number at which a seat's admission sequence is exhausted (R15). -/
def aseqEnd : Nat := 2 ^ 48 - 1

/-- ADMIT_RECORD (R15): a record receives its tick, seat and sequence number and enters its engine's input queue; a standby
admits it in shadow (R343). -/
def Dev.admitRecord (d : Dev) (slot seat : Nat) (rec40 : Bytes) : Dev :=
  let chk := sealOf rec40
  let d := d.count Reg.ING_SEAT_CNT_1.RECORDS 1 seat
  if !d.isActive then
    let s : ShadowRec := { seat, slot, bytes := rec40, chk, tick := d.time.tick }
    { d with cas := { d.cas with shadow := d.cas.shadow ++ [s] } }
  else
    let s := d.seat seat
    let q : QItem :=
      { work := .record rec40 chk, slot, seat, opening := s.opening, aseq := s.nextAseq, atick := d.time.tick }
    ((d.onSeat seat fun s => { s with nextAseq := s.nextAseq + 1 }).onEng (d.engOf slot) fun e =>
      { e with inq := e.inq ++ [q] }).seqCheck seat

/-- Admit an order in a seat's sequence (R193, R212, R242). -/
def Dev.admitOrder (d : Dev) (slot seat : Nat) (w : Work) : Dev :=
  let s := d.seat seat
  let q : QItem := { work := w, slot, seat, opening := s.opening, aseq := s.nextAseq, atick := d.time.tick }
  ((d.onSeat seat fun s => { s with nextAseq := s.nextAseq + 1 }).onEng (d.engOf slot) fun e =>
    { e with inq := e.inq ++ [q] }).seqCheck seat

/-- Is admission for a slot's engine stopped (R62)? A standby admits in shadow only. -/
def Dev.admitStopped (d : Dev) (slot : Nat) : Bool := d.isActive && (d.eng (d.engOf slot)).stopped

/-- Does a slot have a parked APDU (R166)? -/
def Dev.slotParked (d : Dev) (slot : Nat) : Bool := d.pool.parked.any fun k => k.plain.slot == slot

/-- PARKED (R166). -/
def Dev.parkedReg (d : Dev) : Dev := d.wr Reg.ING_STAT.PARKED (d.pool.parked.filter fun k => !k.stalled).length

/-- Decoder lanes that a stalled APDU keeps busy. -/
def Dev.stalledLanes (d : Dev) : Nat := (d.pool.parked.filter (·.stalled)).length

/-- APDU_PARK (R166): up to 64 APDUs park; beyond that their lanes stall. -/
def Dev.park (d : Dev) (p : Plain) (recs : List Bytes) : Dev :=
  let full := decide (64 ≤ (d.pool.parked.filter fun k => !k.stalled).length)
  let k : Parked := { plain := p, recs, stalled := full }
  let d := ({ d with pool := { d.pool with parked := d.pool.parked ++ [k] } } : Dev).parkedReg
  if full then d.raise Stk.ING.PARK_FULL else d

/-- Admit records one after another; the buffers are freed after the last (R151). -/
def Dev.admitAll (d : Dev) (p : Plain) (recs : List Bytes) : Dev :=
  (recs.foldl (fun d r => d.admitRecord p.slot p.seat r) d).freeFrames p.frames

/-- Discard a plaintext for a seal mismatch (R155). -/
def Dev.sealDrop (d : Dev) (p : Plain) (S : Sticky) : Dev :=
  ((d.freeFrames p.frames).bump Reg.ING_SEAT_CNT_3.SEAL 1 p.seat).raise S

/-- The decoder's checks of R155: a frame seal over the bytes of each frame as the cipher farm read them, then the plaintext
seal over the bytes `asRead`. -/
def sealFault (p : Plain) (asRead : Bytes) : Option Sticky :=
  if p.poisoned || (p.frames.any fun f => sealOf f.bytes != f.chk) then some Stk.ING.FRAME_SEAL
  else if sealOf asRead ≠ p.chk then some Stk.ING.PT_SEAL
  else none

/-- DECODE_APDU (R155, R164 to R166): a lane takes the next APDU that no earlier APDU of its slot holds back, checks its
seals, and decodes and admits its items. `asRead` gives the plaintext where it differs from what was written. -/
def Dev.decodeApdu (d : Dev) (its : List DlmsItem) (push : Bool) (asRead : Option Bytes) : Dev :=
  if 8 ≤ d.stalledLanes then d else
  match d.pool.plains.find? fun p => !(d.pool.parked.any fun k => k.stalled && k.plain.slot == p.slot) with
  | none => d
  | some p =>
    let d := { d with pool := { d.pool with plains := d.pool.plains.erase p } }
    match sealFault p (asRead.getD p.bytes) with
    | some S => d.sealDrop p S
    | none =>
      let r := d.decodeItems p push its
      let d := r.1.bump Reg.ING_SEAT_CNT_5.SKIPPED r.2.2 p.seat
      if 2048 < r.2.1.length then
        ((d.freeFrames p.frames).bump Reg.ING_SEAT_CNT_5.SKIPPED 1 p.seat).raise Stk.ING.TOO_MANY
      else if d.admitStopped p.slot || d.slotParked p.slot then d.park p r.2.1
      else d.admitAll p r.2.1

/-- APDU_UNPARK (R166): admission for engine `e` runs again and its parked APDUs go on, oldest first. -/
def Dev.apduUnpark (d : Dev) (e : Nat) : Dev :=
  if (d.eng e).stopped then d else
  let mine := d.pool.parked.filter fun k => d.engOf k.plain.slot == e
  let d := { d with pool := { d.pool with parked := d.pool.parked.filter fun k => d.engOf k.plain.slot != e } }
  (mine.foldl (fun d k => d.admitAll k.plain k.recs) d).parkedReg

end Sys2Proof.Machine
end

