-- ==== Sys2Proof/Machine/Uplink.lean ====
section
/-!
DEFINITION. The uplink stream of a seat: packing staged records into datagrams and ring 0, fence markers, acknowledgement
and retransmission, the host rings, and PTP timestamps (R31, R78, R170 to R173, R287, R290).
-/

namespace Sys2Proof.Machine

/-! ### Datagrams and PTP event messages in frames (R78) -/

/-- A UDP datagram: addresses as 16 bytes (IPv4 as IPv4-mapped), ports and payload. -/
structure Udp where
  src : Bytes
  dst : Bytes
  sport : Nat
  dport : Nat
  payload : Bytes
  v4 : Bool
  deriving DecidableEq, Repr

/-- A UDP header and payload behind an IP header. -/
def udpIn (v4 : Bool) (src dst seg : Bytes) : Option Udp :=
  if seg.length < 8 then none else
  some { src, dst, sport := ofBe (slice seg 0 2), dport := ofBe (slice seg 2 2), v4
         payload := (seg.take (ofBe (slice seg 4 2))).drop 8 }

/-- An IPv4 address as IPv4-mapped. -/
def mapped4 (b : Bytes) : Bytes := zeros 10 ++ [0xFF, 0xFF] ++ b

/-- The UDP datagram of an unfragmented IP packet of an EtherType. -/
def udpOf (ety : Nat) (p : Bytes) : Option Udp :=
  if ety = 0x0800 then
    if u p 0 1 / 16 = 4 ∧ u p 9 1 = 17 ∧ ofBe (slice p 6 2) % 0x4000 = 0 then
      udpIn true (mapped4 (slice p 12 4)) (mapped4 (slice p 16 4)) (p.drop (4 * (u p 0 1 % 16)))
    else none
  else if ety = 0x86DD then
    if u p 0 1 / 16 = 6 ∧ u p 6 1 = 17 then udpIn false (slice p 8 16) (slice p 24 16) (p.drop 40) else none
  else none

/-- The PTP event message of an untagged frame: Sync, Delay_Req, Pdelay_Req or Pdelay_Resp over Ethernet or over UDP and IPv4
(R78). -/
def ptpEvent (b : Bytes) : Option Bytes :=
  let m := if ofBe (slice b 12 2) = 0x88F7 then some (b.drop 14) else
    ((udpOf (ofBe (slice b 12 2)) (b.drop 14)).filter fun x => x.v4 && (x.dport == 319 || x.dport == 320)).map (·.payload)
  m.filter fun p => !p.isEmpty && decide (u p 0 1 % 16 ≤ 3)

/-- Is an untagged frame a PTP event message (R78)? -/
def isPtpEvent (b : Bytes) : Bool := (ptpEvent b).isSome

/-- The sequenceId of a PTP message (IEEE 1588). -/
def ptpSeq (m : Bytes) : Nat := ofBe (slice m 30 2)

/-! ### Rings (R290) -/

/-- Field of ring `r` from that of ring 0. -/
def ringF (F : Fld) (r : Nat) : Fld := { F with off := F.off + 16 * r }

/-- Bytes of ring `r` of a seat. -/
def Dev.ringSize (d : Dev) (n r : Nat) : Nat := 4096 * (d.rd (ringF Reg.SEAT_RING_BASE_LO_0.PAGES r) n + 1)

/-- The device's and the host's pointer of ring `r`. -/
def Dev.ringDev (d : Dev) (n r : Nat) : Nat := d.rd (ringF Reg.SEAT_RING_DEV_0.PTR r) n
def Dev.ringHost (d : Dev) (n r : Nat) : Nat := d.rd (ringF Reg.SEAT_RING_HOST_0.PTR r) n

/-- Put an item into ring `r` as its producer: an item never wraps, and a ring is full when the item would bring the producer
pointer to or past the consumer pointer. -/
def Dev.ringPut (d : Dev) (n r : Nat) (bs : Bytes) : Option Dev :=
  let size := d.ringSize n r
  let at0 := d.ringDev n r
  let used := (at0 + size - d.ringHost n r % size) % size
  let skip := if size - at0 < bs.length then size - at0 else 0
  if size ≤ used + skip + bs.length then none else
  let d := if 0 < skip then d.emit (.ring n r at0 [0]) else d
  let start := if 0 < skip then 0 else at0
  let d := (d.emit (.ring n r start bs)).wr (ringF Reg.SEAT_RING_DEV_0.PTR r) ((start + bs.length) % size) n
  some (d.onSeat n fun s => { s with ringAdded := if s.ringAdded.contains r then s.ringAdded else s.ringAdded ++ [r] })

/-- RING_NOTICE (R290): in a tick that added to ring 0 or ring 2 the device rings bit 31 or bit 30. -/
def Dev.ringNotice (d : Dev) (n : Nat) : Dev :=
  let l := (d.seat n).ringAdded
  let d := d.onSeat n fun s => { s with ringAdded := [] }
  let d := if l.contains 0 then d.ringSeat n 31 else d
  if l.contains 2 then d.ringSeat n 30 else d

/-- The readout requests in a list of ring 1 items (R291). -/
def readoutsOf (path : Nat) (items : List Bytes) : List Readout :=
  items.map fun b => { path, sl := u b 8 4, tag := u b 12 4, apdu := slice b 16 (u b 0 4 - 8) }

/-- RING_HOST_PTR_WRITE (R290): the host advances its pointer of ring `r`; the entries of ring 1 up to it are taken. -/
def Dev.ringHostWrite (d : Dev) (n r v : Nat) (items : List Bytes) : Dev :=
  let d := d.wr (ringF Reg.SEAT_RING_HOST_0.PTR r) v n
  if r ≠ 1 then d else
  (d.onSeat n fun s => { s with readouts := s.readouts ++ readoutsOf 2 items }).wr (ringF Reg.SEAT_RING_DEV_0.PTR 1) v n

/-! ### Datagrams (R287) -/

/-- Is OWN_IP of a seat an IPv4 address, given as IPv4-mapped? -/
def Canvas.seatV4 (c : Canvas) (n : Nat) : Bool := c.seatF n 88 8 == 0 && c.seatF n 96 4 == 0xFFFF0000

/-- Payload bytes of the largest datagram of a seat: MTU less the IP and UDP headers. -/
def Canvas.seatPayload (c : Canvas) (n : Nat) : Nat := c.seatMtu n - (if c.seatV4 n then 28 else 48)

/-- The datagram being built for a seat on an uplink. -/
def Dev.dgramOf (d : Dev) (n path : Nat) : Bytes := SMap.get (fun _ => []) (d.seat n).dgram path

/-- Close the datagram of a seat on an uplink. -/
def Dev.closeDgram (d : Dev) (n path : Nat) : Dev :=
  let b := d.dgramOf n path
  if b.isEmpty then d else
  (d.emit (.datagram n path b)).onSeat n fun s => { s with dgram := SMap.set (fun _ => []) s.dgram path [] }

/-- Add a record to the datagram of a seat; the datagram closes first where the record would exceed MTU. -/
def Dev.toDgram (d : Dev) (n path : Nat) (bs : Bytes) : Dev :=
  let d := if d.cfg.seatPayload n < (d.dgramOf n path).length + bs.length then d.closeDgram n path else d
  d.onSeat n fun s => { s with dgram := SMap.upd (fun _ => []) s.dgram path (· ++ bs) }

/-! ### Sending records (R31, R170, R173, R287) -/

/-- The paths of a seat's uplink stream: uplinks 0 and 1, and PCIe as 2. -/
def Canvas.seatPaths (c : Canvas) (n : Nat) : List Nat :=
  (if c.seatVlan n then [0, 1] else []) ++ (if c.seatPcie n then [2] else [])

/-- Does an admission of a seat lie after a fence's cut: in its opening, or in a later one (R17, R31)? -/
def MarkDue.before (m : MarkDue) (opening aseq : Nat) : Bool :=
  if opening = m.opening then decide (m.cut ≤ aseq) else decide ((opening + 2 ^ 16 - m.opening) % 2 ^ 16 < 2 ^ 15)

/-- May a staged record go out on a path as far as fences go? A record from after a fence waits for that path's marker (R31). -/
def SeatSt.mayGo (s : SeatSt) (path : Nat) (r : Staged) : Bool :=
  match r.from_ with
  | none => true
  | some (o, a) => !(s.marks.any fun m => m.paths.contains path && m.before o a)

/-- Have the journal deltas of a staged record's tick been committed, and been mirrored where the position has a partner (R14)? -/
def Dev.journalled (d : Dev) (r : Staged) : Bool :=
  d.ldg.jwait.all (fun j => decide (r.tick < j.tick)) &&
    ((d.ldg.jrn.isEmpty && !d.on Reg.CAS_STAT.PARTNER_UP) || decide (r.tick < d.time.tick))

/-- The next record to send on a path. -/
def Dev.nextUp (d : Dev) (n path : Nat) : Option Staged :=
  (d.seat n).staging.find? fun r => r.path.isNone && (d.seat n).mayGo path r && d.journalled r

/-- A record has been sent on a path. -/
def SeatSt.sent (s : SeatSt) (path useq : Nat) : SeatSt :=
  let ord := SMap.get (fun _ => 0) s.ords path
  { s with
    staging := s.staging.map fun r => if r.useq == useq then { r with path := some path, ord } else r
    since := SMap.upd (fun _ => 0) s.since path fun k => (k + 1) % 2 ^ 32 }

/-- Put the bytes of a record on a path: into a datagram, or into ring 0 if it has room. -/
def Dev.onPath (d : Dev) (n path : Nat) (bs : Bytes) : Option Dev :=
  if path = 2 then d.ringPut n 0 bs else some (d.toDgram n path bs)

/-- Ring 0 of a seat was full (R290). -/
def Dev.ringFull (d : Dev) (n : Nat) : Dev := d.raiseSeat Stk.SEAT_STAT.RING_FULL n

/-- Send records of a seat on a path while `room` bytes last; `fuel` bounds the records waiting. -/
def Dev.sendUp (d : Dev) (n path : Nat) : Nat → Nat → Dev × Nat
  | _, 0 => (d, 0)
  | room, k + 1 =>
    match d.nextUp n path with
    | none => (d, 0)
    | some r =>
      if path ≠ 2 ∧ room < r.bytes.length then (d, room) else
      match d.onPath n path r.bytes with
      | none => (d.ringFull n, 0)
      | some d => Dev.sendUp (d.onSeat n fun s => s.sent path r.useq) n path (room - r.bytes.length) k

/-- Bytes that a unit of SHARE is worth in a turn of an uplink's deficit round-robin. -/
def shareBytes : Nat := 64

/-- One turn of a seat on a path (R287): on an uplink as far as its deficit reaches; a seat with MACsec sends nothing before
an SAK is installed (R286). Only the active side emits (R343). -/
def Dev.uplinkTurn (d : Dev) (n path : Nat) (sak : Bool) : Dev :=
  let s := d.seat n
  if !d.isActive || !(d.cfg.seatPaths n).contains path || d.rd Reg.SEAT_STAT.STATE n != 1
      || (path != 2 && d.cfg.seatCak n != 0 && !sak) then d else
  let df := SMap.get (fun _ => 0) s.deficit path + shareBytes * d.cfg.seatShare n
  let r := d.sendUp n path df s.staging.length
  r.1.onSeat n fun s => { s with deficit := SMap.set (fun _ => 0) s.deficit path (if path = 2 then 0 else r.2) }

/-- The device sends a PTP event message on uplink `uu`: its egress timestamp and sequenceId are held (R78). -/
def Dev.ptpEgress (d : Dev) (uu c seq : Nat) : Dev :=
  let d := d.advance c
  let ts := d.cT c - Config.ptpLatency true + sgn 16 (d.rd Reg.PTP_CORR.TX uu)
  let d := if d.on Reg.PTP_EGR_SEQ.FRESH uu then d.raise Stk.TIME.EGR_OVR else d
  ((d.wr Reg.PTP_EGR_TS.NS (wrapI 32 ts) uu).wr Reg.PTP_EGR_SEQ.SEQ seq uu).wr Reg.PTP_EGR_SEQ.FRESH 1 uu

/-- UPLINK_SEND (R78, R148, R287, R290): a seat's turn on a path, or a frame of the house firmware on an uplink, for which it takes
buffers of the pool; where those are refused it asks again. -/
def Dev.uplinkSend (d : Dev) (w : UpSend) : Dev :=
  match w with
  | .records n path sak => d.uplinkTurn n path sak
  | .house uu frame c =>
    match d.poolAsk .house 0 (bufsOf frame.length) with
    | (d, none) => d
    | (d, some bufs) =>
      let d := match ptpEvent frame with
        | some m => d.ptpEgress (uu % 2) c (ptpSeq m)
        | none => d
      (d.emit (.datagram 0 (uu % 2) frame)).poolGive 0 bufs

/-! ### Fence markers (R31, R172) -/

/-- The FENCE body (R172). -/
def fenceBody (tag path count prev : Nat) (first : Bool) : Bytes :=
  leBytes 2 tag ++ leBytes 1 path ++ leBytes 1 (b2n first) ++ leBytes 4 count ++ leBytes 2 (if first then 0 else prev) ++ zeros 6

/-- Is every staged record from before a fence sent, those of earlier openings among them (R17, R31)? -/
def SeatSt.allSent (s : SeatSt) (m : MarkDue) : Bool :=
  !(s.staging.any fun r => r.path.isNone && (match r.from_ with
    | none => false
    | some (o, a) => !m.before o a))

/-- The last four markers of each path are kept (R173). -/
def keepFour (l : List Marker) (path : Nat) : List Marker :=
  let mine := l.filter (·.path == path)
  let drop := (mine.take (mine.length - 4)).map (·.ord)
  l.filter fun m => !(m.path == path && drop.contains m.ord)

/-- The marker has been sent on a path. -/
def SeatSt.marked (s : SeatSt) (path tag count : Nat) (bs : Bytes) : SeatSt :=
  let ord := SMap.get (fun _ => 0) s.ords path
  { s with
    useq := s.useq + 1
    markers := keepFour (s.markers ++ [{ tag, path, count, ord, bytes := bs }]) path
    since := SMap.set (fun _ => 0) s.since path 0
    ords := SMap.set (fun _ => 0) s.ords path (ord + 1)
    lastTag := SMap.set (fun _ => 0) s.lastTag path tag }

/-- A path has its marker. -/
def dropPath (path : Nat) (m : MarkDue) (l : List MarkDue) : List MarkDue :=
  (l.map fun x => if x == m then { x with paths := x.paths.filter (· != path) } else x).filter fun x => !x.paths.isEmpty

/-- UPLINK_FENCE_MARKER (R31, R172): once every record from before the fence has been sent, its marker goes out on a path. -/
def Dev.fenceMarker (d : Dev) (n path : Nat) : Dev :=
  let s := d.seat n
  match s.marks.find? fun m => m.paths.contains path with
  | none => d
  | some m =>
    if !d.isActive || !s.allSent m then d else
    let count := SMap.get (fun _ => 0) s.since path
    let first := SMap.get (fun _ => 0) s.ords path == 0
    let body := fenceBody m.tag path count (SMap.get (fun _ => 0) s.lastTag path) first
    let bs := d.upHeader upFENCE 0 16 n s.useq m.tick ++ body
    match d.onPath n path bs with
    | none => d.ringFull n
    | some d => d.onSeat n fun s => { s.marked path m.tag count bs with marks := dropPath path m s.marks }

/-! ### Acknowledgement and retransmission (R173) -/

/-- The oldest kept marker of a path with a tag. -/
def SeatSt.marker (s : SeatSt) (tag path : Nat) : Option Marker := s.markers.find? fun m => m.tag == tag && m.path == path

/-- UPL_ACK (R173): everything up to and including the marker on that path is freed. -/
def Dev.uplAck (d : Dev) (n tag path : Nat) : Dev :=
  match (d.seat n).marker tag path with
  | none => d
  | some m => d.onSeat n fun s =>
    { s with
      staging := s.staging.filter fun r => !(r.path == some path && decide (r.ord ≤ m.ord))
      markers := s.markers.filter fun x => !(x.path == path && decide (x.ord ≤ m.ord)) }

/-- UPL_RETX (R173): a span starts to be resent with RESENT; a tag not kept sets NOTAG. -/
def Dev.uplRetx (d : Dev) (n tag path : Nat) : Dev :=
  if d.on Reg.UPL_STAT.RETX_BUSY 0 n || path == 3 then d else
  match (d.seat n).marker tag path with
  | none => d.raiseCopy Stk.UPL_STAT.NOTAG n
  | some m =>
    let span := (d.seat n).staging.filter fun r => r.path == some path && r.ord == m.ord
    let d := if span.length < m.count then d.raiseCopy Stk.UPL_STAT.PARTIAL n else d
    (d.wr Reg.UPL_STAT.RETX_BUSY 1 0 n).onSeat n fun s =>
      { s with retx := some { tag, path, span := span.map (fun r => setResent r.bytes) ++ [setResent m.bytes] } }

/-- Put records on a path one after another; the records that found no room are left. -/
def Dev.putAll (d : Dev) (n path : Nat) : List Bytes → Dev × List Bytes
  | [] => (d, [])
  | b :: bs =>
    match d.onPath n path b with
    | none => (d.ringFull n, b :: bs)
    | some d => d.putAll n path bs

/-- UPL_RETX_DONE (R173): the span goes out and ends with its marker; RETX_BUSY clears. -/
def Dev.uplRetxDone (d : Dev) (n : Nat) : Dev :=
  match (d.seat n).retx with
  | none => d
  | some r =>
    let q := d.putAll n r.path r.span
    if q.2.isEmpty then (q.1.wr Reg.UPL_STAT.RETX_BUSY 0 0 n).onSeat n fun s => { s with retx := none }
    else q.1.onSeat n fun s => { s with retx := some { r with span := q.2 } }

end Sys2Proof.Machine
end

