-- ==== Sys2Proof/Machine/Links.lean ====
section
/-!
DEFINITION. The links of a cascade: the deal rings, the frame header, the choice of a link, and sending on
deal links and the partner link (R326 to R331).
-/

namespace Sys2Proof.Machine

/-! ### The rings (R326, R328) -/

/-- The far position of deal link `k` (R326). -/
def Dev.farOf (d : Dev) (k : Nat) : Nat :=
  let n := max 1 d.cfg.npos
  let s := d.cfg.chord
  match k with
  | 0 => (d.pos + 1) % n
  | 1 => (d.pos + n - 1) % n
  | 2 => (d.pos + s) % n
  | _ => (d.pos + n - s % n) % n

/-- Does a lower link reach the same position, so that link `k` stays idle (R326)? -/
def Dev.linkIdle (d : Dev) (k : Nat) : Bool := (List.range k).any fun j => d.farOf j == d.farOf k

/-- Is deal link `k` up? -/
def Dev.linkUp (d : Dev) (k : Nat) : Bool := bitOf (d.rd Reg.CAS_STAT.LINKS) k

/-- The deal links that are up. -/
def Dev.upLinks (d : Dev) : List Nat := (List.range 4).filter d.linkUp

/-- The distance of two positions on a ring of `n` (R328). -/
def ringDist (n p q : Nat) : Nat := let a := max p q - min p q; min a (n - a)

/-- The up link whose far position lies nearest to `dst`, the lower of equal ones (R328). -/
def Dev.linkTo (d : Dev) (dst : Nat) : Option Nat :=
  d.upLinks.foldl (fun a k => match a with
    | some j => if ringDist d.cfg.npos (d.farOf k) dst < ringDist d.cfg.npos (d.farOf j) dst then some k else a
    | none => some k) none

/-! ### Frames (R330, R331) -/

def tyHELLO : Nat := 0x01
def tySYNC : Nat := 0x02
def tyDIR : Nat := 0x03
/-- PARTIAL and RESULT share a type; their lengths tell them apart. -/
def tyPARTIAL : Nat := 0x04
def tyCHECK : Nat := 0x05
def tyHEALTH : Nat := 0x06
def tyMGMT : Nat := 0x07
def tyTAKEOVER : Nat := 0x08
def tyHEARTBEAT : Nat := 0x10
def tyPACKAGE : Nat := 0x11
def tyPSDU : Nat := 0x12
def tyCANVAS : Nat := 0x13
def tyBULK : Nat := 0x14

/-- The TTL that a frame starts with (R328). -/
def ttl0 : Nat := 16

/-- The 32-byte header (R330). -/
def frameHead (ty flags len src dst ttl tick seq epoch : Nat) : Bytes :=
  let h := leBytes 1 ty ++ leBytes 1 flags ++ leBytes 2 len ++ leBytes 1 src ++ leBytes 1 dst ++ leBytes 1 ttl ++ [0] ++
    leBytes 8 tick ++ leBytes 4 seq ++ leBytes 4 epoch ++ zeros 4
  h ++ leBytes 4 (sealOf h)

/-- A frame: its header, its body, and the body's seal (R330). -/
def frameOf (head body : Bytes) : Bytes := head ++ body ++ leBytes 4 (sealOf body)

/-- The CASCADE secret in a vault slot (R331). -/
def Dev.casSecret (d : Dev) (slot : Nat) : Option Bytes :=
  let e := d.veff slot
  if e.usable then some e.key else none

/-- The MAC of an authenticated frame: 16 bytes of HMAC-SHA-256 (R331). -/
def frameMac (key m : Bytes) : Bytes := (hmac key m).take 16

/-- This device's side: 0 A, 1 B. -/
def Dev.side (d : Dev) : Nat := d.rd Reg.CAS_CFG.SIDE

/-- The side of a position that is active in the active-side map (R334). -/
def Dev.activeSide (d : Dev) (p : Nat) : Nat := b2n (bitOf d.cas.activeMap p)

/-- The frames sent on a link are counted in SEQ: deal links 0 to 3, the partner link 4 (R330). -/
def Dev.nextLinkSeq (d : Dev) (k : Nat) : Nat × Dev :=
  let n := SMap.get (fun _ => 0) d.cas.seqOut k
  (n, { d with cas := { d.cas with seqOut := SMap.set (fun _ => 0) d.cas.seqOut k ((n + 1) % 2 ^ 32) } })

/-- Send a frame of this device on deal link `k`. -/
def Dev.sendOn (d : Dev) (k ty dst : Nat) (auth : Bool) (body : Bytes) : Dev :=
  let (seq, d) := d.nextLinkSeq k
  let len := body.length + (if auth then 16 else 0)
  let flags := d.side + 2 * (if dst = 0xFF then 0 else d.activeSide dst) + 4 * b2n auth
  let h := frameHead ty flags len d.pos dst ttl0 d.time.tick seq (d.rd Reg.CAS_EPOCH.EPOCH)
  if auth then
    match d.casSecret 4 with
    | some key => d.emit (.deal k (frameOf h (body ++ frameMac key (h ++ body))))
    | none => d
  else d.emit (.deal k (frameOf h body))

/-- Send a frame to a position over the deal links (R328), or to every position with destination 0xFF. -/
def Dev.dealSend (d : Dev) (ty dst : Nat) (auth : Bool) (body : Bytes) : Dev :=
  if dst = 0xFF then d.upLinks.foldl (fun d k => d.sendOn k ty dst auth body) d
  else match d.linkTo dst with
  | some k => d.sendOn k ty dst auth body
  | none => d

/-- Are both lanes of the partner link up? -/
def Dev.partnerUp (d : Dev) : Bool := d.on Reg.CAS_STAT.PARTNER_UP

/-- Send a frame on the partner link, up or not. -/
def Dev.partnerRaw (d : Dev) (ty : Nat) (body : Bytes) : Dev :=
  let (seq, d) := d.nextLinkSeq 4
  let h := frameHead ty (d.side + 2 * (1 - d.side)) body.length d.pos d.pos ttl0 d.time.tick seq (d.rd Reg.CAS_EPOCH.EPOCH)
  d.emit (.partner (frameOf h body))

/-- Send a frame on the partner link, if it is up. -/
def Dev.partnerSend (d : Dev) (ty : Nat) (body : Bytes) : Dev := if d.partnerUp then d.partnerRaw ty body else d

/-! ### The dealer -/

/-- Is this device the dealer? -/
def Dev.isDealer (d : Dev) : Bool := d.on Reg.CAS_STAT.DEALER

/-- The dealer's position, if there is a dealer (R354). -/
def Dev.dealerPos (d : Dev) : Option Nat :=
  let p := d.rd Reg.CAS_STAT.DEALER_POS
  if p = 0x3F then none else some p

/-- Send a frame to a dealer that is another device: over the deal links, or over the partner link to the other side of this
position (R328). -/
def Dev.toDealer (d : Dev) (ty : Nat) (auth : Bool) (body : Bytes) : Dev :=
  if d.isDealer then d else
  match d.dealerPos with
  | some p => if p = d.pos then d.partnerSend ty body else d.dealSend ty p auth body
  | none => d

/-- A frame is dropped and counted (R328, R330). -/
def Dev.linkDrop (d : Dev) : Dev := d.bump Reg.CAS_LINK_CNT.LINKDROP

end Sys2Proof.Machine
end

