-- ==== Sys2Proof/Machine/CanvasCheck.lean ====
section
/-!
DEFINITION. Validation of a canvas: the checks of R46 in their order, each with the section and offset that R427 reports,
and the ranges that every section's defining rule gives its fields.
-/

namespace Sys2Proof.Machine

/-- A failed check: its code, the section index and the byte offset from the start of the canvas (R46, R427). -/
structure CvFail where
  code : Nat
  sect : Nat
  off : Nat
  deriving DecidableEq, Repr

/-- What a canvas is validated for: a load at start or in the unconfigured state, or a stage with a MODE (R39, R46). -/
inductive CvKind where
  | start | unconf | runTime | nextStart
  deriving DecidableEq, Repr

/-! ### Checks on a body: the offset of the first field that fails -/

/-- The field at `off` fails unless the condition holds. -/
def need (off : Nat) (ok : Bool) : Option Nat := if ok then none else some off

/-- The `n`-byte field at `off` lies in its range. -/
def within (b : Bytes) (off n lo hi : Nat) : Option Nat := need off (decide (lo ≤ u b off n ∧ u b off n ≤ hi))

/-- `n` reserved bytes are zero. -/
def reserved (b : Bytes) (off n : Nat) : Option Nat := ((List.range n).map (off + ·)).find? fun i => u b i 1 != 0

/-- The first failure of a list. -/
def firstOf (l : List (Option Nat)) : Option Nat := l.findSome? id

/-- The first failure among entries 0 to `n − 1`. -/
def each (n : Nat) (g : Nat → Option Nat) : Option Nat := (List.range n).findSome? g

namespace Canvas

/-- Section types the device knows (R45). -/
def knownType (ty : Nat) : Bool := 1 ≤ ty && ty ≤ 15

/-- Sections that take effect only at start (R45). -/
def restartClass (ty : Nat) : Bool := knownType ty && ty != tyTOPOLOGY && ty != tyVEE && ty != tyPALETTES && ty != tyACCESS

/-- The bodies begin at the first multiple of 64 after the table (R42). -/
def firstBody (c : Canvas) : Nat := (64 + 16 * sectCount c + 63) / 64 * 64

/-- A failure in the section of a type. -/
def failIn (c : Canvas) (code ty off : Nat) : CvFail :=
  match sectIdx c ty with
  | some i => ⟨code, i, entOff c i + off⟩
  | none => ⟨code, 0xFF, 0⟩

/-- The first failure of a check over the known sections, in table order. -/
def bySection (c : Canvas) (code : Nat) (g : Nat → Option Nat) : Option CvFail :=
  (List.range (sectCount c)).findSome? fun i =>
    if knownType (entType c i) then (g (entType c i)).map fun o => ⟨code, i, entOff c i + o⟩ else none

/-- The slots of a seat's partition hold slot `s`. -/
def inSeat (c : Canvas) (n s : Nat) : Bool := seatProv c n && seatFirst c n ≤ s && s < seatFirst c n + seatCount c n

/-! ### Header, signature and table (0x0001 to 0x000A) -/

/-- Checks 0x0001 to 0x0004. -/
def headerFail (c : Canvas) : Option CvFail :=
  if u c 0 4 ≠ 0x56435A48 then some ⟨0x01, 0xFF, 0⟩
  else if u c 4 2 ≠ 1 then some ⟨0x02, 0xFF, 4⟩
  else if u c 6 2 ≠ 64 then some ⟨0x02, 0xFF, 6⟩
  else if 64 * 1048576 < totalLen c ∨ totalLen c % 64 ≠ 0 ∨ totalLen c ≠ c.length then some ⟨0x03, 0xFF, 8⟩
  else if sealOf (slice c 0 60) ≠ u c 60 4 then some ⟨0x04, 0xFF, 60⟩
  else none

/-- Entry `i` of the table is malformed (0x0009): out of bounds, unaligned, above 16 MiB, or over an earlier body. -/
def entryBad (c : Canvas) (i : Nat) : Bool :=
  let o := entOff c i
  let l := entLen c i
  decide (totalLen c - 64 < 64 + 16 * (i + 1)) || o % 64 != 0 || l % 64 != 0 || decide (16 * 1048576 < l) ||
  decide (o < firstBody c) || decide (totalLen c - 64 < o + l) ||
  (List.range i).any fun j => decide (o < entOff c j + entLen c j) && decide (entOff c j < o + l)

/-- Checks 0x0009 to 0x000C, and that of SVER. -/
def tableFail (c : Canvas) : Option CvFail :=
  let n := sectCount c
  let is := List.range n
  if n < 1 ∨ 64 < n then some ⟨0x09, 0xFF, 20⟩ else
  match is.find? (entryBad c) with
  | some i => some ⟨0x09, 0xFF, 64 + 16 * i⟩
  | none =>
  match is.find? fun i => knownType (entType c i) && !Config.sverKnown (entType c i) (entSver c i) with
  | some i => some ⟨0x02, i, 64 + 16 * i + 2⟩
  | none =>
  match is.find? fun i => sealOf (bodyAt c i) != entSeal c i with
  | some i => some ⟨0x0A, i, 64 + 16 * i⟩
  | none =>
  match is.find? fun i => !knownType (entType c i) && bitOf (entFlags c i) 0 with
  | some i => some ⟨0x0B, i, 64 + 16 * i⟩
  | none =>
  (is.find? fun i => knownType (entType c i) && (List.range i).any fun j => entType c j == entType c i).map
    fun i => ⟨0x0C, i, 64 + 16 * i⟩

/-! ### Required sections and header values (0x000D to 0x0010) -/

/-- Is some port in PLC_AFE or RADIO mode? -/
def bandPorts (c : Canvas) : Bool := (List.range 256).any fun p => portMode c p == mPLC || portMode c p == mRADIO

/-- The section types that this canvas must hold (R45). -/
def requiredTypes (c : Canvas) : List Nat :=
  [tyPORTS, tyFIFO, tyPOOL, tyENGINES, tySEATS, tyPALETTES, tyACCESS, tyPOWER, tyRESET, tyTIMEBASE, tyHOUSE] ++
  (if position c ≠ 0xFF then [tyCASCADE] else []) ++ (if bandPorts c then [tyBANDPLAN] else [])

/-- Checks 0x000D to 0x0010. -/
def shapeFail (c : Canvas) : Option CvFail :=
  if (requiredTypes c).any fun ty => (sectIdx c ty).isNone then some ⟨0x0D, 0xFF, 20⟩
  else if 1 < cls c then some ⟨0x0E, 0xFF, 15⟩
  else if 2 < tickSel c then some ⟨0x0E, 0xFF, 22⟩
  else if serial c = 0 then some ⟨0x0E, 0xFF, 16⟩
  else if slots c = 0 ∨ 1048576 < slots c then some ⟨0x0E, 0xFF, 24⟩
  else if cls c = 0 ∧ 262144 < slots c then some ⟨0x0F, 0xFF, 24⟩
  else if cls c = 0 ∧ position c ≠ 0xFF then some ⟨0x10, 0xFF, 23⟩
  else none

/-! ### Placements (0x0011, 0x0021, 0x0012) -/

def mib : Nat := 1048576

/-- Bytes of the FIFO banks and PLC receive queues (R116, R430). -/
def fifoBytes (c : Canvas) : Nat :=
  (List.range 256).foldl (fun a p =>
    if portMode c p = mOFF then a else a + 2 * bankBytes c p + (if portMode c p = mPLC then 16384 else 0)) 0

/-- What a section places in SRAM (R18). -/
def sramOf (c : Canvas) (ty : Nat) : Nat :=
  if ty = tyFIFO then fifoBytes c else if ty = tyHOUSE then balWs c * mib else 0

/-- What a section places in DRAM (R18). -/
def dramOf (c : Canvas) (ty : Nat) : Nat :=
  if ty = tyTIMEBASE then carryMib c * mib
  else if ty = tyTOPOLOGY then
    (body c tyTOPOLOGY).length + 32 * hDepth c * nNode c +
      512 * ((List.range (nNode c)).filter fun i => nodeType c i == 2).length
  else if ty = tyHOUSE then (uplStage c + campArea c) * mib
  else if ty = tySEATS then (seats c).foldl (fun a n => a + 65536 * seatMsgmem c n) 0
  else if ty = tyCASCADE then (if bitOf (f c tyCASCADE 2 1) 0 then 1024 * mib else 0)
  else if ty = tyBANDPLAN then
    (List.range 256).foldl (fun a p => if portMode c p = mRADIO then a + 32 * radNcap c p + 131072 else a) 0
  else 0

/-- The section whose size takes a sum over its limit; the fixed placements are counted first (R427). -/
def overLimit (c : Canvas) (code fixed limit : Nat) (size : Nat → Nat) : Option CvFail :=
  if limit < fixed then some ⟨code, 0xFF, 0⟩ else
  ((List.range (sectCount c)).foldl (fun (a : Nat × Option CvFail) i =>
    match a.2 with
    | some _ => a
    | none =>
      let t := a.1 + size (entType c i)
      (t, if limit < t then some ⟨code, i, entOff c i⟩ else none)) (fixed, none)).2

/-- SRAM groups that the canvas turns off, or that have failed (R311, R312). -/
def lostGroups (c : Canvas) (failed : Nat) : Nat :=
  ((List.range 16).filter fun g => bitOf (f c tyPOWER 0 2) g || bitOf failed g).length

/-- Check 0x0011: message pool, key cache and engine working sets are the fixed SRAM placements. -/
def sramFail (c : Canvas) (failed : Nat) : Option CvFail :=
  if 8 * mib < fifoBytes c then some (failIn c 0x11 tyFIFO 0)
  else overLimit c 0x11 (85 * mib) ((128 - 8 * lostGroups c failed) * mib) (sramOf c)

/-- Check 0x0012: ledgers, keys, journal buffer, address directory, FTL map and shadow queue are the fixed DRAM placements. -/
def dramFail (c : Canvas) : Option CvFail :=
  overLimit c 0x12 ((2048 + 64 + 512 + 64 + 128 + 16) * mib) ((16384 - 64) * mib) (dramOf c)

/-- Reserves of seats 0 to `n` together. -/
def reserveSum (c : Canvas) (n : Nat) : Nat := (List.range (n + 1)).foldl (fun a i => a + poolReserve c i) 0

/-! ### Checks 0x0013 to 0x0017, 0x0019 to 0x001B -/

/-- The FIELDLINK ports. -/
def flPorts (c : Canvas) : List Nat := (List.range 256).filter fun p => portMode c p == mFIELDLINK

/-- The first seat whose partition overlaps an earlier one or passes SLOTS; else, if the COUNTs do not sum to SLOTS, the
last provisioned seat (R283, R427). -/
def partFail (c : Canvas) : Option Nat :=
  let bad := fun n =>
    decide (slots c < seatFirst c n + seatCount c n) ||
    ((seats c).filter (· < n)).any fun m =>
      decide (seatFirst c n < seatFirst c m + seatCount c m) && decide (seatFirst c m < seatFirst c n + seatCount c n)
  match (seats c).find? bad with
  | some n => some (128 * n + 12)
  | none =>
    if (seats c).foldl (fun a n => a + seatCount c n) 0 = slots c then none
    else some (128 * ((seats c).getLast?.getD 0) + 12)

/-- Check 0x0016 (R434). -/
def engineFail (c : Canvas) : Option Nat :=
  ((seats c).find? fun n => f c tyENGINES (4 * n) 2 == 0 || bitOf (f c tyENGINES (4 * n) 4) 16).map (4 * ·)

/-- Check 0x0017 (R227, R228). -/
def topoFail17 (c : Canvas) : Option Nat :=
  let b := body c tyTOPOLOGY
  if 131072 < nNode c then some 0 else
  firstOf [
    each (nNode c) fun i => need (2112 + 32 * i + 8) (!nodeHasSup c i || inSeat c (nodeSeat c i) (nodeSupply c i)),
    each (nDrop c) fun i =>
      let o := 2112 + 32 * nNode c + 8 * i
      need o (inSeat c (nodeSeat c (bitsOf (u b (o + 4) 4) 16 0)) (bitsOf (u b o 4) 19 0) ||
        decide (nNode c ≤ bitsOf (u b (o + 4) 4) 16 0))]

/-- Check 0x0019 (R58, R428). -/
def capFail (c : Canvas) : Option Nat :=
  firstOf [
    each 16 fun e => need (64 + 4 * e) (decide (10 * mcap c e ≤ 6 * tickNs c)),
    each 16 fun e => need (128 + 4 * e) (decide (mload c e ≤ mcap c e))]

/-- Levels of the fuse table (R366): the compact column, and in a full-ledger composition L2 for sources 2 to 4. -/
def fuseLevel (cls src : Nat) : Nat :=
  match src with
  | 0 => 0
  | 1 => 1
  | 2 => if cls = 1 then 2 else 1
  | 3 => if cls = 1 then 2 else 1
  | 4 => if cls = 1 then 2 else 1
  | 5 => 1
  | 6 => 4
  | 7 => 2
  | 8 => 4
  | 9 => 4
  | _ => 1

/-- The level that the canvas gives a source; the fuse entry where it keeps it (R367). -/
def resetLevel (c : Canvas) (src : Nat) : Nat :=
  let v := f c tyRESET src 1
  if (sectIdx c tyRESET).isNone ∨ v = 0xFF then fuseLevel (cls c) src else v

/-- Check 0x001A (R367). -/
def resetFail (c : Canvas) : Option Nat :=
  each 11 fun i =>
    let v := f c tyRESET i 1
    need i (v == 0xFF || decide (v ≤ fuseLevel (cls c) i))

/-- Check 0x001B (R428, R433). -/
def rangeFail1B (c : Canvas) (ty : Nat) : Option Nat :=
  if ty = tyPOOL then within (body c ty) 0 2 2048 16384
  else if ty = tyTIMEBASE then within (body c ty) 8 2 256 1024
  else none

/-! ### Check 0x0018, section by section -/

/-- PORTS (R429). -/
def portsFail (c : Canvas) : Option Nat :=
  let b := body c tyPORTS
  firstOf [
    within b 0 1 0 3, reserved b 1 63,
    each 256 fun p =>
      let o := 64 + 16 * p
      let m := u b o 1
      firstOf [
        within b o 1 0 4,
        need (o + 1) (u b (o + 1) 1 == 0 || (u b (o + 1) 1 == 1 && (m == mPLC || m == mFIELDLINK))),
        if m = mFIELDLINK then within b (o + 2) 2 64 16383 else within b (o + 2) 2 0 0,
        if m = mSERIAL then within b (o + 4) 4 300 115200 else within b (o + 4) 4 0 0,
        if m = mSERIAL then within b (o + 8) 1 0 2 else within b (o + 8) 1 0 0,
        reserved b (o + 9) 7]]

/-- FIFO (R430). -/
def fifoFail (c : Canvas) : Option Nat :=
  each 256 fun p => need p (decide (f c tyFIFO p 1 < (if portMode c p = mOFF then 1 else 8)))

/-- POOL (R433). -/
def poolFail (c : Canvas) : Option Nat :=
  let b := body c tyPOOL
  firstOf [
    reserved b 2 62,
    each 64 fun n => within b (64 + 2 * n) 2 0 (if seatProv c n then 32768 else 0),
    each 256 fun p => need (192 + p)
      (if portMode c p = mOFF then homeSeat c p == 0 else decide (homeSeat c p < 64) && seatProv c (homeSeat c p))]

/-- ENGINES (R434). -/
def enginesFail (c : Canvas) : Option Nat :=
  each 64 fun n =>
    let v := f c tyENGINES (4 * n) 4
    need (4 * n) (if seatProv c n then v / 2 ^ 17 == 0 else v == 0)

/-- The lowest mailbox of a seat is one that it receives (R283). -/
def lowMbxOk (c : Canvas) (n : Nat) : Bool :=
  match (seatMbxs c n).head? with
  | some m => seatRx c n m
  | none => true

/-- SEATS (R283): the records of the provisioned seats. -/
def seatsFail (c : Canvas) : Option Nat :=
  let b := body c tySEATS
  firstOf [
    need 0 (seatProv c 0 && seatPcie c 0),
    each 64 fun n =>
      let o := 128 * n
      let earlier := (seats c).filter (· < n)
      if !seatProv c n then
        firstOf [within b o 1 0 7, within b (o + 5) 1 0 15, need (o + 6) (u b (o + 6) 2 < 2 ^ 15), within b (o + 8) 4 0 (2 ^ 20 - 1),
          within b (o + 12) 4 0 (2 ^ 21 - 1), within b (o + 54) 2 0 1023, within b (o + 110) 2 0 4095, reserved b (o + 114) 14]
      else
      firstOf [
        within b o 1 0 7,
        need (o + 1) ([5, 10, 15, 30, 60].contains (seatPeriod c n)),
        each 3 fun i => within b (o + 2 + i) 1 0 7,
        within b (o + 5) 1 0 15,
        need (o + 6) (u b (o + 6) 2 < 2 ^ 15 && (!seatVlan c n ||
          (1 ≤ seatVid c n && seatVid c n ≤ 4094 && !earlier.any fun m => seatVlan c m && seatVid c m == seatVid c n))),
        within b (o + 8) 4 0 (2 ^ 20 - 1), within b (o + 12) 4 0 (2 ^ 21 - 1),
        if n = 0 then none else within b (o + 48) 2 8 127,
        within b (o + 54) 2 1 1023,
        need (o + 56) (!seatRx c n 63 && lowMbxOk c n &&
          !(List.range 63).any fun m => seatRx c n m && earlier.any fun k => seatRx c k m),
        need (o + 64) (!seatTx c n 63),
        within b (o + 108) 2 1280 9000, within b (o + 110) 2 0 4095, within b (o + 112) 2 1 256,
        reserved b (o + 114) 14]]

/-- The chain of parents of a node holds at most `fuel` nodes. -/
def chainOk (c : Canvas) (i : Nat) : Nat → Bool
  | 0 => false
  | k + 1 => match nodeParent c i with
    | some j => chainOk c j k
    | none => true

/-- A node record (R227). -/
def nodeFail (c : Canvas) (b : Bytes) (i : Nat) : Option Nat :=
  let o := 2112 + 32 * i
  firstOf [
    within b o 1 1 3,
    need (o + 1) (decide (nodeSeat c i < 64) && seatProv c (nodeSeat c i)),
    within b (o + 2) 1 0 7, reserved b (o + 3) 1,
    need (o + 4) (decide (nodeF c i 4 4 < 2 ^ 18) && (match nodeParent c i with
      | some j => decide (j < i) && nodeSeat c j == nodeSeat c i && (nodeType c i != 3 || nodeType c j == 2) && chainOk c i 4
      | none => nodeType c i != 3)),
    need (o + 8) (decide (nodeF c i 8 4 < 2 ^ 21) && !(nodeType c i == 3 && nodeHasSup c i)),
    need (o + 28) (!nodeSpan c i || decide (nodeHome c i < 40)),
    need (o + 29) (!nodeSpan c i || (1 ≤ nodeNpart c i && nodeNpart c i ≤ 40)),
    reserved b (o + 30) 2]

/-- A seat's parameter record (R229). -/
def paramFail (b : Bytes) (o : Nat) : Option Nat :=
  firstOf [
    within b o 1 0 44, within b (o + 1) 1 4 12, within b (o + 2) 1 2 10, within b (o + 3) 1 1 255,
    within b (o + 4) 1 1 15, within b (o + 5) 1 1 15, reserved b (o + 9) 1, within b (o + 10) 2 0 5000,
    within b (o + 12) 2 0 10000, need (o + 12) (decide (u b (o + 10) 2 < u b (o + 12) 2)),
    within b (o + 14) 2 1 10000, within b (o + 16) 2 150 1000, within b (o + 18) 2 0 10000, within b (o + 20) 2 1 60,
    within b (o + 22) 2 0 10000, within b (o + 24) 2 0 10000, within b (o + 26) 2 1 10000,
    within b (o + 28) 2 1000 4800, within b (o + 30) 2 1 65535]

/-- TOPOLOGY (R226 to R229). -/
def topologyFail (c : Canvas) : Option Nat :=
  let b := body c tyTOPOLOGY
  let drops := 2112 + 32 * nNode c
  let fin := drops + 8 * nDrop c
  firstOf [
    within b 0 4 1 131072, within b 4 4 0 1048576, within b 8 2 50 6000, within b 10 2 16 672, reserved b 12 52,
    each 64 fun n => if seatProv c n then paramFail b (64 + 32 * n) else reserved b (64 + 32 * n + 9) 1,
    each (nNode c) (nodeFail c b),
    each (nDrop c) fun i =>
      let o := drops + 8 * i
      firstOf [within b o 4 0 (2 ^ 23 - 1), need (o + 4) (decide (u b (o + 4) 4 < nNode c))],
    reserved b fin (b.length - fin)]

/-- VEE (R214). -/
def veeFail (c : Canvas) : Option Nat :=
  let b := body c tyVEE
  let n := u b 0 1
  firstOf [
    within b 0 1 1 16, reserved b 1 63,
    each 64 fun i => need (64 + i) (u b (64 + i) 1 == 0xFF || decide (u b (64 + i) 1 < n)),
    each n fun i =>
      let o := 128 + 64 * i
      firstOf [
        within b o 2 0 127, within b (o + 2) 1 0 3, within b (o + 3) 1 0 1, within b (o + 5) 1 1 8,
        within b (o + 6) 1 2 255, reserved b (o + 7) 1,
        need (o + 8) (!bitOf (u b o 2) 5 || u b (o + 8) 2 != 0),
        reserved b (o + 14) 2, within b (o + 28) 8 0 (2 ^ 48 - 1), reserved b (o + 36) 28]]

/-- Palette record `i` of the section (R199). -/
def palRec (b : Bytes) (i : Nat) : Bytes := slice b (128 + 1024 * i) 1024

/-- Switch point `k` of day type `t` of a palette record. -/
def switchPt (p : Bytes) (t k : Nat) : Nat := u p (168 + 24 * t + 2 * k) 2

/-- A day type has a valid switch point at minute 0. -/
def startsAt0 (p : Bytes) (t : Nat) : Bool := (List.range 12).any fun k =>
  bitOf (switchPt p t k) 14 && bitsOf (switchPt p t k) 10 0 == 0

/-- The day types that a palette refers to (R199); `isDef` says that a seat names it as its default. -/
def refDayTypes (p : Bytes) (isDef : Bool) : List Nat :=
  (if isDef then [0] else []) ++
  ((List.range 4).filter fun i => u p (136 + 8 * i) 1 % 16 != 0).flatMap (fun i =>
    (List.range 7).map fun w => bitsOf (u p (136 + 8 * i) 8) (18 + 3 * w) (16 + 3 * w)) ++
  (List.range (min 64 (u p 7 1))).map fun i => bitsOf (u p (360 + 4 * i) 4) 23 21

/-- A palette record (R199): the offset within it. -/
def palFail (c : Canvas) (p : Bytes) (isDef dup : Bool) : Option Nat :=
  let month := fun i => u p (136 + 8 * i) 1 % 16
  let start := fun i => u p (136 + 8 * i) 2 % 2 ^ 9
  firstOf [
    need 0 (!dup),
    need 1 (decide (u p 1 1 < 64) && seatProv c (u p 1 1)),
    within p 2 1 1 8, need 3 (1 ≤ u p 3 1 % 16 && u p 3 1 < 32), within p 4 1 0 28, within p 5 1 0 23, within p 6 1 1 16,
    within p 7 1 0 64,
    each 16 fun i => firstOf [
      need (8 + 8 * i) (if i = 0 then u p 8 5 == 0 else decide (u p 6 1 ≤ i ∨ u p (8 * i) 5 < u p (8 + 8 * i) 5)),
      reserved p (8 + 8 * i + 7) 1],
    each 4 fun i => need (136 + 8 * i)
      ((i != 0 || month i != 0) && decide (month i ≤ 12) && u p (136 + 8 * i) 8 / 2 ^ 9 % 2 ^ 7 == 0 &&
        u p (136 + 8 * i) 8 / 2 ^ 37 == 0 &&
        !(month i != 0 && (List.range i).any fun j => month j != 0 && start j == start i)),
    each 96 fun j =>
      let t := j / 12
      let v := switchPt p t (j % 12)
      need (168 + 2 * j) (decide (bitsOf v 10 0 ≤ 1439) && !bitOf v 15 &&
        (!bitOf v 14 || (decide (bitsOf v 13 11 + 1 ≤ u p 2 1) && !(List.range (j % 12)).any fun k =>
          bitOf (switchPt p t k) 14 && bitsOf (switchPt p t k) 10 0 == bitsOf v 10 0))),
    each 64 fun i => reserved p (360 + 4 * i + 3) 1,
    ((refDayTypes p isDef).find? fun t => !startsAt0 p t).map fun t => 168 + 24 * t,
    reserved p 616 408]

/-- An assignment range (R200). -/
def rangeFail (c : Canvas) (b : Bytes) (o : Nat) : Option Nat :=
  let a := bitsOf (u b o 4) 19 0
  let z := bitsOf (u b (o + 4) 4) 19 0
  let own := (List.range 64).find? fun n => inSeat c n a
  let ok := fun (pid : Nat) => (List.range (u b 0 2)).any fun i =>
    u (palRec b i) 0 1 == pid && own == some (u (palRec b i) 1 1)
  firstOf [
    need o (decide (a ≤ z) && bitsOf (u b o 4) 23 20 == 0 && ok (u b (o + 3) 1) && (match own with
      | some n => inSeat c n z
      | none => false)),
    need (o + 4) (bitsOf (u b (o + 4) 4) 23 20 == 0 && ok (u b (o + 7) 1)),
    reserved b (o + 13) 3]

/-- PALETTES (R198 to R200). -/
def palettesFail (c : Canvas) : Option Nat :=
  let b := body c tyPALETTES
  let n := u b 0 2
  let m := u b 4 4
  let pid := fun i => u (palRec b i) 0 1
  let fin := 128 + 1024 * n + 16 * m
  let isDef := fun k => (List.range 64).any fun s => palDefValid c s && palDefault c s == k
  firstOf [
    within b 0 2 1 256, reserved b 2 2, within b 4 4 0 65536,
    each 64 fun s => need (8 + s) (!palDefValid c s || (List.range n).any fun i => pid i == palDefault c s),
    need 72 ((seats c).all (palDefValid c)),
    reserved b 80 48,
    each n fun i => (palFail c (palRec b i) (isDef (pid i)) ((List.range i).any fun j => pid j == pid i)).map
      (128 + 1024 * i + ·),
    each m fun j => rangeFail c b (128 + 1024 * n + 16 * j),
    reserved b fin (b.length - fin)]

/-- POWER (R311). -/
def powerFail (c : Canvas) : Option Nat :=
  let b := body c tyPOWER
  firstOf [reserved b 2 2, each 16 fun g => within b (4 + g) 1 0 20, within b 20 2 1 1000, reserved b 22 42]

/-- CASCADE (R329). -/
def cascadeFail (c : Canvas) : Option Nat :=
  let b := body c tyCASCADE
  let n := u b 0 1
  let s := u b 1 1
  firstOf [
    need 0 (1 ≤ n && n ≤ 40 && (position c == 0xFF || decide (position c < n))),
    need 1 (if n < 4 then s == 0 else decide (2 ≤ s ∧ s + 2 ≤ n)),
    within b 2 1 0 7, reserved b 3 29]

/-- RESET (R367). -/
def resetSectFail (c : Canvas) : Option Nat :=
  let b := body c tyRESET
  firstOf [
    each 11 fun i => need i (u b i 1 == 0xFF || (i != 0 && i != 6 && decide (u b i 1 ≤ 4))),
    reserved b 11 53]

/-- The PLC_AFE entry of a port (R431). -/
def plcEntryFail (b : Bytes) (o : Nat) : Option Nat :=
  let std := u b (o + 1) 1
  let band := u b (o + 2) 1
  let carriers := if std = 0 then (if band = 0 then 36 else 72) else 0
  firstOf [
    within b (o + 1) 1 0 1,
    need (o + 2) (if std = 0 then decide (band ≤ 1) else decide (1 ≤ band ∧ band ≤ 8)),
    within b (o + 3) 1 0 7, within b (o + 4) 1 6 30, within b (o + 5) 1 0 31, within b (o + 6) 1 1 255,
    reserved b (o + 7) 1, need (o + 8) (decide (u b (o + 8) 9 < 2 ^ carriers)), reserved b (o + 17) 239]

/-- The RADIO entry of a port (R432). -/
def radioEntryFail (b : Bytes) (o : Nat) : Option Nat :=
  let hl := u b (o + 16) 1
  let ni := u b (o + 33) 1
  firstOf [
    within b (o + 1) 1 0 2, within b (o + 2) 2 0 1023, within b (o + 4) 2 0 0xFFFE, within b (o + 6) 1 0 14,
    within b (o + 7) 1 0 (u b (o + 6) 1), within b (o + 8) 1 0 1, within b (o + 9) 1 0 7, within b (o + 10) 1 1 255,
    within b (o + 11) 1 0 15, within b (o + 12) 1 1 255, within b (o + 13) 1 1 255, within b (o + 14) 2 256 16384,
    within b (o + 16) 1 1 2, within b (o + 17) 1 0 (8 * hl - 1), within b (o + 18) 2 0 (2 ^ 15 - 1),
    within b (o + 20) 1 0 7, within b (o + 21) 1 0 7, within b (o + 22) 1 0 7, within b (o + 33) 1 0 64,
    reserved b (o + 34) 30,
    each 64 fun i => if ni ≤ i then reserved b (o + 64 + 3 * i) 3 else within b (o + 64 + 3 * i) 2 0 (2 ^ 15 - 1)]

/-- BANDPLAN (R431, R432). -/
def bandplanFail (c : Canvas) : Option Nat :=
  let b := body c tyBANDPLAN
  each 256 fun p =>
    let o := 256 * p
    if portMode c p = mPLC then firstOf [within b o 1 1 1, plcEntryFail b o]
    else if portMode c p = mRADIO then firstOf [within b o 1 2 2, radioEntryFail b o]
    else reserved b o 256

/-- The shortest interval of a seat in ticks covers the span (R428). -/
def spanOk (c : Canvas) : Bool :=
  (seats c).all fun n => ((seatLengths c n)).all fun sec => decide (span c * tickNs c ≤ sec * 1000000000)

/-- TIMEBASE (R428). -/
def timebaseFail (c : Canvas) : Option Nat :=
  let b := body c tyTIMEBASE
  firstOf [within b 0 2 100 6000, need 0 (spanOk c), reserved b 2 2, within b 4 4 60 604800, reserved b 10 54]

/-- HOUSE (R361, R398). -/
def houseFail (c : Canvas) : Option Nat :=
  let b := body c tyHOUSE
  firstOf [
    within b 0 2 1 1000, within b 2 2 0 1024, within b 4 4 6000 8640000, within b 8 2 1 8, within b 10 2 256 65535,
    reserved b 14 50,
    each (rlCount c) fun i =>
      let o := 64 + 4 * i
      firstOf [
        need o (!(List.range i).any fun j => u b (64 + 4 * j) 2 == u b o 2),
        within b (o + 2) 2 1 1000]]

/-- Check 0x0018 on the section of a type. -/
def fieldFail (c : Canvas) (ty : Nat) : Option Nat :=
  match ty with
  | 0x01 => portsFail c
  | 0x02 => fifoFail c
  | 0x03 => poolFail c
  | 0x04 => enginesFail c
  | 0x05 => seatsFail c
  | 0x06 => topologyFail c
  | 0x07 => veeFail c
  | 0x08 => palettesFail c
  | 0x0A => powerFail c
  | 0x0B => cascadeFail c
  | 0x0C => resetSectFail c
  | 0x0D => bandplanFail c
  | 0x0E => timebaseFail c
  | 0x0F => houseFail c
  | _ => none

/-- Checks 0x0011 to 0x001B and 0x0021, in the order of R46; `failed` gives the failed SRAM groups. -/
def contentFail (c : Canvas) (failed : Nat) : Option CvFail :=
  [sramFail c failed,
   ((List.range 64).find? fun n => decide (32768 < reserveSum c n)).map fun n => failIn c 0x21 tyPOOL (64 + 2 * n),
   dramFail c,
   (flPorts c)[64]?.map fun p => failIn c 0x13 tyPORTS (64 + 16 * p),
   ((flPorts c).find? fun p => decide (bankBytes c p < portF c p 2 2)).map fun p => failIn c 0x14 tyFIFO p,
   (partFail c).map (failIn c 0x15 tySEATS),
   (engineFail c).map (failIn c 0x16 tyENGINES),
   if hasTopo c then (topoFail17 c).map (failIn c 0x17 tyTOPOLOGY) else none,
   bySection c 0x18 (fieldFail c),
   (capFail c).map (failIn c 0x19 tyTIMEBASE),
   (resetFail c).map (failIn c 0x1A tyRESET),
   bySection c 0x1B (rangeFail1B c)].findSome? id

/-- Header fields that a run-time application may not change: offset and size (R46, 0x001C). -/
def fixedFields : List (Nat × Nat) :=
  [(0, 4), (4, 2), (6, 2), (12, 2), (14, 1), (15, 1), (22, 1), (23, 1), (24, 4), (32, 8), (40, 20)]

/-- Check 0x001C against the running canvas. -/
def runTimeFail (c run : Canvas) : Option CvFail :=
  match (List.range (sectCount c)).find? fun i => restartClass (entType c i) && bodyAt c i != body run (entType c i) with
  | some i => some ⟨0x1C, i, 64 + 16 * i⟩
  | none =>
    if (List.range (sectCount run)).any fun i => restartClass (entType run i) && (sectIdx c (entType run i)).isNone then
      some ⟨0x1C, 0xFF, 0⟩
    else (fixedFields.find? fun p => slice c p.1 p.2 != slice run p.1 p.2).map fun p => ⟨0x1C, 0xFF, p.1⟩

end Canvas

/-! ### The whole validation (R46) -/

/-- The canvas verification key held in vault slot 2 (R44, R267). -/
def Dev.canvasKey (d : Dev) : Option Bytes :=
  let e := d.veff 2
  if e.usable && usageOf e.attr == 2 then some e.key else none

/-- The canvas floor: the low 32 bits of counter 2 (R47). -/
def Dev.canvasFloor (d : Dev) : Nat := d.counter 2 % 2 ^ 32

/-- Checks 0x0005 to 0x0008. -/
def Dev.signFail (d : Dev) (c : Canvas) (k : CvKind) : Option CvFail :=
  let n := c.totalLen
  match d.canvasKey with
  | none => some ⟨0x05, 0xFF, 32⟩
  | some key =>
    let older := match k with
      | .runTime | .nextStart => decide (c.serial ≤ d.cfg.serial)
      | _ => false
    if slice c 32 8 ≠ (sha256 key).take 8 then some ⟨0x06, 0xFF, 32⟩
    else if !edVerify key (slice c 0 (n - 64)) (slice c (n - 64) 64) then some ⟨0x06, 0xFF, n - 64⟩
    else if c.serial < d.canvasFloor ∨ older = true then some ⟨0x07, 0xFF, 16⟩
    else if c.partType ≠ d.rd Reg.GLB_ID.PART_TYPE then some ⟨0x08, 0xFF, 12⟩
    else if d.rd Reg.GLB_ID.STEP < c.minStep then some ⟨0x08, 0xFF, 14⟩
    else none

/-- Validation in the order of R46: the first check that fails, or none for a valid canvas. -/
def Dev.validate (d : Dev) (c : Canvas) (k : CvKind) : Option CvFail :=
  match c.headerFail with
  | some x => some x
  | none =>
  match d.signFail c k with
  | some x => some x
  | none =>
  match c.tableFail with
  | some x => some x
  | none =>
  match c.shapeFail with
  | some x => some x
  | none =>
  match c.contentFail (d.rd Reg.MEM_SRAM_STAT.FAILED) with
  | some x => some x
  | none => if k = .runTime then c.runTimeFail d.cfg else none

end Sys2Proof.Machine
end

