-- ==== Sys2Proof/Machine/Events.lean ====
section
/-!
DEFINITION. The event recorder: flushing entries to the NAND log, summary entries, fetching an entry and injecting a code
(R394 to R400). Recording an entry stands in Ops, which every family uses.
-/

namespace Sys2Proof.Machine

/-- Write entries to the log (R396): a full log overwrites the oldest entry of equal or lower severity. The second
component counts the entries refused. -/
def logAppend (log : List Evt) : List Evt → List Evt × Nat
  | [] => (log, 0)
  | e :: es =>
    if log.length < logCap then logAppend (log ++ [e]) es else
    match dropOldest e.sev log with
    | some l => logAppend (l ++ [e]) es
    | none => let r := logAppend log es; (r.1, r.2 + 1)

/-- Count and raise a number of entries that the log refused (R396). -/
def Dev.logRefused (d : Dev) : Nat → Dev
  | 0 => d
  | n + 1 => ((d.bump Reg.EVT_LOST.LOG_REFUSED).raise Stk.EVT.LOG_REFUSED).logRefused n

/-- EVENT_FLUSH (R395): waiting entries go from DRAM and the front buffer to the NAND log. The last-gasp cell is for an entry that is
still waiting: it empties (DEDUCED, log entry 250). -/
def Dev.eventFlush (d : Dev) : Dev :=
  let es := d.evt.dram ++ d.evt.front
  if es.isEmpty || !d.ftlReady then d else
  let r := logAppend d.evt.log es
  let n := (es.length + 255) / 256
  let d := { d with evt := { d.evt with log := r.1, front := [], dram := [], lastGasp := none } }
  let at0 := d.ftl.nextEvent
  let d := d.nandWriteN (lpaEvents + at0) sHOT 0 n
  ({ d with ftl := { d.ftl with nextEvent := (at0 + n) % eventPages } }).logRefused r.2

/-- Record one summary entry (R397): SUMMARY set, SUPP holding the count, a zero payload. -/
def Dev.summarise (d : Dev) (s : Supp) : Dev :=
  let d := { d with evt := { d.evt with supp := d.evt.supp.filter fun x => !(x.code == s.code && x.view == s.view) } }
  let r := d.pushEvt (d.mkEvt s.code s.sev s.view s.count true (zeros 24))
  if r.2 then r.1.fbLost else r.1

/-- EVENT_SUMMARY (R397): every code and view whose first uncarried suppression is 100 ticks old. -/
def Dev.eventSummary (d : Dev) : Dev :=
  (d.evt.supp.filter fun s => s.first + 100 ≤ d.time.tick).foldl Dev.summarise d

/-- At the quiesce of an L2 or deeper reset, every uncarried count gets its summary entry at once, and the record of
recent entries starts empty (R397). -/
def Dev.summariseAll (d : Dev) : Dev :=
  let d := d.evt.supp.foldl Dev.summarise d
  { d with evt := { d.evt with recent := [] } }

/-- The view that a seat reads: its own for seats 1 to 63, the one selected in EVT_SEL for seat 0 (R394, R400). -/
def Dev.viewOf (d : Dev) (n : Nat) : Nat := if n = 0 then d.rd Reg.EVT_SEL.VIEW else n

/-- The entries of a view, oldest first. -/
def Dev.viewEntries (d : Dev) (view : Nat) : List Evt :=
  (d.evt.log ++ d.evt.dram ++ d.evt.front).filter fun e => e.seat == view

/-- EVT_FETCH (R399): the seat's fetch of an entry begins. -/
def Dev.evtFetch (d : Dev) (n : Nat) : Dev :=
  let d := d.wr Reg.EVT_STAT.BUSY 1 0 n
  { d with evt := { d.evt with
    fetch := SMap.set (fun _ => none) d.evt.fetch n (some (d.viewOf n, d.rd Reg.EVT_SEL_SEQ.ESEQ 0 n)) } }

/-- How far an ESEQ lies above the one requested, modulo 2^32. -/
def eseqAbove (req e : Nat) : Nat := (e + 2 ^ 32 - req) % 2 ^ 32

/-- The entry with the least ESEQ at or above the one requested. -/
def leastAbove (req : Nat) (es : List Evt) : Option Evt :=
  es.foldl (fun a e =>
    if eseqAbove req e.eseq ≥ 2 ^ 31 then a else
    match a with
    | some b => if eseqAbove req e.eseq < eseqAbove req b.eseq then some e else a
    | none => some e) none

/-- EVT_FETCH_DONE (R399): the entry is loaded as read; `asRead` gives the bytes where they differ from those written. -/
def Dev.evtFetchDone (d : Dev) (n : Nat) (asRead : Option Bytes) : Dev :=
  match SMap.get (fun _ => none) d.evt.fetch n with
  | none => d
  | some (view, req) =>
    let d := { d with evt := { d.evt with fetch := SMap.set (fun _ => none) d.evt.fetch n none } }
    let d := d.wr Reg.EVT_STAT.BUSY 0 0 n
    match leastAbove req (d.viewEntries view) with
    | none =>
      ((d.wr Reg.EVT_STAT.GAP 0 0 n).wr Reg.EVT_STAT.NONE 1 0 n).wrBytes Reg.EVT_DATA.DATA [] 16 n
    | some e =>
      let bs := asRead.getD e.bytes
      let d := (d.wr Reg.EVT_STAT.GAP (b2n (e.eseq != req)) 0 n).wr Reg.EVT_STAT.NONE 0 0 n
      let d := d.wrBytes Reg.EVT_DATA.DATA bs 16 n
      if sealOf (slice bs 0 60) = u bs 60 4 then d else d.raise Stk.EVT.SEAL

/-- EVT_INJECT (R400): record EVT_INJ's code with seat 0; codes below 0xF000 are ignored. -/
def Dev.evtInject (d : Dev) : Dev :=
  let code := d.rd Reg.EVT_INJ.CODE
  if code < 0xF000 then d else d.record code (d.rd Reg.EVT_INJ.SEV) 0 noIdx []

/-- A write of EVT_CTL by a seat (R400): INJECT acts for seat 0 only. -/
def Dev.evtCtl (d : Dev) (n v : Nat) : Dev :=
  let d := if bitOf v 0 then d.evtFetch n else d
  if bitOf v 1 && n == 0 then d.evtInject else d

/-- The last-gasp entry is written to the log at the next start (R395). -/
def Dev.lastGaspWrite (d : Dev) : Dev :=
  match d.evt.lastGasp with
  | none => d
  | some e =>
    let e := { e with lastgasp := true }
    let e := { e with chk := sealOf e.body }
    let r := logAppend d.evt.log [e]
    ({ d with evt := { d.evt with log := r.1, lastGasp := none } }.logRefused r.2).raise Stk.EVT.LASTGASP

/-- At start ESEQ continues from the log (R400: EVT_HEAD reads "from log"). -/
def Dev.eseqFromLog (d : Dev) : Dev :=
  let es := d.evt.log ++ d.evt.dram
  { d with evt := { d.evt with
    nextSeq := es.foldl (fun m e => SMap.set (fun _ => 0) m e.seat ((e.eseq + 1) % 2 ^ 32)) [] } }

end Sys2Proof.Machine
end

