-- ==== Sys2Proof/Machine/Balance.lean ====
section
/-!
DEFINITION. The balance engine: evaluating the nodes of a boundary, history and node alarms, nodes that span positions, orders
for a slot's tracker, and a change of topology (R231 to R234, R242 to R245).
-/

namespace Sys2Proof.Machine

/-! ### One evaluation (R232) -/

/-- What an evaluation of a node starts from. `home` says that this part holds the supply, `supOk` that its contribution
arrived and was not estimated. -/
structure NodeSum where
  eOut : Int := 0
  lDrop : Int := 0
  est : Nat := 0
  supply : Int := 0
  supOk : Bool := false
  deriving DecidableEq, Repr

/-- The result of an evaluation. -/
structure NodeEval where
  eIn : Int
  eOut : Int
  lTech : Int
  lDrop : Int
  rbp : Int
  sNode : Nat
  flags : Nat
  scored : Bool
  deriving DecidableEq, Repr

/-- A node's technical loss over P minutes (R232): `pin` is |e_in| · 6 / P. A node rated at 0 VA has none that the rule
states. -/
def Canvas.nodeLoss (c : Canvas) (i p : Nat) (eIn : Int) : Int :=
  if nodeSRATED c i = 0 then Config.lossUnrated (nodeNL c i) (nodeLL c i) (eIn.natAbs * 6 / max 1 p) p else
  let pin : Rat := ((eIn.natAbs * 6 : Nat) : Rat) / (max 1 p : Nat)
  let x : Rat := pin / (nodeSRATED c i : Nat)
  ((((nodeNL c i : Nat) : Rat) + ((nodeLL c i : Nat) : Rat) * (x * x)) * (p : Nat) / 6).floor

/-- The residual in basis points. -/
def rbpOf (res eIn : Int) : Int :=
  if eIn ≤ 0 then 0 else max (-32768) (min 32767 (Int.fdiv (10000 * res) eIn))

/-- S_NODE of a scored evaluation. -/
def sNodeOf (c : Canvas) (seat : Nat) (rbp : Int) : Nat :=
  let lo := c.bpRES_LO seat
  let hi := c.bpRES_HI seat
  if rbp ≤ (lo : Int) then 0
  else (min 255 (Int.fdiv (255 * (rbp - (lo : Int))) ((hi - lo : Nat) : Int))).toNat

/-- Score an evaluation whose energies are known (R232); the flags are those of R233 without ALARM. -/
def scoreNode (c : Canvas) (seat : Nat) (s : NodeSum) (eIn lt : Int) (hasSup incomplete span estIn : Bool) : NodeEval :=
  let rbp := rbpOf (eIn - s.eOut - lt - s.lDrop) eIn
  let heavy := decide (c.bpEST_LIM seat * s.eOut.natAbs < 10000 * s.est)
  let low := decide (eIn < ((10 * c.bpEIN_MIN seat : Nat) : Int))
  let scored := hasSup && s.supOk && !heavy && !low && !incomplete
  { eIn, eOut := s.eOut, lTech := lt, lDrop := s.lDrop, rbp, scored
    sNode := if scored then sNodeOf c seat rbp else 0
    flags := b2n (!hasSup) + 2 * b2n incomplete + 4 * b2n (heavy || estIn) + 16 * b2n span + 32 * b2n low }

/-- The local evaluation of a node (R232). -/
def Canvas.evalNode (c : Canvas) (i : Nat) (s : NodeSum) (incomplete : Bool) : NodeEval :=
  let p := c.seatPeriod (nodeSeat c i)
  let sup := nodeHasSup c i
  let e0 := if sup then s.supply else s.eOut + s.lDrop
  let lt := nodeLoss c i p e0
  scoreNode c (nodeSeat c i) s (if sup then e0 else e0 + lt) lt sup incomplete false false

/-! ### History and alarms (R233, R234) -/

/-- A history entry (R233). -/
def nodeEntry (i j : Nat) (e : NodeEval) (alarm : Bool) : Bytes :=
  let b := leBytes 4 i ++ leBytes 4 j ++ leBytes 6 (wrapI 48 e.eIn) ++ leBytes 6 (wrapI 48 e.eOut) ++
    leBytes 4 (wrapI 32 (e.lTech + e.lDrop)) ++ leBytes 2 (wrapI 16 e.rbp) ++ leBytes 1 e.sNode ++
    leBytes 1 (e.flags + 8 * b2n alarm)
  b ++ leBytes 4 (sealOf b)

/-- The alarm rule of a node on a scored evaluation (R234). -/
def Dev.nodeAlarm (d : Dev) (i j : Nat) (rbp : Int) : Dev :=
  let c := d.cfg
  let seat := c.nodeSeat i
  let s := d.node i
  let hit := if s.alarm then decide (4 * rbp < ((3 * c.bpRES_ALARM seat : Nat) : Int))
    else decide ((c.bpRES_ALARM seat : Int) ≤ rbp)
  let run := if hit then min (s.run + 1) 15 else 0
  if hit = false ∨ run < c.bpNODE_N seat then d.onNode i fun s => { s with run } else
  let d := d.onNode i fun x => { x with run := 0, alarm := !s.alarm }
  if s.alarm then d.record 0x1440 1 seat i []
  else (d.bump Reg.BAL_SEAT_CNT_2.NODE_ALARMS 1 seat).raiseFor Stk.BAL.NODE_ALARM seat i [(4, j), (2, wrapI 16 rbp)]

/-- Write an evaluation into a node's history, and count it (R233). -/
def Dev.writeEval (d : Dev) (i j : Nat) (e : NodeEval) : Dev :=
  let seat := d.cfg.nodeSeat i
  let d := if e.scored then (d.nodeAlarm i j e.rbp).onNode i fun s => { s with sNode := e.sNode, sIdx := some j } else d
  let d := d.onNode i fun s => { s with hist := (nodeEntry i j e s.alarm :: s.hist).take d.cfg.hDepth, histN := s.histN + 1 }
  let d := d.count Reg.BAL_SEAT_CNT_0.EVALS 1 seat
  let d := if bitOf e.flags 1 then d.bump Reg.BAL_SEAT_CNT_1.INCOMPLETE 1 seat else d
  if e.scored then d else d.bump Reg.BAL_SEAT_CNT_1.UNSCORED 1 seat

/-! ### The dealer's part (R244) -/

/-- The body of a partial (R243). -/
def partialBytes (gnode j : Nat) (p : Partial) : Bytes :=
  let b := leBytes 4 gnode ++ leBytes 4 j ++ leBytes 1 p.pos ++ leBytes 1 (b2n p.home + 2 * b2n p.estIn) ++ zeros 2 ++
    leBytes 6 (wrapI 48 p.eIn) ++ leBytes 6 (wrapI 48 p.eOut) ++ leBytes 4 p.lTech ++ leBytes 4 p.lDrop ++ leBytes 4 p.eEst
  b ++ leBytes 4 (sealOf b)

/-- The body of a result (R244). -/
def resultBytes (gnode j : Nat) (e : NodeEval) : Bytes :=
  let b := leBytes 4 gnode ++ leBytes 4 j ++ leBytes 2 (wrapI 16 e.rbp) ++ leBytes 1 e.sNode ++ leBytes 1 e.flags
  b ++ leBytes 4 (sealOf b)

/-- This position's node with a cascade-wide number. -/
def Canvas.spanNode (c : Canvas) (g : Nat) : Option Nat := (List.range (nNode c)).find? fun i => nodeSpan c i && nodeG c i == g

/-- The seat at which the dealer counts a cascade-wide node: that of its own node of that number, else seat 0. -/
def Dev.spanSeat (d : Dev) (g : Nat) : Nat := ((d.cfg.spanNode g).map d.cfg.nodeSeat).getD 0

/-- The node that an event of a cascade-wide node names. -/
def Dev.spanIdx (d : Dev) (g : Nat) : Nat := (d.cfg.spanNode g).getD noIdx

/-- A partial is missing or bad (R244). -/
def Dev.xMiss (d : Dev) (g : Nat) : Dev := d.bump Reg.BAL_SEAT_CNT_5.XMISS 1 (d.spanSeat g)

/-- What RESULT leaves open in a history entry: the energies and the loss (uses 20 to 22). -/
def useEIn : Nat := 20
def useEOut : Nat := 21
def useLTech : Nat := 22

/-- RESULT (R244): a position writes the dealer's result into the history of its node, under R234 and R235. -/
def Dev.result (d : Dev) (bs : Bytes) : Dev :=
  let g := u bs 0 4
  let j := u bs 4 4
  match d.cfg.spanNode g with
  | none => d
  | some i =>
    if sealOf (slice bs 0 12) ≠ u bs 12 4 then d else
    let fl := u bs 11 1
    let e : NodeEval :=
      { eIn := sgn 48 (d.fresh useEIn (2 ^ 48)), eOut := sgn 48 (d.fresh useEOut (2 ^ 48))
        lTech := (d.fresh useLTech (2 ^ 32) : Nat), lDrop := 0
        rbp := sgn 16 (u bs 8 2), sNode := u bs 10 1
        flags := fl % 8 + 16 + 32 * b2n (bitOf fl 5), scored := fl % 8 == 0 && !bitOf fl 5 }
    d.took.writeEval i j e

/-- The dealer evaluates a collection and returns its result to every position that sent a partial (R244). -/
def Dev.evalSpan (d : Dev) (k : Collect) : Dev :=
  let c := d.cfg
  let own := c.spanNode k.gnode
  let seat := d.spanSeat k.gnode
  let home := k.parts.find? (·.home)
  let npart := (own.map c.nodeNpart).getD 0
  let missing := own.isNone || decide (k.parts.length < npart) || home.isNone
  let sum : NodeSum :=
    { eOut := k.parts.foldl (fun a p => a + p.eOut) 0
      lDrop := k.parts.foldl (fun a p => a + (p.lDrop : Int)) 0
      est := k.parts.foldl (fun a p => a + p.eEst) 0
      supOk := (home.map fun p => !p.estIn).getD false }
  let estIn := (home.map (·.estIn)).getD false
  let e := scoreNode c seat sum ((home.map (·.eIn)).getD 0) ((home.map fun p => (p.lTech : Int)).getD 0)
    home.isSome missing true estIn
  let bs := resultBytes k.gnode k.idx e
  let d := { d with bal := { d.bal with collects := d.bal.collects.map fun x =>
    if x.gnode = k.gnode ∧ x.idx = k.idx then { x with done := true } else x } }
  let d := if missing then (d.xMiss k.gnode).raiseFor Stk.BAL.XMISS seat (d.spanIdx k.gnode) else d
  k.parts.foldl (fun d p => if p.pos = d.pos then d.result bs else d.dealSend tyPARTIAL p.pos false bs) d

/-- PARTIAL (R244): the dealer takes a partial, and evaluates once it holds NPART of them. -/
def Dev.partialIn (d : Dev) (bs : Bytes) : Dev :=
  let g := u bs 0 4
  let j := u bs 4 4
  if !d.isDealer then d
  else if sealOf (slice bs 0 36) ≠ u bs 36 4 then d.xMiss g
  else
    let p : Partial :=
      { pos := u bs 8 1, home := bitOf (u bs 9 1) 0, estIn := bitOf (u bs 9 1) 1, eIn := sgn 48 (u bs 12 6)
        eOut := sgn 48 (u bs 18 6), lTech := u bs 24 4, lDrop := u bs 28 4, eEst := u bs 32 4 }
    let mine := fun (k : Collect) => k.gnode == g && k.idx == j
    let k := (d.bal.collects.find? mine).getD { gnode := g, idx := j, since := d.time.tick, parts := [] }
    if k.done then
      (d.bump Reg.BAL_SEAT_CNT_5.XLATE 1 (d.spanSeat g)).raiseFor Stk.BAL.XLATE (d.spanSeat g) (d.spanIdx g)
    else
      let k := { k with parts := k.parts.filter (fun q => q.pos != p.pos) ++ [p] }
      let d := { d with bal := { d.bal with collects := d.bal.collects.filter (fun x => !mine x) ++ [k] } }
      match d.cfg.spanNode g with
      | some i => if d.cfg.nodeNpart i ≤ k.parts.length then d.evalSpan k else d
      | none => d

/-- SPAN_EVAL_TIMEOUT (R244): collections whose first partial is XWAIT ticks old are evaluated. -/
def Dev.spanTimeout (d : Dev) : Dev :=
  if !d.isDealer then d else
  (d.bal.collects.filter fun k => !k.done && decide (k.since + d.cfg.xWait ≤ d.time.tick)).foldl Dev.evalSpan d

/-- A change of dealer abandons every collection in progress (R244). -/
def Dev.dropCollects (d : Dev) : Dev := { d with bal := { d.bal with collects := [] } }

/-! ### Evaluating a boundary (R231, R243) -/

/-- Boundaries of a seat's billing period that have been found and not evaluated, in boundary order. -/
def Dev.evalPending (d : Dev) (n : Nat) : List Bound :=
  let sec : Int := (60 * d.cfg.seatPeriod n : Nat)
  d.time.bounds.filter fun b => b.seat == n && sec != 0 && Int.fmod b.utc sec == 0 &&
    decide (SMap.get (fun _ => (-1 : Int)) d.bal.evalTo n < b.utc)

/-- Does a boundary's close run as a catch-up close: an earlier boundary of the seat has the same boundary tick (R67)? -/
def Dev.isCatchUp (d : Dev) (b : Bound) : Bool :=
  d.time.bounds.any fun x => x.seat == b.seat && x.tick == b.tick && decide (x.utc < b.utc)

/-- Does a slot's close of a boundary, or of an earlier one, wait? -/
def Dev.waitsFor (d : Dev) (b : Bound) (slot : Nat) : Bool :=
  d.cfg.seatOfSlot slot == some b.seat && (d.pendingBounds slot).any fun x => decide (x.utc ≤ b.utc)

/-- Are closes of a boundary still to be made? -/
def Dev.closesLeft (d : Dev) (b : Bound) : Bool :=
  decide (d.time.tick < b.tick + d.cfg.span) || (d.ldg.spill.any fun s => d.cfg.seatOfSlot s.1 == some b.seat) ||
    d.ldg.ledgers.any fun l => d.waitsFor b l.1

/-- The tick in which a boundary's evaluation falls due (R231): B + SPAN + 2, or two ticks after the last of the boundary's closes
where they run as catch-up closes; none while such closes are still to be made. -/
def Dev.evalAt (d : Dev) (b : Bound) : Option Nat :=
  match d.bal.caught.find? fun x => x.seat == b.seat && x.utc == b.utc with
  | some x => if d.closesLeft b then none else some (x.tick + 2)
  | none =>
    let late := d.isCatchUp b || d.ldg.ledgers.any fun l => l.2.catching && d.waitsFor b l.1
    if late && d.closesLeft b then none else some (b.tick + d.cfg.span + 2)

/-- Is the evaluation of a boundary due (R231)? -/
def Dev.evalDue (d : Dev) (b : Bound) : Bool := (d.evalAt b).any fun u => decide (u ≤ d.time.tick)

/-- Is the evaluation of `b` abandoned: that of `b2`, two boundaries later, has fallen due after it, or in the same tick, which has
ended (log entry 239)? -/
def Dev.evalLost (d : Dev) (b b2 : Bound) : Bool :=
  (d.evalAt b2).any fun u =>
    decide (u < d.time.tick) || (decide (u = d.time.tick) && (d.evalAt b).all fun v => decide (v < u))

/-- The interval j = k − LAG that a boundary evaluates. -/
def Dev.evalIdx (d : Dev) (b : Bound) : Option Nat :=
  let k := (Int.fdiv b.utc (60 * d.cfg.seatPeriod b.seat : Nat)).toNat
  if k < d.cfg.bpLAG b.seat then none else some (k - d.cfg.bpLAG b.seat)

/-- The sums of node `i` for interval `j`: its accumulator and what its children have given. -/
def Dev.nodeSum (d : Dev) (i j : Nat) (kids : SMap NodeSum) : NodeSum :=
  let s := SMap.get (fun _ => ({} : NodeSum)) kids i
  match d.bal.acc.find? fun a => a.node == i && a.idx == j with
  | some a =>
    { eOut := s.eOut + a.net, lDrop := s.lDrop + a.lDrop, est := s.est + a.est
      supply := (a.supply.map (·.1)).getD 0, supOk := (a.supply.map fun x => !x.2).getD false }
  | none => s

/-- The partial of a spanning node (R243). -/
def Dev.sendPartial (d : Dev) (i j : Nat) (s : NodeSum) (e : NodeEval) : Dev :=
  if !d.isActive then d else
  let home := d.cfg.nodeHome i == d.pos
  let p : Partial :=
    { pos := d.pos, home, estIn := home && !s.supOk, eIn := if home then s.supply else 0, eOut := s.eOut
      lTech := if home then wrapI 32 e.lTech else 0, lDrop := wrapI 32 s.lDrop, eEst := s.est % 2 ^ 32 }
  let bs := partialBytes (d.cfg.nodeG i) j p
  if d.isDealer then d.partialIn bs else d.toDealer tyPARTIAL false bs

/-- Evaluate node `i`: its result goes into its history, or to the dealer, and up to its parent. -/
def Dev.evalOne (j : Nat) (incomplete : Bool) (x : Dev × SMap NodeSum) (i : Nat) : Dev × SMap NodeSum :=
  let (d, kids) := x
  let s := d.nodeSum i j kids
  let e := d.cfg.evalNode i s incomplete
  let d := if d.cfg.nodeSpan i && !incomplete then d.sendPartial i j s e
    else d.writeEval i j { e with flags := e.flags + 16 * b2n (d.cfg.nodeSpan i) }
  match d.cfg.nodeParent i with
  | some p => (d, SMap.upd (fun _ => {}) kids p fun k =>
      { k with eOut := k.eOut + e.eIn, lDrop := k.lDrop + s.lDrop, est := k.est + s.est })
  | none => (d, kids)

/-- Evaluate a boundary: the nodes of its seat from the highest index down. -/
def Dev.evalBound (d : Dev) (b : Bound) (incomplete : Bool) : Dev :=
  let d0 := { d with bal := { d.bal with
    evalTo := SMap.put d.bal.evalTo b.seat b.utc
    caught := d.bal.caught.filter fun x => !(x.seat == b.seat && decide (x.utc ≤ b.utc)) } }
  match d.evalIdx b with
  | none => d0
  | some j =>
    let mine := ((List.range d.cfg.nNode).filter fun i => d.cfg.nodeSeat i == b.seat).reverse
    let d1 := (mine.foldl (Dev.evalOne j (incomplete || decide (b.tick < d.bal.topoTick))) (d0, [])).1
    let d2 := { d1 with bal := { d1.bal with acc := d1.bal.acc.filter fun a => !(a.idx == j && mine.contains a.node) } }
    d2.wr Reg.BAL_LAST_IDX.IDX j

/-- Abandon every evaluation of a seat that still waits when the one two boundaries later is due (R231). -/
def Dev.abandonEvals (d : Dev) (n : Nat) : List Bound → Dev
  | b :: b1 :: b2 :: rest =>
    if d.evalLost b b2 then ((d.evalBound b true).raiseFor Stk.BAL.BACKLOG n n).abandonEvals n (b1 :: b2 :: rest) else d
  | _ => d

/-- NODE_EVALUATE (R231): the first boundary of a seat whose evaluation is due. `cost` is the cycles that it still needs: what does not
fit into the tick's budget goes on in the next tick (R56). -/
def Dev.nodeEvaluate (d : Dev) (n cost : Nat) : Dev :=
  if !d.cfg.hasTopo then d else
  let d := d.abandonEvals n (d.evalPending n)
  match d.evalPending n with
  | b :: _ =>
    if d.evalDue b then
      let used := min d.budget (d.bal.used + cost)
      let e := { d with bal := { d.bal with used } }
      if d.bal.used + cost ≤ d.budget then e.evalBound b false else e
    else d
  | [] => d

/-- Results become visible to the ledger engines at the boundary (R235), and the engine's budget opens (R56). -/
def Dev.balVisible (d : Dev) : Dev :=
  { d with bal := { d.bal with
    used := 0
    nodes := d.bal.nodes.map fun p => (p.1, { p.2 with visS := p.2.sNode, visIdx := p.2.sIdx, visRef := p.2.ref }) } }

/-! ### Orders of a slot's tracker (R242) -/

/-- A tracker order of seat `n` for its selected slot. -/
def Dev.balOrder (d : Dev) (n : Nat) (w : Work) : Dev :=
  let slot := d.rd Reg.BAL_SLOT_SEL.INDEX 0 n
  if d.cfg.seatOfSlot slot = some n then d.admitOrder slot n w
  else d.raiseCopy Stk.BAL_SLOT_CTL.REJ n

/-- BAL_REBASE. -/
def Dev.balRebase (d : Dev) (n : Nat) : Dev := d.balOrder n .rebase

/-- BAL_RESET_TRACK. -/
def Dev.balReset (d : Dev) (n : Nat) : Dev := d.balOrder n .resetTrack

/-- A write of BAL_SLOT_CTL: its orders in bit order; REJ is cleared by writing it as one. -/
def Dev.balCtl (d : Dev) (n v : Nat) : Dev :=
  let d := if bitOf v 0 then d.balRebase n else d
  let d := if bitOf v 1 then d.balReset n else d
  if bitOf v 2 then d.wr Reg.BAL_SLOT_CTL.REJ 0 0 n else d

/-! ### A change of topology (R245) -/

/-- What a slot keeps when its drop record changes. -/
def BalBlk.regoverned (b : BalBlk) : BalBlk := { b with vmean := 0, vvar := 0, cov := [0, 0, 0], csamp := 0, phase := 0, afl := 0 }

/-- The topology of the canvas now running replaces that of `old`, at the boundary that opened this tick. -/
def Dev.topoChange (d : Dev) (old : Canvas) : Dev :=
  let c := d.cfg
  if old.body Canvas.tyTOPOLOGY = c.body Canvas.tyTOPOLOGY then d else
  let same := fun (i : Nat) => decide (i < c.nNode) && decide (i < old.nNode) && old.nodeRec i == c.nodeRec i
  let d := { d with bal := { d.bal with
    acc := [], topoTick := d.time.tick, nodes := d.bal.nodes.filter fun p => same p.1 } }
  let changed := d.ldg.ledgers.filter fun p => old.dropOf p.1 != c.dropOf p.1
  changed.foldl (fun d p => d.commitLedger p.1 { p.2 with bal := p.2.bal.regoverned }) d

end Sys2Proof.Machine
end

