-- ==== Sys2Proof/Machine/Journal.lean ====
section
/-!
DEFINITION. The journal's commit, ledger fences, orders of a seat for its slots, and the reset of the ledger fabric
(R25 to R29, R50, R193, R205, R212, R275, R340).
-/

namespace Sys2Proof.Machine

/-! ### Deltas of a tick -/

/-- The entries of `b` over those of `a`. -/
def SMap.over {α : Type} (a b : SMap α) : SMap α := b.foldl (fun m p => SMap.put m p.1 p.2) a

/-- The deltas of `b` after those of `a`. -/
def JTick.merge (a b : JTick) : JTick :=
  { tick := b.tick
    recs := a.recs ++ b.recs
    others := a.others ++ b.others
    ledgers := SMap.over a.ledgers b.ledgers
    blocks := b.blocks.foldl (fun m p => SMap.upd (fun _ => 0) m p.1 (· ||| p.2)) a.blocks
    keys := SMap.over a.keys b.keys
    dir := a.dir ++ b.dir
    camps := SMap.over a.camps b.camps
    ceils := SMap.over a.ceils b.ceils }

/-- Bits set in a block mask. -/
def bitCount (m : Nat) : Nat := ((List.range 32).filter (bitOf m)).length

/-- Bytes of the items of a tick's deltas (R340): each an item's kind and index before its whole image. -/
def JTick.size (j : JTick) : Nat :=
  j.blocks.foldl (fun a p => a + 72 * bitCount p.2) 0 + 72 * j.keys.length + 40 * j.dir.length + 16 * j.ceils.length +
  j.camps.foldl (fun a c => a + 64 + 8 * c.2.targets.length) 0

/-- The image in NAND after a tick's deltas (R340). -/
def NandImg.take (n : NandImg) (j : JTick) : NandImg :=
  { n with
    ledgers := SMap.over n.ledgers j.ledgers
    keys := SMap.over n.keys j.keys
    adir := j.dir.foldl adirApply n.adir
    camps := SMap.over n.camps j.camps
    ceils := SMap.over n.ceils j.ceils
    high := some (max (n.high.getD 0) j.tick) }

/-! ### Committed canvases (R47, R50, R52) -/

/-- Mark a store committed. -/
def CanvasSt.commitStore (c : CanvasSt) (s : Nat) : CanvasSt :=
  if s = 0 then { c with store0 := { c.store0 with committed := true } }
  else { c with store1 := { c.store1 with committed := true } }

/-- Raise the canvas floor to a serial, or keep it if already higher (R47): counter 2 keeps its owner generation. -/
def Dev.raiseFloor (d : Dev) (serial : Nat) : Dev :=
  let c := d.counter 2
  if c % 2 ^ 32 < serial then d.counterTo 2 (c / 2 ^ 32 * 2 ^ 32 + serial) else d

/-- A canvas is committed: the floor becomes the serial it replaces, and a serial of 2^32 − 1 is the last (R47). -/
def Dev.canvasCommitted (d : Dev) (k : CvCommit) : Dev :=
  let d : Dev := { d with cv := { (d.cv.commitStore k.store) with commit := none, staged := none } }
  let d := d.raiseFloor k.oldSerial
  let d := if Canvas.serial k.bytes = 2 ^ 32 - 1 then d.raise Stk.CANVAS.FLOOR_SAT else d
  if k.mode = 1 then (d.wr Reg.CANVAS_STAT.COMMITTED 1).wr Reg.CANVAS_STAT.STATE 0
  else ({ d with cv := { d.cv with runStore := some k.store } } : Dev).wr Reg.CANVAS_STAT.STATE 0

/-! ### JOURNAL_COMMIT (R26) -/

/-- Write one tick's deltas: at least a page of the journal, then what its commit completes. -/
def Dev.commitTick (d : Dev) (j : JTick) : Dev :=
  let d := (List.range (max 1 (pagesOf j.size))).foldl (fun d _ => d.journalPage j.tick) d
  let d := { d with ldg := { d.ldg with nand := d.ldg.nand.take j } }
  let keys := d.vault.meterKeys.filter fun k => k.tick ≤ j.tick
  let d := { d with vault := { d.vault with meterKeys := d.vault.meterKeys.filter fun k => j.tick < k.tick } }
  let d := keys.foldl (fun d k => d.vresult k.seat 0 5 0) d
  match d.cv.commit with
  | some k => if k.tick ≤ j.tick then d.canvasCommitted k else d
  | none => d

/-- JOURNAL_COMMIT (R26): the oldest tick that waits, or the running tick's deltas so far, reach the NAND one-bit region. -/
def Dev.journalCommit (d : Dev) : Dev :=
  if !d.ftlReady then d else
  match d.ldg.jwait with
  | j :: js => ({ d with ldg := { d.ldg with jwait := js } } : Dev).commitTick j
  | [] =>
    let j := { d.ldg.jrn with tick := d.time.tick }
    let d1 : Dev := { d with ldg := { d.ldg with jrn := {}, jdone := d.ldg.jdone.merge j } }
    d1.commitTick j

/-! ### Ledger fences (R25 to R28) -/

/-- LDG_FENCE (R25, R28, R30): the fence cuts the seat's admission sequence here, or is rejected. -/
def Dev.ldgFence (d : Dev) (n v : Nat) : Dev :=
  let s := d.seat n
  let db := bitsOf v 22 18
  let notify := bitOf v 17
  if 4 ≤ s.fences.length ∨ (notify = true ∧ 28 ≤ db) then d.raiseCopy Stk.LDG_FENCE_STAT.REJ n else
  let f : Fence := { tag := bitsOf v 15 0, mark := bitOf v 16, notify, db, cut := s.nextAseq, tick := d.time.tick }
  (d.onSeat n fun s => { s with fences := s.fences ++ [f] }).wr Reg.LDG_FENCE_STAT.OUTSTANDING (s.fences.length + 1) 0 n

/-- Does a seat's admission number of an opening lie before a cut of its present opening? -/
def SeatSt.beforeCut (s : SeatSt) (cut opening aseq : Nat) : Bool := opening != s.opening || decide (aseq < cut)

/-- Does an item of the seat from before a fence still wait in a queue or with a held slot? -/
def Dev.fenceQueued (d : Dev) (n cut : Nat) : Bool :=
  let pre := fun (q : QItem) => q.seat == n && (d.seat n).beforeCut cut q.opening q.aseq
  (d.ldg.engines.any fun e => e.2.inq.any pre || e.2.carry.any pre) || d.ldg.ledgers.any fun l => l.2.held.any pre

/-- Are deltas of a pre-fence record or order not yet committed? -/
def Dev.fenceUnwritten (d : Dev) (n cut : Nat) : Bool :=
  let pre := fun (r : JRec) => r.seat == n && (d.seat n).beforeCut cut r.opening r.aseq
  (d.ldg.jwait ++ [d.ldg.jrn]).any fun j => j.recs.any pre || j.others.any pre

/-- How many of a seat's oldest fences this boundary completes: every record before the fence is applied and every delta of those
records committed (R26, R28). -/
def Dev.fencesDue (d : Dev) (n : Nat) : List Fence → Nat
  | [] => 0
  | f :: fs =>
    if d.time.tick < f.tick + 2 || d.fenceQueued n f.cut || d.fenceUnwritten n f.cut then 0 else 1 + d.fencesDue n fs

/-- The boundary finds the fences of every seat that it completes. -/
def Dev.findFences (d : Dev) : Dev :=
  d.cfg.seats.foldl (fun d n => d.onSeat n fun s => { s with fencesDue := d.fencesDue n s.fences }) d

/-- FENCE_COMPLETE (R26 to R28, R31): the seat's oldest fence completes at the boundary that opened this tick. -/
def Dev.fenceComplete (d : Dev) (n : Nat) : Dev :=
  match (d.seat n).fences with
  | [] => d
  | f :: fs =>
    if (d.seat n).fencesDue = 0 then d else
    let due : MarkDue :=
      { tag := f.tag, opening := (d.seat n).opening, cut := f.cut, tick := d.time.tick - 1, paths := d.cfg.seatPaths n }
    let d := d.onSeat n fun s => { s with
      fences := fs, fencesDue := s.fencesDue - 1, marks := if f.mark then s.marks ++ [due] else s.marks }
    let d := (d.wr Reg.LDG_FENCE_STAT.DONE_TAG f.tag 0 n).wr Reg.LDG_FENCE_STAT.OUTSTANDING fs.length 0 n
    if f.notify then d.ringSeat n f.db else d

/-! ### Orders (R193, R212) -/

/-- LDG_RERATE_GO (R193): one re-rate order for each slot of the range, or a refusal. -/
def Dev.rerateGo (d : Dev) (n : Nat) : Dev :=
  let a := d.rd Reg.LDG_RERATE_FIRST.SLOT 0 n
  let b := d.rd Reg.LDG_RERATE_LAST.SLOT 0 n
  let inside := decide (a ≤ b) && d.cfg.seatOfSlot a == some n && d.cfg.seatOfSlot b == some n
  if !d.on Reg.TIME_STAT.VALID || decide (65536 < b + 1 - a) || !inside || d.on Reg.LDG_RERATE_CTL.BUSY 0 n then
    d.raiseCopy Stk.LDG_RERATE_CTL.REJ n
  else
    let k := b + 1 - a
    let d := d.wr Reg.LDG_RERATE_CTL.BUSY 1 0 n
    let go := SMap.get (fun _ => 0) d.ldg.rerateGo n + 1
    let d := { d with ldg := { d.ldg with
      rerate := SMap.set (fun _ => 0) d.ldg.rerate n k, rerateGo := SMap.set (fun _ => 0) d.ldg.rerateGo n go } }
    (List.range k).foldl (fun d i => d.admitOrder (a + i) n (.rerate go)) d

/-- The results of an action that the device answers (R211, R212). -/
def actOk : Nat := 0
def actTemporary : Nat := 2
def actDenied : Nat := 3

/-- BILLING_CLOSE_ACTION (R212): method 1 of the billing close object admits a billing order, or answers temporary-failure;
the answer is the action's result. -/
def Dev.billingAction (d : Dev) (n slot : Nat) : Dev × Nat :=
  if d.on Reg.TIME_STAT.VALID then (d.admitOrder slot n .billing, actOk) else (d, actTemporary)

/-! ### L3 (R205, R29, R213, R369) -/

/-- L3 restarts the engines and the shadow; queues and ledgers are kept, every seat's fences are discarded. -/
def Dev.l3 (d : Dev) (source : Nat) : Dev :=
  if d.sys.phase ≠ .up then d else
  let d := d.resetCause source 3 false false
  let d := (List.range 64).foldl (fun d n =>
    (((d.discardFences n).wr Reg.LDG_FENCE_STAT.DONE_TAG 0 0 n).wr Reg.LDG_RERATE_CTL.BUSY 0 0 n)) d
  let d := (d.wr Reg.LDG_SHADOW.ENG 0).wr Reg.LDG_SHADOW.RECS 0
  { d with ldg := { d.ldg with
    rerate := [], shadowLast := [], shadowCur := [], shadowUsed := 0, shadowRecs := 0, shadowStopped := false } }

end Sys2Proof.Machine
end

