-- ==== Sys2Proof/Machine/Parts/Arrays.lean ====
section
/-!
DEFINITION. The addressed memories of the device as arrays of bytes with a check state for every word: SRAM and DRAM
(R304 to R314). They hold what the memory commands read and write; the structures that the spec places in them by name
(ledgers, key records, queues) are parts of the state of their own.
-/

namespace Sys2Proof.Machine

/-- The check state of a word: a correctable error, an uncorrectable one not found yet, or poison (R308). -/
inductive WordEcc where
  | clean | single | double | poison
  deriving DecidableEq, Repr

/-- What an access does to its word (R306). -/
inductive AccKind where
  | read | write | atomic
  deriving DecidableEq, Repr

/-- An access that still holds its word (R306): requester, word, kind and cycle of issue. -/
structure Inflight where
  req : Nat
  word : Nat
  kind : AccKind
  cyc : Nat
  deriving DecidableEq, Repr

/-- One memory: its bytes in canonical form, and its words that are not clean. -/
structure MemArray where
  cells : List Host.Cell := []
  ecc : SMap WordEcc := []
  deriving DecidableEq, Repr

/-- The addressed memories. -/
structure Arrays where
  sram : MemArray := {}
  dram : MemArray := {}
  /-- Accesses that still hold their words. -/
  inflight : List Inflight := []
  /-- Consecutive refusals of a requester at a bank, keyed 64 × bank + requester (R305). -/
  refused : SMap Nat := []
  /-- Answers of the last cycles, newest first. -/
  resp : List MemResp := []
  /-- Counter value of each bank's last access (R310). -/
  bankUse : SMap Nat := []
  /-- Banks in retention (R310). -/
  retained : List Nat := []
  /-- Spare columns assigned by fuses and by the test, per bank (R312). -/
  fused : SMap Nat := []
  soft : SMap Nat := []
  /-- Counter value of each DRAM channel's last access, and channels in power-down (R311, R382). -/
  chanUse : SMap Nat := []
  chanDown : List Nat := []
  deriving DecidableEq, Repr

/-- What a byte of memory that nothing has written reads as. -/
def cell0 : Nat → BitVec 8 := fun _ => 0

/-- The canonical form of a memory: addresses strictly rising, and no entry equal to what an unlisted byte reads as. -/
def MemArray.wf (m : MemArray) : Bool := SMap.wf cell0 m.cells && SMap.wf (fun _ => WordEcc.clean) m.ecc

end Sys2Proof.Machine
end

