-- ==== Sys2Proof/Machine/Memory.lean ====
section
/-!
DEFINITION. The addressed memories: SRAM accesses with ageing and same-word collisions, atomic operations, partial writes
and poison, scrubbing, and the power states of banks and channels (R304 to R314, R382).
-/

namespace Sys2Proof.Machine

/-- Bytes of the SRAM (R304) and of the DRAM (R313). -/
def sramBytes : Nat := 2 ^ 27
def dramBytes : Nat := 2 ^ 34

/-- The bank of an SRAM word: 16 × group + bank in group (R304). -/
def bankOf (w : Nat) : Nat := 16 * bitsOf w 23 20 + w % 16

/-- The channel of a DRAM byte address: bits [9:8] (R313). -/
def chanOf (addr : Nat) : Nat := bitsOf addr 9 8

/-- The byte at an address. -/
def MemArray.byte (m : MemArray) (a : Nat) : Byte := SMap.get cell0 m.cells a

/-- Write bytes from an address up. -/
def MemArray.poke (m : MemArray) (a : Nat) : Bytes → MemArray
  | [] => m
  | b :: bs => MemArray.poke { m with cells := SMap.set cell0 m.cells a b } (a + 1) bs

/-- The `n` bytes from an address, as a little-endian number. -/
def MemArray.peek (m : MemArray) (a n : Nat) : Nat := ofLe ((List.range n).map fun i => m.byte (a + i))

/-- The check state of a word. -/
def MemArray.check (m : MemArray) (w : Nat) : WordEcc := SMap.get (fun _ => WordEcc.clean) m.ecc w

/-- Set the check state of a word. -/
def MemArray.setCheck (m : MemArray) (w : Nat) (e : WordEcc) : MemArray :=
  { m with ecc := SMap.set (fun _ => WordEcc.clean) m.ecc w e }

/-- Upsets that an access meets: a word that is clean takes the error; a poisoned word stays poisoned (R308). -/
def MemArray.upset (m : MemArray) (us : List Upset) : MemArray :=
  us.foldl (fun m x =>
    match m.check x.word with
    | .poison => m
    | _ => m.setCheck x.word (if x.double then .double else .single)) m

/-- A word found uncorrectable is rewritten with the poison pattern and reported once (R308). -/
def sramFoundBad (a : Arrays) (d : Dev) (w : Nat) : Arrays × Dev :=
  ({ a with sram := a.sram.setCheck w .poison },
   (d.bump Reg.MEM_SRAM_ECC.UNC).raise Stk.MEM.SRAM_UNC noIdx [(4, 8 * w)])

/-- A refused partial write: the word stays poisoned and an event carries the address (R308). -/
def sramKeepPoison (a : Arrays) (d : Dev) (w : Nat) : Arrays × Dev :=
  ({ a with sram := a.sram.setCheck w .poison },
   (d.bump Reg.MEM_SRAM_MERGE.POISON_KEEP).raise Stk.MEM.PARTIAL_POISON noIdx [(4, 8 * w)])

/-- A write to SRAM: a whole word takes fresh check bits; fewer bytes are merged (R308). -/
def sramWrite (a : Arrays) (d : Dev) (addr : Nat) (bs : Bytes) : Arrays × Dev :=
  let w := addr / 8
  if bs.length = 8 then ({ a with sram := (a.sram.poke addr bs).setCheck w .clean }, d) else
  match a.sram.check w with
  | .clean => ({ a with sram := a.sram.poke addr bs }, d)
  | .single => ({ a with sram := (a.sram.poke addr bs).setCheck w .clean }, d.bump Reg.MEM_SRAM_MERGE.COR_MERGE)
  | _ => sramKeepPoison a d w

/-- Is the group of a bank off, or failed (R310, R312)? -/
def Dev.groupOff (d : Dev) (bank : Nat) : Bool := bitOf (d.rd Reg.MEM_SRAM_STAT.OFF) (bank / 16)
def Dev.groupFailed (d : Dev) (bank : Nat) : Bool := bitOf (d.rd Reg.MEM_SRAM_STAT.FAILED) (bank / 16)

/-- Accesses still holding their words at a cycle: two cycles, or four for an atomic (R306, R307). -/
def Arrays.prune (a : Arrays) (c : Nat) : Arrays :=
  { a with inflight := a.inflight.filter fun i => c < i.cyc + (if i.kind == .atomic then 4 else 2) }

/-- An earlier access of a kind to a word that still holds it. -/
def Arrays.holder (a : Arrays) (w : Nat) (k : AccKind) : Option Inflight :=
  a.inflight.find? fun i => i.word == w && i.kind == k

/-- A collision between a read and a write is counted and named (R306). -/
def Dev.collide (d : Dev) (bank later earlier : Nat) (wlate : Bool) : Dev :=
  let d := d.bump Reg.MEM_COLLIDE.COUNT
  let d := d.wr Reg.MEM_COLLIDE_LAST.BANK bank
  let d := d.wr Reg.MEM_COLLIDE_LAST.LATER later
  let d := d.wr Reg.MEM_COLLIDE_LAST.EARLIER earlier
  d.wr Reg.MEM_COLLIDE_LAST.WLATE (b2n wlate)

/-- The uses of free values by the memories: the data of a read overtaken by a write (R306), and what a failed group
reads as. -/
def useCollide : Nat := 1
def useFailedGroup : Nat := 2

/-- An access to a bank: it is no longer idle, and it returns from retention to on (R310). -/
def Arrays.touch (a : Arrays) (bank c : Nat) : Arrays :=
  { a with
    bankUse := SMap.set (fun _ => 0) a.bankUse bank c
    retained := a.retained.filter (· != bank) }

/-- Answer a request. -/
def Arrays.answer (a : Arrays) (r : MemResp) : Arrays := { a with resp := r :: a.resp }

/-- One access of a served requester at cycle `c` (R305, R306, R308 to R310). -/
def sramOne (p : Arrays × Dev) (c : Nat) (r : MemReq) : Arrays × Dev :=
  let w := r.addr / 8
  let bank := bankOf w
  let a := p.1.touch bank c
  let d := p.2
  let reply := fun data busy poison => { req := r.req, addr := r.addr, cyc := c, data, busy, poison : MemResp }
  if d.groupOff bank then (a.answer (reply 0 false false), d.raise Stk.MEM.OFF_ACCESS)
  else if d.groupFailed bank then (a.answer (reply (d.fresh useFailedGroup (2 ^ 64)) false false), d.took)
  else
  let atomicHeld := (a.holder w .atomic).isSome
  match r.wdata with
  | some bs =>
    let q := sramWrite a d r.addr bs
    let a1 := { q.1 with inflight := { req := r.req, word := w, kind := .write, cyc := c } :: q.1.inflight }
    if atomicHeld then (a1.answer (reply 0 true false), q.2) else
    match a.holder w .read with
    | some e =>
      let v := q.2.fresh useCollide (2 ^ 64)
      let a2 := { a1 with resp := a1.resp.map fun (x : MemResp) =>
        if x.req == e.req && x.cyc == e.cyc && x.addr / 8 == w then { x with data := v } else x }
      (a2.answer (reply 0 true false), (q.2.took.collide bank r.req e.req true).raise Stk.MEM.COLLIDE)
    | none => (a1.answer (reply 0 false false), q.2)
  | none =>
    let a1 := { a with inflight := { req := r.req, word := w, kind := .read, cyc := c } :: a.inflight }
    let hit := a.holder w .write
    let busy := atomicHeld || hit.isSome
    let d := match atomicHeld, hit with
      | false, some e => d.collide bank r.req e.req false
      | _, _ => d
    let data := a.sram.peek (8 * w) 8
    match a.sram.check w with
    | .clean => (a1.answer (reply data busy false), d)
    | .single => (a1.answer (reply data busy false), d.bump Reg.MEM_SRAM_ECC.COR)
    | .double => let q := sramFoundBad a1 d w; (q.1.answer (reply data busy true), q.2)
    | .poison => (a1.answer (reply data busy true), d)

/-- Consecutive refusals of a requester at a bank. -/
def Arrays.refusals (a : Arrays) (bank req : Nat) : Nat := SMap.get (fun _ => 0) a.refused (64 * bank + req)

/-- Insert into a list kept in order of a measure, after its equals. -/
def insertBy {α : Type} (m : α → Nat) (x : α) : List α → List α
  | [] => [x]
  | y :: ys => if m x < m y then x :: y :: ys else y :: insertBy m x ys

/-- Sort by a measure; equals keep their order. -/
def sortBy {α : Type} (m : α → Nat) (l : List α) : List α := l.foldl (fun a x => insertBy m x a) []

/-- One bank's cycle (R305): requesters refused 16 times first, then lower numbers; two are served, the lower on port 0. -/
def sramBank (p : Arrays × Dev) (c : Nat) (reqs : List MemReq) : Arrays × Dev :=
  match reqs with
  | [] => p
  | r0 :: _ =>
    let bank := bankOf (r0.addr / 8)
    let aged := fun (r : MemReq) => (if p.1.refusals bank r.req ≥ 16 then 0 else 64) + r.req
    let order := sortBy aged reqs
    let served := sortBy (·.req) (order.take 2)
    let freed := served.foldl (fun m r => SMap.set (fun _ => 0) m (64 * bank + r.req) 0) p.1.refused
    let refused := (order.drop 2).foldl (fun m r => SMap.upd (fun _ => 0) m (64 * bank + r.req) fun n => n + 1) freed
    served.foldl (fun p r => sramOne p c r) ({ p.1 with refused }, p.2)

/-- SRAM_ACCESS (R305, R306): the requests of one cycle, each bank serving its own. -/
def sramAccess (p : Arrays × Dev) (c : Nat) (reqs : List MemReq) (ups : List Upset) : Arrays × Dev :=
  let a := { (p.1.prune c) with sram := p.1.sram.upset ups }
  let banks := (reqs.map fun r => bankOf (r.addr / 8)).eraseDups
  banks.foldl (fun p b => sramBank p c (reqs.filter fun r => bankOf (r.addr / 8) == b)) (a, p.2.advance c)

/-- SRAM_ATOMIC (R307): add or swap on one aligned word of `n` bytes; the old value is returned. -/
def sramAtomic (p : Arrays × Dev) (c req addr n : Nat) (op : AtomicOp) (v : Nat) (ups : List Upset) : Arrays × Dev :=
  let w := addr / 8
  let bank := bankOf w
  let a := { (p.1.prune c) with sram := p.1.sram.upset ups }.touch bank c
  let d := p.2.advance c
  let reply := fun data busy poison => { req, addr, cyc := c, data, busy, poison : MemResp }
  if op == .other then (a, d.emit (.coreFault (req - 28)))
  else if d.groupOff bank then (a.answer (reply 0 false false), d.raise Stk.MEM.OFF_ACCESS)
  else if d.groupFailed bank then (a.answer (reply (d.fresh useFailedGroup (2 ^ (8 * n))) false false), d.took)
  else
  let busy := a.inflight.any fun i => i.word == w
  let a1 := { a with inflight := { req, word := w, kind := .atomic, cyc := c } :: a.inflight }
  match a.sram.check w with
  | .double => let q := sramFoundBad a1 d w; (q.1.answer (reply 0 busy true), q.2)
  | .poison => (a1.answer (reply 0 busy true), d)
  | e =>
    let old := a.sram.peek addr n
    let new := match op with
      | .add => (old + v) % 2 ^ (8 * n)
      | _ => v % 2 ^ (8 * n)
    let m := (a1.sram.poke addr (leBytes n new)).setCheck w .clean
    ({ a1 with sram := m }.answer (reply old busy false),
     if e == .single then d.bump Reg.MEM_SRAM_ECC.COR else d)

/-- PARTIAL_WRITE (R308): fewer than eight bytes inside one word, merged, corrected or refused. An SRAM group that is off
ignores the write and sets OFF_ACCESS (R310); a failed one stores nothing (R312, log entry 70). -/
def partialWrite (p : Arrays × Dev) (sel : MemSel) (addr : Nat) (bs : Bytes) (ups : List Upset) : Arrays × Dev :=
  match sel with
  | .sram =>
    let bank := bankOf (addr / 8)
    let a := { p.1 with sram := p.1.sram.upset ups }.touch bank p.2.time.cnt
    if p.2.groupOff bank then (a, p.2.raise Stk.MEM.OFF_ACCESS)
    else if p.2.groupFailed bank then (a, p.2)
    else sramWrite a p.2 addr bs
  | .dram =>
    let m := p.1.dram.upset ups
    let w := addr / 8
    let ch := chanOf addr
    let a := { p.1 with
      chanDown := p.1.chanDown.filter (· != ch)
      chanUse := SMap.set (fun _ => 0) p.1.chanUse ch p.2.time.cnt }
    match m.check w with
    | .clean => ({ a with dram := m.poke addr bs }, p.2)
    | .single => ({ a with dram := (m.poke addr bs).setCheck w .clean }, p.2.bump Reg.MEM_DRAM_ECC.COR 1 ch)
    | _ => ({ a with dram := m.setCheck w .poison },
            (p.2.bump Reg.MEM_DRAM_ECC.UNC 1 ch).raise Stk.MEM.PARTIAL_POISON noIdx [(8, 8 * w)])

/-- PATROL_SCRUB (R304, R308): the scrubber reads a word of a bank that is on and writes back any correction. -/
def patrolScrub (p : Arrays × Dev) (w : Nat) (ups : List Upset) : Arrays × Dev :=
  let a := { p.1 with sram := p.1.sram.upset ups }
  let bank := bankOf w
  if p.2.groupOff bank || p.2.groupFailed bank || a.retained.contains bank then (a, p.2) else
  match a.sram.check w with
  | .single => ({ a with sram := a.sram.setCheck w .clean }, p.2.bump Reg.MEM_SRAM_ECC.COR)
  | .double => sramFoundBad a p.2 w
  | _ => (a, p.2)

/-- DRAM_SCRUB (R313): the scrubber reads a word of DRAM and corrects it; the pass ends at the last word. -/
def dramScrub (p : Arrays × Dev) (w : Nat) (ups : List Upset) : Arrays × Dev :=
  let m := p.1.dram.upset ups
  let ch := chanOf (8 * w)
  let d := p.2.wr Reg.MEM_DRAM_STAT.SCRUB_ACT (b2n (8 * w + 8 < dramBytes))
  match m.check w with
  | .single => ({ p.1 with dram := m.setCheck w .clean }, d.bump Reg.MEM_DRAM_ECC.COR 1 ch)
  | .double => ({ p.1 with dram := m.setCheck w .poison },
                (d.bump Reg.MEM_DRAM_ECC.UNC 1 ch).raise Stk.MEM.DRAM_UNC noIdx [(8, 8 * w)])
  | _ => ({ p.1 with dram := m }, d)

/-- Idle time of a group in ns: IDLE k gives 2^(k−1) µs, 0 never (R311). -/
def Canvas.bankIdleNs (c : Canvas) (g : Nat) : Option Nat :=
  match Canvas.f c Canvas.tyPOWER (4 + g) 1 with
  | 0 => none
  | k + 1 => some (2 ^ k * 1000)

/-- BANK_RETENTION (R310): a bank that has been idle for its group's idle time enters retention. -/
def bankRetention (p : Arrays × Dev) (c bank : Nat) : Arrays × Dev :=
  let d := p.2.advance c
  match d.cfg.bankIdleNs (bank / 16) with
  | none => (p.1, d)
  | some ns =>
    if d.groupOff bank || d.groupFailed bank || p.1.retained.contains bank
        || c < SMap.get (fun _ => 0) p.1.bankUse bank + ns then (p.1, d)
    else ({ p.1 with retained := bank :: p.1.retained }, d)

/-- DRAM_POWER_DOWN (R311, R382): a channel idle for DRAM_PD µs enters power-down. -/
def dramPowerDown (p : Arrays × Dev) (c ch : Nat) : Arrays × Dev :=
  let d := p.2.advance c
  let pd := Canvas.f d.cfg Canvas.tyPOWER 20 2
  if pd = 0 || p.1.chanDown.contains ch || c < SMap.get (fun _ => 0) p.1.chanUse ch + 1000 * pd then (p.1, d)
  else ({ p.1 with chanDown := ch :: p.1.chanDown }, d)

/-- MEM_CLR_COLLIDE (R306): CLR_COLLIDE sets MEM_COLLIDE to 0. -/
def Dev.clrCollide (d : Dev) (v : Nat) : Dev := if bitOf v 0 then d.wr Reg.MEM_COLLIDE.COUNT 0 else d

/-- PSTATE of a bank (R325): 0 on, 1 retention, 2 off, 3 failed. -/
def bankPstate (a : Arrays) (d : Dev) (bank : Nat) : Nat :=
  if d.groupFailed bank then 3 else if d.groupOff bank then 2 else if a.retained.contains bank then 1 else 0

/-- L2 returns every bank that is not off and not failed to on and clears it (R310). -/
def Arrays.clearSram (a : Arrays) : Arrays :=
  { a with sram := {}, inflight := [], refused := [], resp := [], retained := [] }

end Sys2Proof.Machine
end

