-- ==== Sys2Proof/Machine/Reset.lean ====
section
/-!
DEFINITION. Reset sources and levels, the quiesce and the reset proper, supply and temperature (R365 to R387).
-/

namespace Sys2Proof.Machine

/-! ### Registers through a reset (R12, R13) -/

/-- Keep of a word the fields that pass a test; the others take the value that `g` gives them. -/
def RegRow.remap (r : RegRow) (w : Word) (keep : FieldDef → Bool) (g : FieldDef → Nat) : Word :=
  BitVec.ofNat 32 (r.fields.foldl (fun a f =>
    a + (if keep f then bitsOf w.toNat f.hi f.lo else g f % 2 ^ (f.hi + 1 - f.lo)) * 2 ^ f.lo) 0)

/-- Pass every listed register through a reset. -/
def remapRegs (m : SMap Word) (keep : Nat → FieldDef → Bool) (g : FieldDef → Nat) : SMap Word :=
  SMap.ofEntries regDefault (m.filterMap fun p =>
    (rowAt (p.1 % 2 ^ 24)).map fun r => (p.1, r.remap p.2 (keep (p.1 % 2 ^ 24)) g))

/-- The registers that stand in the RTC domain on VBAT (R70, R80 to R83). -/
def rtcReg (off : Nat) : Bool := off == 0x2005C || (0x200C4 ≤ off && off < 0x20140)

/-- GLB_RSTN.LEVEL follows the ball in every phase (R12, R374). -/
def ballField (off : Nat) (f : FieldDef) : Bool := off == 0x10 && f.lo == 0

/-- Fields that L0 keeps: those of the RTC that VBAT keeps, and the filtered ball (R12, R365). -/
def keptL0 (off : Nat) (f : FieldDef) : Bool := (rtcReg off && f.l2.isNone) || ballField off f

/-- Fields that L1 keeps: those of the RTC, RWS fields, and the filtered ball (R13). -/
def keptL1 (off : Nat) (f : FieldDef) : Bool := f.acc == .rws || rtcReg off || ballField off f

/-- Registers after L0: the RTC's are kept on VBAT, and GLB_RESET_MAP holds the compact column (R365, R367). -/
def mapCompact (d : Dev) : Dev :=
  (List.range 11).foldl (fun d i =>
    (d.wr Reg.GLB_RESET_MAP.FUSE (Canvas.fuseLevel 0 i) i).wr Reg.GLB_RESET_MAP.EFF (Canvas.fuseLevel 0 i) i) d

/-! ### What a reset leaves of the device (R365) -/

/-- A reset during TRIAL that is not its own restart makes the next start fall back (R362). -/
def Dev.trialLost (d : Dev) : Dev :=
  if d.rd Reg.UPD_STAT.STATE = 4 ∧ d.upd.restartTo = none then { d with upd := { d.upd with fallTo := some 3 } } else d

/-- The edge inputs after a reset: each is found at the level of its ball, and EDGE_STAT shows those of the tamper inputs (R12, R106). -/
def Dev.edgesFound (d : Dev) : Dev :=
  let d := { d with edges := SMap.ofEntries (fun _ => {}) (d.edges.map fun p => (p.1, { raw := p.2.raw, accepted := p.2.raw })) }
  (List.range 4).foldl (fun d k => d.setTamper k (d.edge (.tamper k)).raw) d

/-- What L1 leaves: NAND, the vault's array, the RTC and the always-on domain. Model bookkeeping goes on. -/
def Dev.afterCold (d : Dev) (rtcUnits : Nat) (keep : Nat → FieldDef → Bool) : Dev :=
  let d := d.trialLost
  Dev.edgesFound <| mapCompact {
    regs := remapRegs d.regs keep (·.l0)
    time := { rtc := { d.time.rtc with units := rtcUnits, at0 := 0 }, leapFrom := d.time.leapFrom }
    evt := { log := d.evt.log, lastGasp := d.evt.lastGasp }
    cv := { store0 := d.cv.store0, store1 := d.cv.store1, last := d.cv.lastRun }
    vault := { root := d.vault.root, enrol := d.vault.enrol, curve := d.vault.curve, counters := d.vault.counters
               slots := d.vault.slots, mark := d.vault.mark, sweep := d.vault.sweep, sweepRoots := d.vault.sweepRoots }
    ftl := { d.ftl with map := [] }
    ldg := { nand := d.ldg.nand, hist := d.ldg.hist }
    upd := { d.upd with swap := none, armT := 0, healthy := none, downgrade := false }
    sys := { phase := .inReset, cold := true, stuckEvt := d.sys.stuckEvt, ballStuck := d.sys.ballStuck }
    edges := d.edges, free := d.free, out := d.out, rdata := d.rdata }

/-- L0: the power-on reset, after `away` RTC units on VBAT (R365); it counts a power cycle (R277). -/
def Dev.l0 (d : Dev) (away : Nat) : Dev :=
  let d := d.afterCold (d.rtcUnits + away) keptL0
  let d := { d with sys := { d.sys with ballStuck := false } }
  (d.counterTo 3 (d.counter 3 + 1)).resetCause 0 0 false false

/-- L1: as L0, but what the always-on domain holds is kept. -/
def Dev.l1 (d : Dev) : Dev := d.afterCold d.rtcUnits keptL1

/-- What an L2 leaves of a seat: its opening count, USEQ and message memory (R17, R170, R293, R295). -/
def SeatSt.l2 (s : SeatSt) : SeatSt := { opening := s.opening, useq := s.useq, msgmem := s.msgmem, chalTick := s.chalTick }

/-- What an L2 leaves of a radio port: its neighbour table and indirect queue in DRAM (R18). -/
def RadioSt.l2 (r : RadioSt) : RadioSt := { neigh := r.neigh, indirect := r.indirect, polled := r.polled }

/-- L2: the time base, the vault, NAND and what stands in DRAM are kept (R365, R314). -/
def Dev.l2 (d : Dev) : Dev :=
  Dev.edgesFound { d with
    regs := remapRegs d.regs (fun _ f => f.l2.isNone) (fun f => f.l2.getD 0)
    time := { d.time with
      latches := SMap.ofEntries (fun _ => {}) (d.time.latches.map fun p => (p.1, { p.2 with held := false }))
      stepPend := none, trigT := [] }
    evt := { d.evt with fetch := [] }
    mbx := [], held := []
    seats := SMap.ofEntries (fun _ => {}) (d.seats.map fun p => (p.1, p.2.l2))
    cv := { d.cv with fetched := none, staged := none, commit := none, hidden := true, peerStaged := false }
    ports := [], arb := {}, plc := [], rail := {}
    radio := SMap.ofEntries (fun _ => {}) (d.radio.map fun p => (p.1, p.2.l2))
    grant := {}
    pool := { keys := d.pool.keys, staged := d.pool.staged, adir := d.pool.adir, adirNext := d.pool.adirNext
              adirCount := d.pool.adirCount }
    ldg := { d.ldg with
      engines := SMap.ofEntries (fun _ => {}) (d.ldg.engines.map fun p => (p.1, { carry := p.2.carry, stopped := p.2.stopped }))
      spill := [], shadowLast := [], shadowCur := [], shadowUsed := 0, shadowRecs := 0, shadowStopped := false
      rerate := [] }
    camp := { camps := d.camp.camps.map fun p => (p.1, p.2.afterReset) }
    bal := { d.bal with acc := [], collects := [] }
    cas := { dir := d.cas.dir, dirOut := d.cas.dirOut }
    upd := { d.upd with swap := none, armT := 0, healthy := none, downgrade := false }
    sys := { d.sys with phase := .inReset, cold := false, asleep := [], laneUse := [], vfEnable := false } }

/-! ### Quiesce (R370, R371, R378) -/

/-- The outputs take their quiesce states: TXGRANT is lowered and the radio resets are driven low (R378). -/
def Dev.quiesceOut (d : Dev) : Dev := (List.range 16).foldl (fun d g => d.emit (.radioReset g true)) d.grantOff

/-- At L2 the memory mover saves the input queues and the tick's uncommitted deltas into DRAM (R370). -/
def Dev.saveQueues (d : Dev) : Dev :=
  let j := d.ldg.jrn
  { d with ldg := { d.ldg with
    engines := SMap.ofEntries (fun _ => {}) (d.ldg.engines.map fun p =>
      (p.1, { p.2 with carry := p.2.carry ++ p.2.inq, inq := [] }))
    jwait := if j.isEmpty then d.ldg.jwait else d.ldg.jwait ++ [{ j with tick := d.time.tick }]
    jrn := {}, jdone := {} } }

/-- A canvas between STAGE and its commit is lost to the reset (R53). -/
def Dev.stagingLost (d : Dev) : Dev :=
  let st := d.rd Reg.CANVAS_STAT.STATE
  if 1 ≤ st ∧ st ≤ 4 then d.raise Stk.CANVAS_STAT.ABANDONED else d

/-- The quiesce of an L2 or deeper reset. -/
def Dev.quiesce (d : Dev) (level : Nat) : Dev :=
  let d := (List.range 64).foldl Dev.discardFences (d.stagingLost.trialLost.quiesceOut)
  let d := if level = 2 then d.saveQueues else d
  let d := d.summariseAll
  let d := { d with evt := { d.evt with dram := d.evt.dram ++ d.evt.front, front := [] } }
  ({ d with sys := { d.sys with phase := .quiesced } } : Dev).showBallsOf d.livePorts

/-! ### Accepting a source (R366, R368, R372) -/

/-- The level that the effective map gives a source. -/
def Dev.mapped (d : Dev) (source : Nat) : Nat := d.rd Reg.GLB_RESET_MAP.EFF source

/-- A source arrives at counter value `c` with a level (R368). An L3 acts at once, and so does an L4, which of a source of the
whole device is one of the house seat. -/
def Dev.accept (d : Dev) (c source level : Nat) : Dev :=
  let d := d.advance c
  match d.sys.phase with
  | .off => d
  | .up =>
    if level ≤ 2 then
      let d := d.quiesce level
      { d with sys := { d.sys with accepted := some { source, level, at0 := c } } }
    else if level = 3 then d.l3 source
    else if d.rd Reg.SEAT_STAT.STATE = 1 then (d.resetCause source 4 false false).seatReset 0 else d
  | ph =>
    match d.sys.accepted with
    | none => d
    | some a =>
      let together := ph == .quiesced && a.at0 == c
      if level < a.level ∨ (together = true ∧ level = a.level ∧ source < a.source) then
        let d := { d with sys := { d.sys with
          accepted := some { a with source, level, escalated := a.escalated || !together } } }
        if ph = .inReset then (d.l1).resetCause source level false true else d
      else d

/-- A source with the level that the map gives it. -/
def Dev.acceptMapped (d : Dev) (c source : Nat) : Dev := d.accept c source (d.mapped source)

/-! ### The reset proper (R371) -/

/-- RESET_PROPER (R371): the pulses have ended and the quiesce is done, at counter value `c`; a brown-out or a thermal
shutdown then turns off the rails (R379, R385). -/
def Dev.resetProper (d : Dev) (c : Nat) : Dev :=
  if d.sys.phase ≠ .quiesced then d else
  let d := d.advance c
  let live := d.livePorts
  if d.sys.thermal then
    let d := (d.raise Stk.PWR.THERM_SHUTDOWN).l1.showBallsOf live
    { d with sys := { d.sys with phase := .off, thermal := true } }
  else
  match d.sys.accepted with
  | none => d
  | some a =>
    let back := d.sys.vinBack
    let d := if a.level = 2 then d.l2 else if a.level = 0 then d.l0 0 else d.l1
    let d := (d.resetCause a.source a.level (decide (1000000 < c - a.at0)) a.escalated).showBallsOf live
    let d := { d with sys := { d.sys with accepted := some a } }
    if a.source = 1 ∧ back = false then { d with sys := { d.sys with phase := .off, accepted := none } } else d

/-- The arrays in a reset proper: L2 keeps them, and at L1 their contents are lost (R310, R314, R365). -/
def resetProper (p : Arrays × Dev) (c : Nat) : Arrays × Dev :=
  let d := p.2.resetProper c
  (if p.2.sys.phase = .quiesced ∧ d.sys.cold = true then { fused := p.1.fused } else p.1, d)

/-! ### The sources -/

/-- POWER_ON (R366): VIN has come back; `away` is the time on VBAT in RTC units. A brown-out sequence that runs goes on to its
end, and the device then starts as L1 (R379). -/
def powerOn (p : Arrays × Dev) (away : Nat) : Arrays × Dev :=
  if p.2.sys.phase = .quiesced then (p.1, { p.2 with sys := { p.2.sys with vinBack := true } })
  else ({ fused := p.1.fused }, p.2.l0 away)

/-- BROWN_OUT (R379, R83): the RTC locks, and the device quiesces. `clean` says that the FTL had stopped cleanly (R320). -/
def Dev.brownOut (d : Dev) (c : Nat) (clean : Bool) : Dev :=
  if d.sys.phase = .off then d else
  let d := if clean then d.ftlCleanStop else d
  (d.rtcLock.raise Stk.GLB.BROWNOUT).acceptMapped c 1

/-- VIN_REVERSAL (R381): no output is driven and the RTC is on VBAT; the rails are off until VIN returns. -/
def Dev.vinReversal (d : Dev) : Dev :=
  let live := d.livePorts
  let d := d.rtcLock.l1.showBallsOf live
  { d with sys := { d.sys with phase := .off } }

/-- VIN in 10 mV as measured, with the bits of the bands it lies in (R381, R408). -/
def Dev.setVin (d : Dev) (vin : Nat) : Dev :=
  ((d.wr Reg.PWR_VIN.VIN vin).wr Reg.PWR_STAT.VIN_OV (b2n (decide (6000 < vin)))).wr Reg.PWR_STAT.VIN_LOW (b2n (decide (vin < 450)))

/-- VIN_SURGE (R381): VIN is measured above 60 V, or back below it. -/
def Dev.vinSurge (d : Dev) (vin : Nat) : Dev :=
  let was := d.on Reg.PWR_STAT.VIN_OV
  let d := d.setVin vin
  if 6000 < vin ∧ was = false then d.raise Stk.PWR.VIN_OV else d

/-- VIN_LOW (R408): VIN is measured in the band between the brown-out threshold and 4.5 V, or back above it. -/
def Dev.vinLow (d : Dev) (vin : Nat) : Dev :=
  let was := d.on Reg.PWR_STAT.VIN_LOW
  let d := d.setVin vin
  if vin < 450 ∧ was = false then d.raise Stk.PWR.VIN_LOW else d

/-- RESET_N_ASSERT (R374): a low of 1 µs is accepted, unless the ball is ignored (R375). -/
def Dev.resetNAssert (d : Dev) (c : Nat) : Dev :=
  let d := d.wr Reg.GLB_RSTN.LEVEL 0
  if d.sys.ballStuck then d else d.acceptMapped c 2

/-- RESET_N_RELEASE (R374): a high of 1 µs. -/
def Dev.resetNRelease (d : Dev) : Dev := d.wr Reg.GLB_RSTN.LEVEL 1

/-- RESET_N_STUCK (R375): the ball has been low for 10 s; the event is recorded once the device runs. -/
def Dev.resetNStuck (d : Dev) : Dev :=
  if d.on Reg.GLB_RSTN.LEVEL || d.sys.ballStuck then d else
  let d := (d.wr Reg.GLB_RSTN.IGNORED 1).wr Reg.GLB_ERR_STICKY.RSTN_STUCK 1
  { d with sys := { d.sys with stuckEvt := true, ballStuck := true } }

/-- RESET_N_UNSTUCK (R375): the ball has been high for 100 ms. -/
def Dev.resetNUnstuck (d : Dev) : Dev :=
  if d.on Reg.GLB_RSTN.LEVEL then { d with sys := { d.sys with ballStuck := false } }.wr Reg.GLB_RSTN.IGNORED 0 else d

/-- Is the device held in reset by the ball (R374, R375)? -/
def Dev.heldByBall (d : Dev) : Bool := !d.on Reg.GLB_RSTN.LEVEL && !d.sys.ballStuck

/-- HOUSE_WDOG (R366): a house core has not serviced its watchdog for 200 ticks. -/
def Dev.houseWdog (d : Dev) (c : Nat) : Dev :=
  if d.sys.phase = .up then (d.raise Stk.GLB.HOUSE_WDOG).acceptMapped c 3 else d.acceptMapped c 3

/-- Is mandatory work of tick t unfinished at the end of t + 2 (R60): a close, a journal commit, or the package of t − 1, which is
due in t (R343)? The standby commits the packages of its active side. -/
def Dev.mandStuck (d : Dev) : Bool :=
  d.seatsOpen && ((d.ldg.spill.any fun s => decide (s.2 + 3 ≤ d.time.tick)) ||
    (d.ldg.jwait.any fun j => decide (j.tick + 3 ≤ d.time.tick)) || d.cas.pkgOpen.any fun t => decide (t + 4 ≤ d.time.tick))

/-- TICK_WDOG (R60): the tick watchdog fires. -/
def Dev.tickWdog (d : Dev) (c : Nat) : Dev :=
  if d.mandStuck then (d.raise Stk.TIME.TICK_WDOG).acceptMapped c 4 else d

/-- DEBUG_RESET (R366, R386): a write of GLB_DEBUG_RST with its key, or the debug port; the deeper of LEVEL and the mapped
level is taken. -/
def Dev.debugReset (d : Dev) (c v : Nat) (port : Bool) : Dev :=
  if port || bitsOf v 31 16 == 0xDB61 then d.accept c 10 (min (bitsOf v 2 0) (d.mapped 10)) else d

/-! ### Temperature (R383 to R385) -/

/-- The greatest element of a list and its place. -/
def hottest (l : List Int) : Int × Nat :=
  (l.zipIdx).foldl (fun a x => if a.1 < x.1 then (x.1, x.2) else a) (l.headD 0, 0)

/-- THERM_SAMPLE (R383, R384): the sensors are read, in 0.1 °C; WARN is set at 115 °C and clears below 110 °C. -/
def Dev.thermSample (d : Dev) (temps : List Int) : Dev :=
  let (t, i) := hottest temps
  let d := (d.wr Reg.THERM_STAT.TJ (wrapI 16 t)).wr Reg.THERM_STAT.SENSOR i
  let d := if sgn 16 (d.rd Reg.THERM_PEAK.PEAK) < t then d.wr Reg.THERM_PEAK.PEAK (wrapI 16 t) else d
  let d := { d with sys := { d.sys with
    hot := if 1250 ≤ t then d.sys.hot + 1 else 0
    cool := if t < 1000 then d.sys.cool + 1 else 0 } }
  if d.sys.phase = .off then d
  else if 1150 ≤ t ∧ d.on Reg.THERM_STAT.WARN = false then (d.wr Reg.THERM_STAT.WARN 1).raise Stk.PWR.THERM_WARN
  else if t < 1100 then d.wr Reg.THERM_STAT.WARN 0
  else d

/-- THERMAL_SHUTDOWN (R385): after three consecutive readings at or above 125 °C the device quiesces. -/
def Dev.thermalShutdown (d : Dev) (c : Nat) : Dev :=
  if d.sys.hot < 3 ∨ d.sys.phase = .off then d else
  let d := (d.advance c).wr Reg.THERM_STAT.SHUT_PEND 1
  let d := if d.sys.phase = .up then d.quiesce 1 else d
  { d with sys := { d.sys with phase := .quiesced, thermal := true, cool := 0 } }

/-- THERMAL_RESTART (R385): TJ has been below 100 °C for 10 s, 100,000 readings; the device starts as L1. -/
def Dev.thermalRestart (d : Dev) : Dev :=
  if !(d.sys.thermal && d.sys.phase == .off) || decide (d.sys.cool < 100000) then d else
  let d := d.l1
  (mapCompact d).resetCause 5 1 false false

end Sys2Proof.Machine
end

