-- ==== Sys2Proof/Machine/Update.lean ====
section
/-!
DEFINITION. The device's own firmware: staging and checking an image, hitless and restart activation, the trial, and falling back
(R355 to R364).
-/

namespace Sys2Proof.Machine

/-- The image of a store. -/
def UpdSt.store (s : UpdSt) (i : Nat) : Option Image := if i = 0 then s.store0 else s.store1

/-- Put an image into a store, or free it. -/
def UpdSt.setStore (s : UpdSt) (i : Nat) (x : Option Image) : UpdSt :=
  if i = 0 then { s with store0 := x } else { s with store1 := x }

/-- The store that does not hold the running image. -/
def UpdSt.idle (s : UpdSt) : Nat := 1 - s.running

/-- The running image. -/
def Dev.runImage (d : Dev) : Image := (d.upd.store d.upd.running).getD { version := 0 }

/-- The image that waits in the other store. -/
def Dev.idleImage (d : Dev) : Option Image := d.upd.store d.upd.idle

/-- The UPDATE registers that tell of the images in the stores. -/
def Dev.updRegs (d : Dev) (state : Nat) : Dev :=
  let run := d.runImage
  let d := (d.wr Reg.UPD_STAT.STATE state).wr Reg.UPD_STAT.LVER run.lverTo
  let d := (d.wr Reg.UPD_STAT.SFMT run.sfmt).wr Reg.UPD_RUN_VER.VERSION run.version
  let staged := if state = 4 then 0 else (d.idleImage.map (·.version)).getD 0
  d.wr Reg.UPD_STAGED_VER.VERSION staged

/-- An image or an ARM is refused (R356). -/
def Dev.updReject (d : Dev) (code : Nat) : Dev := (d.wr Reg.UPD_STAT.REJECT code).raise Stk.UPD.REJECTED

/-! ### Checks (R355, R356) -/

/-- Entry `i` of an image's section table: type, offset, length, seal. -/
def imgSect (b : Bytes) (i : Nat) : Nat × Nat × Nat × Nat :=
  let o := 32 + 16 * i
  (u b o 1, u b (o + 4) 4, u b (o + 8) 4, u b (o + 12) 4)

/-- The sections of an image. -/
def imgSects (b : Bytes) : List (Nat × Nat × Nat × Nat) := (List.range (min (u b 23 1) 3)).map (imgSect b)

/-- The greatest length of a section of a type. -/
def imgMax (ty : Nat) : Nat := if ty = 1 then 16 * 1048576 else 1048576

/-- Is entry `i` of the table well formed: a known type met once, three zero bytes, and a place inside the image that no
earlier section shares? -/
def imgSectOk (b : Bytes) (i : Nat) : Bool :=
  let (ty, off, len, _) := imgSect b i
  1 ≤ ty && ty ≤ 3 && u b (32 + 16 * i + 1) 3 == 0 && off % 64 == 0 && len % 64 == 0 && 128 ≤ off && len ≤ imgMax ty &&
  off + len + 64 ≤ u b 16 4 &&
  (List.range i).all fun j =>
    let (tj, oj, lj, _) := imgSect b j
    tj != ty && (off + len ≤ oj || oj + lj ≤ off)

/-- Check 0x01. -/
def imgFormOk (b : Bytes) : Bool :=
  slice b 0 4 == [0x48, 0x5A, 0x46, 0x57] && u b 4 2 == 1 && 1 ≤ u b 23 1 && u b 23 1 ≤ 3 &&
  u b 16 4 ≤ 20 * 1048576 && u b 16 4 == b.length && u b 16 4 % 64 == 0 && 192 ≤ u b 16 4 &&
  (List.range (u b 23 1)).all (imgSectOk b)

/-- Check 0x02. -/
def imgSealsOk (b : Bytes) : Bool :=
  sealOf (slice b 0 124) == u b 124 4 && (imgSects b).all fun s => sealOf (slice b s.2.1 s.2.2.1) == s.2.2.2

/-- Check 0x03: KEY_ID names a key of the boot ROM, under which the signature verifies. -/
def imgSignOk (b : Bytes) : Bool :=
  match (List.range 4).find? fun i => (sha256 (Config.romKey i)).take 8 == slice b 24 8 with
  | some i => edVerify (Config.romKey i) (slice b 0 (b.length - 64)) (slice b (b.length - 64) 64)
  | none => false

/-- The first check of R356 that a fetched image fails, 0 for none. -/
def Dev.updCheck (d : Dev) (b : Bytes) : Nat :=
  let restart := bitOf (u b 9 1) 0
  let conv := (imgSects b).any (·.1 == 3)
  if !imgFormOk b then 1
  else if !imgSealsOk b then 2
  else if !imgSignOk b then 3
  else if u b 6 2 ≠ 0x9240 ∨ d.rd Reg.GLB_ID.STEP < u b 8 1 then 4
  else if u b 12 4 ≤ d.rd Reg.UPD_RUN_VER.VERSION ∧ d.upd.downgrade = false then 5
  else if u b 20 1 ≠ d.rd Reg.UPD_STAT.LVER ∨ (u b 21 1 ≠ u b 20 1 ∧ (restart && conv) = false) then 6
  else if d.ftlReadonly then 10
  else 0

/-! ### Staging (R356) -/

/-- UPD_STAGE (R356): the fetch of an image begins. -/
def Dev.updStage (d : Dev) (downgrade : Bool) : Dev :=
  let addr := d.rd Reg.UPD_SRC_ADDR_LO.VALUE
  if d.rd Reg.UPD_STAT.STATE ≠ 0 then d.updReject 7
  else if addr % 64 ≠ 0 then d.updReject 9
  else
    let d := { d with upd := { d.upd with downgrade } }.wr Reg.UPD_STAT.STATE 1
    d.emit (.dmaRead (addr + 2 ^ 32 * d.rd Reg.UPD_SRC_ADDR_HI.VALUE) (d.rd Reg.UPD_SRC_LEN.VALUE))

/-- UPD_STAGE_DONE (R356): the fetch has ended, with the bytes or without; the image is checked and written to the free store. -/
def Dev.updStageDone (d : Dev) (img : Option Bytes) : Dev :=
  if d.rd Reg.UPD_STAT.STATE ≠ 1 then d else
  match img with
  | none => (d.wr Reg.UPD_STAT.STATE 0).updReject 9
  | some b =>
    let code := d.updCheck b
    if code ≠ 0 then (d.wr Reg.UPD_STAT.STATE 0).updReject code else
    let i : Image :=
      { version := u b 12 4, restart := bitOf (u b 9 1) 0, lverFrom := u b 20 1, lverTo := u b 21 1, sfmt := u b 22 1, bytes := b }
    let d := d.nandWriteN (lpaImages + 2048 * d.upd.idle) sCOLD 0 (pagesOf b.length)
    let d := { d with upd := d.upd.setStore d.upd.idle (some i) }
    (d.wr Reg.UPD_STAT.REJECT 0).updRegs 2

/-! ### Activation (R357 to R360) -/

/-- Does an image wait that may be activated: STAGED, or left in its store by a fall-back (R362)? -/
def Dev.updWaits (d : Dev) : Bool :=
  d.idleImage.isSome && (d.rd Reg.UPD_STAT.STATE == 2 || d.rd Reg.UPD_STAT.STATE == 0)

/-- UPD_CANCEL (R356): a STAGED or ARMED image is freed, and so is one that a fall-back left in its store as STAGED (R362). -/
def Dev.updCancel (d : Dev) : Dev :=
  let st := d.rd Reg.UPD_STAT.STATE
  if st = 2 ∨ st = 3 ∨ d.updWaits = true then { d with upd := d.upd.setStore d.upd.idle none }.updRegs 0 else d

/-- UPD_ARM (R357, R51): hitless activation at tick T, or code 0x08. -/
def Dev.updArm (d : Dev) : Dev :=
  let T := d.rd64 Reg.UPD_APPLY_TICK.TICK
  let now := d.time.tick
  let near := d.rd Reg.CANVAS_STAT.STATE = 4 ∧ T < d.cv.armT + 16 ∧ d.cv.armT < T + 16
  if d.updWaits = false ∨ (d.idleImage.map (·.restart)).getD false = true ∨ T < now + 8 ∨ now + 2 ^ 32 < T ∨ near then
    d.updReject 8
  else ({ d with upd := { d.upd with armT := T } }).wr Reg.UPD_STAT.STATE 3

/-- The image of the other store runs from tick `t` on, with the swap of the engines' microcode ahead (R357, R358). -/
def Dev.updSwap (d : Dev) (t : Nat) : Dev :=
  { d with upd := { d.upd with running := d.upd.idle, swap := some { t } } }.wr Reg.UPD_STAT.SWAP_DONE 0

/-- A trial begins in this tick (R361). -/
def Dev.trialBegin (d : Dev) (twoFormats : Bool) : Dev :=
  ({ d with upd := { d.upd with trialAt := d.time.tick, healthy := none, twoFormats } }.updRegs 4).wr Reg.UPD_CLEAN.TICKS 0

/-- UPD_ACTIVATE (R357): at the boundary that opens T the house cores hand over, and the shadow stops sampling. -/
def Dev.updActivate (d : Dev) : Dev :=
  if d.rd Reg.UPD_STAT.STATE ≠ 3 ∨ d.time.tick < d.upd.armT then d else
  let old := d.runImage.sfmt
  let d := d.updSwap d.time.tick
  d.trialBegin (d.runImage.sfmt != old)

/-- ENGINE_MICROCODE_SWAP (R358): in tick T + 1 + e engine `e` loads its microcode while the shadow runs its work. -/
def Dev.engineSwap (d : Dev) (e : Nat) : Dev :=
  match d.upd.swap with
  | none => d
  | some s =>
    if 16 ≤ e ∨ d.time.tick < s.t + 1 + e ∨ s.engines.contains e then d
    else { d with upd := { d.upd with swap := some { s with engines := s.engines ++ [e] } } }

/-- MICROCODE_SWAP_DONE (R358): at the boundary that opens T + 17 the shadow returns to sampling. -/
def Dev.swapDone (d : Dev) : Dev :=
  match d.upd.swap with
  | none => d
  | some s =>
    if d.time.tick < s.t + 17 ∨ s.engines.length < 16 then d
    else { d with upd := { d.upd with swap := none } }.wr Reg.UPD_STAT.SWAP_DONE 1

/-- UPD_RESTART (R359): a STAGED image with RESTART runs from the next start, which the canvas reload source brings. -/
def Dev.updRestart (d : Dev) (c : Nat) : Dev :=
  if d.updWaits && (d.idleImage.map (·.restart)).getD false then
    { d with upd := { d.upd with restartTo := some d.upd.idle } }.acceptMapped c 7
  else d.updReject 8

/-! ### Confirmation and fall-back (R361, R362) -/

/-- UPD_HEALTHY (R361). -/
def Dev.updHealthy (d : Dev) : Dev := { d with upd := { d.upd with healthy := some d.time.tick } }

/-- A tick of a trial has ended, with or without a mandatory overrun (R361). -/
def Dev.trialTick (d : Dev) (overrun : Bool) : Dev :=
  if d.rd Reg.UPD_STAT.STATE ≠ 4 then d
  else if overrun then d.wr Reg.UPD_CLEAN.TICKS 0 else d.bump Reg.UPD_CLEAN.TICKS

/-- UPD_CONFIRM (R361): WIN clean ticks and a HEALTHY of the last 100 ticks. -/
def Dev.updConfirm (d : Dev) : Dev :=
  let fresh := match d.upd.healthy with
    | some t => decide (d.upd.trialAt ≤ t ∧ d.time.tick ≤ t + 100)
    | none => false
  if d.rd Reg.UPD_STAT.STATE ≠ 4 ∨ d.rd Reg.UPD_CLEAN.TICKS < d.cfg.confWin ∨ fresh = false then d else
  ({ d with upd := d.upd.setStore d.upd.idle none }.updRegs 0).record 0x1E40 1 0xFF noIdx []

/-- The device has fallen back (R362): FALLBACK and an event with the cause; the new image stays in its store. -/
def Dev.fellBack (d : Dev) (cause : Nat) : Dev :=
  let d := { d with upd := { d.upd with restartTo := none, fallTo := none } }
  (d.updRegs 0).raise Stk.UPD.FALLBACK noIdx [(1, cause)]

/-- Fall back from the trial: a hitless image hands back under R357, a RESTART image by a restart. -/
def Dev.fallBack (d : Dev) (c cause : Nat) : Dev :=
  if d.rd Reg.UPD_STAT.STATE ≠ 4 then d
  else if d.runImage.restart then
    { d with upd := { d.upd with restartTo := some d.upd.idle, fallTo := some cause } }.acceptMapped c 7
  else (d.updSwap (d.time.tick + 1)).fellBack cause

/-- UPD_REVERT (R362). -/
def Dev.updRevert (d : Dev) (c : Nat) : Dev := d.fallBack c 1

/-- TRIAL_DEADLINE (R362): the trial has lasted 3 × WIN ticks. -/
def Dev.trialDeadline (d : Dev) (c : Nat) : Dev :=
  if d.time.tick < d.upd.trialAt + 3 * d.cfg.confWin then d else d.fallBack c 2

/-- The images at a start (R356, R359, R362): a restart runs the image it names, and a trial that a reset broke off falls back. -/
def Dev.updStart (d : Dev) : Dev :=
  match d.upd.restartTo, d.upd.fallTo with
  | some s, none =>
    let old := d.runImage.sfmt
    let d := { d with upd := { d.upd with running := s, restartTo := none } }
    d.trialBegin (d.runImage.sfmt != old)
  | some s, some cause => ({ d with upd := { d.upd with running := s } } : Dev).fellBack cause
  | none, some cause => ({ d with upd := { d.upd with running := d.upd.idle } } : Dev).fellBack cause
  | none, none => d.updRegs (if d.idleImage.isSome then 2 else 0)

/-- CHECKPOINT_PASS_DONE (R319, R360): the pass completes; it drops old-format copies once the image is confirmed. -/
def Dev.checkpointPass (d : Dev) : Dev :=
  let d := d.checkpointPassDone
  if d.rd Reg.UPD_STAT.STATE = 4 then d else { d with upd := { d.upd with twoFormats := false } }

/-- A write of UPD_CTL: each bit acts. -/
def Dev.updCtl (d : Dev) (v : Nat) : Dev :=
  let c := d.time.cnt
  let d := if bitOf v 0 then d.updStage (bitOf v 1) else d
  let d := if bitOf v 2 then d.updArm else d
  let d := if bitOf v 3 then d.updRestart c else d
  let d := if bitOf v 4 then d.updCancel else d
  let d := if bitOf v 5 then d.updHealthy else d
  if bitOf v 6 then d.updRevert c else d

end Sys2Proof.Machine
end

