-- ==== Sys2Proof/Machine/Start.lean ====
section
/-!
DEFINITION. Start: the strap, the march test, taking the canvas, the steps of the start order, ledger restore, and the opening of
the seats (R37 to R39, R48, R312, R338 to R342, R359, R373, R376, R377).
-/

namespace Sys2Proof.Machine

/-- CAS_STAT.STEP (R338). -/
def Dev.step (d : Dev) : Nat := d.rd Reg.CAS_STAT.STEP
def Dev.setStep (d : Dev) (n : Nat) : Dev := d.wr Reg.CAS_STAT.STEP n

/-! ### The strap (R376, R377) -/

/-- The bounds of the accepted ranges, in ohms: code i from entry i to entry i + 1. -/
def strapBounds : List Nat :=
  [850, 1140, 1530, 2080, 2810, 3770, 4910, 6480, 8660, 11400, 15300, 20780, 28140, 37670, 49070, 64810, 88000]

/-- The code of a resistance, if it lies in an accepted range. -/
def strapCode (r : Nat) : Option Nat :=
  if r < 850 ∨ 88000 < r then none else some (min 15 ((strapBounds.filter (· ≤ r)).length - 1))

def strapBoot : List Nat := [0, 0, 0, 0, 0, 0, 1, 1, 2, 2, 0, 0, 1, 1, 1, 1]
def strapSide : List Nat := [0, 1, 0, 1, 0, 1, 0, 1, 0, 1, 0, 1, 0, 1, 0, 0]
def strapPref : List Nat := [1, 0, 0, 1, 1, 0, 1, 0, 0, 0, 1, 0, 1, 0, 1, 1]
def strapRail : List Nat := [1, 1, 1, 1, 0, 0, 1, 1, 1, 1, 1, 1, 1, 1, 0, 0]

/-- The code that all three samples give; none makes the strap bad. -/
def strapOf (samples : List Nat) : Option Nat :=
  match samples with
  | [a, b, c] => if strapCode a = strapCode b ∧ strapCode b = strapCode c then strapCode a else none
  | _ => none

/-- Read the strap. -/
def Dev.strapRead (d : Dev) (samples : List Nat) (raw : Nat) : Dev :=
  let got := strapOf samples
  let k := got.getD 4
  let enrol := got.isSome && 10 ≤ k && k ≤ 14
  let d := (d.wr Reg.GLB_STRAP.CODE k).wr Reg.GLB_STRAP.BOOT (strapBoot.getD k 0)
  let d := (d.wr Reg.GLB_STRAP.ENROL (b2n enrol)).wr Reg.GLB_STRAP.SIDE (strapSide.getD k 0)
  let d := (d.wr Reg.GLB_STRAP.PREF (strapPref.getD k 0)).wr Reg.GLB_STRAP.RAIL (strapRail.getD k 0)
  let d := d.wr Reg.RAIL_CFG.ENABLED (strapRail.getD k 0)
  let d := (d.wr Reg.GLB_STRAP.RAW raw).wr Reg.VAULT_STAT.ENROL_PERMIT (b2n enrol)
  let d := (d.wr Reg.CAS_CFG.SIDE (strapSide.getD k 0)).wr Reg.GLB_STRAP.BAD (b2n got.isNone)
  if got.isNone then d.raise Stk.GLB.STRAP_BAD else d

/-! ### The march test (R312) -/

/-- One bank's outcome: spares assigned, or the bank and so its group failed. -/
def marchOne (p : Arrays × Dev) (t : BankTest) : Arrays × Dev :=
  let fused := SMap.get (fun _ => 0) p.1.fused t.bank
  if t.bad ∨ 4 < fused + t.cols then
    let f := p.2.rd Reg.MEM_SRAM_STAT.FAILED
    (p.1, (p.2.wr Reg.MEM_SRAM_STAT.FAILED (f ||| 2 ^ (t.bank / 16))).raise Stk.MEM.BIST_FAIL)
  else if t.cols = 0 then p
  else ({ p.1 with soft := SMap.set (fun _ => 0) p.1.soft t.bank t.cols }, p.2.raise Stk.MEM.SOFT_REPAIR)

/-- The march test of all banks. -/
def marchTest (p : Arrays × Dev) (ts : List BankTest) : Arrays × Dev := ts.foldl marchOne p

/-! ### Taking a canvas (R38, R39, R54) -/

/-- Bring the lattice onto another tick length: the running tick keeps its opening (R55). -/
def Dev.relattice (d : Dev) (oldNs : Nat) : Dev :=
  let opened := d.time.base + (d.time.tick * oldNs : Nat)
  { d with time := { d.time with base := opened - (d.time.tick * d.tickNs : Nat) } }

/-- The registers that loading a canvas sets (R54, R105, R125, R311, R354), and the effective reset map (R367). -/
def Dev.loadRegs (d : Dev) : Dev :=
  let c := d.cfg
  let d := (d.wr Reg.CANVAS_STAT.CLASS c.cls).wr Reg.CANVAS_SERIAL.SERIAL c.serial
  let d := d.wrBytes Reg.CANVAS_DIGEST.DIGEST (sha256 c) 8
  let d := (d.wr Reg.CAS_CFG.POSITION c.position).wr Reg.CAS_CFG.NPOS c.npos
  let d := (d.wr Reg.CAS_CFG.CHORD c.chord).wr Reg.CAS_CFG.CFL c.cfl
  let d := if c.position = 0xFF then d.wr Reg.CAS_CFG.SIDE 0 else d
  let d := d.wr Reg.MEM_SRAM_STAT.OFF (Canvas.f c Canvas.tyPOWER 0 2)
  let plc := (List.range 256).filter fun p => c.portMode p == Canvas.mPLC
  let d := plc.foldl (fun d p =>
    (d.wr Reg.PLC_BLANK.THR (c.bpF p 4 1 - 6) p).wr Reg.PLC_BLANK.GUARD (c.bpF p 5 1) p) d
  (List.range 11).foldl (fun d i =>
    (d.wr Reg.GLB_RESET_MAP.FUSE (Canvas.fuseLevel c.cls i) i).wr Reg.GLB_RESET_MAP.EFF (c.resetLevel i) i) d

/-- The ledger deltas of a tick for the slots that pass a test. -/
def JTick.onSlots (j : JTick) (ok : Nat → Bool) : JTick :=
  { j with ledgers := j.ledgers.filter fun p => ok p.1, blocks := j.blocks.filter fun p => ok p.1 }

/-- What a canvas of another class or with other slots leaves of the ledgers (R48): those of slots provisioned in both, in the device,
in NAND and among the deltas that wait for it. `old` is the canvas that ran before the restart. -/
def Dev.keepLedgers (d : Dev) (old : Canvas) : Dev :=
  if old.isEmpty ∨ (old.cls = d.cfg.cls ∧ old.slots = d.cfg.slots) then d else
  let ok := fun (s : Nat) => (d.cfg.seatOfSlot s).isSome && (old.seatOfSlot s).isSome
  let n := d.ldg.nand
  { d with ldg := { d.ldg with
    ledgers := d.ldg.ledgers.filter fun p => ok p.1
    jrn := d.ldg.jrn.onSlots ok, jdone := d.ldg.jdone.onSlots ok, jwait := d.ldg.jwait.map fun j => j.onSlots ok
    nand := { n with ledgers := n.ledgers.filter fun p => ok p.1 } } }

/-- Put an item behind those admitted no later than it. -/
def insertItem (q : QItem) : List QItem → List QItem
  | [] => [q]
  | x :: xs => if x.atick ≤ q.atick then x :: insertItem q xs else q :: x :: xs

/-- The carried items of every engine stand with the engine that serves their slot; under another mapping of slots to engines they
move there, in the order of their admission ticks and, within one slot, of their sequence (R16, R63). -/
def Dev.rebucket (d : Dev) : Dev :=
  if d.ldg.engines.all fun p => p.2.carry.all fun q => d.engOf q.slot == p.1 then d else
  let all := d.ldg.engines.flatMap fun p => p.2.carry
  let d := { d with ldg := { d.ldg with
    engines := SMap.ofEntries (fun _ => {}) (d.ldg.engines.map fun p => (p.1, { p.2 with carry := [] })) } }
  all.foldl (fun d q => d.onEng (d.engOf q.slot) fun e => { e with carry := insertItem q e.carry }) d

/-- The device takes a canvas as its running one, out of a store. -/
def Dev.canvasRun (d : Dev) (c : Bytes) (store : Nat) : Dev :=
  let oldNs := d.tickNs
  let old := d.cv.lastRun
  let d := { d with cv := { d.cv with run := some c, runStore := some store, last := [], hidden := false, peerStaged := false } }
  let d := if d.sys.cold then d.holdRetest else d.rebucket
  (((d.relattice oldNs).loadRegs.keepLedgers old).wr Reg.CANVAS_STAT.COMMITTED 0).wr Reg.CANVAS_STAT.STATE 5

/-- A rejection is recorded (R46, R427). -/
def Dev.cvReject (d : Dev) (f : CvFail) : Dev :=
  let d := (d.wr Reg.CANVAS_STAT.REJECT f.code).wr Reg.CANVAS_REJ_INFO.SECTION f.sect
  (d.wr Reg.CANVAS_REJ_INFO.OFFSET (f.off / 4)).raise Stk.CANVAS_STAT.REJECTED noIdx [(2, f.code), (1, f.sect), (4, f.off)]

/-- A code that names no place in a canvas. -/
def Dev.cvCode (d : Dev) (code : Nat) : Dev := d.cvReject ⟨code, 0xFF, 0⟩

/-- The unconfigured state (R39). -/
def Dev.unconfigure (d : Dev) : Dev :=
  { d with cv := { d.cv with run := none, runStore := none, last := d.cv.lastRun, hidden := false } }.wr
    Reg.CANVAS_STAT.STATE 0xF

/-- A canvas store. -/
def CanvasSt.store (s : CanvasSt) (i : Nat) : CvStore := if i = 0 then s.store0 else s.store1

/-- The committed stores, the higher serial first (R38). DESIGN CHOICE (log entry 236): with equal serials store 0 is tried first. -/
def CanvasSt.candidates (s : CanvasSt) : List Nat :=
  let l := if Canvas.serial s.store0.bytes < Canvas.serial s.store1.bytes then [1, 0] else [0, 1]
  l.filter fun i => (s.store i).committed

/-- Run the first candidate that passes validation; the others' rejections are recorded (R38). -/
def Dev.loadFirst (d : Dev) : List Nat → Dev
  | [] => d.unconfigure
  | i :: is =>
    let c := (d.cv.store i).bytes
    match d.validate c .start with
    | none => (d.wr Reg.CANVAS_STAT.REJECT 0).canvasRun c i
    | some f => ((d.cvReject f).raise Stk.CANVAS.STORE_BAD).loadFirst is

/-- The device takes its canvas from the boot source that the strap selects (R38); after an L2 it is reloaded from NAND
(R373). -/
def Dev.takeCanvas (d : Dev) : Dev :=
  match if d.sys.cold then d.rd Reg.GLB_STRAP.BOOT else 0 with
  | 1 => d.unconfigure
  | 2 => if d.cv.run.isSome then d else d.wr Reg.CANVAS_STAT.STATE 5
  | _ => d.loadFirst d.cv.candidates

/-! ### The steps of start (R338) -/

/-- The highest committed journal tick, in the numbers that RENUMBER has left (R55, R341). An empty journal counts as tick 0 where it
is compared with a partner's or a dealer's. -/
def Dev.journalHigh (d : Dev) : Nat := d.ldg.nand.high.getD 0

/-- The body of a CHECK: plan, TICK field, serial and digest (R339). -/
def Dev.checkBody (d : Dev) : Bytes :=
  d.cfg.planId ++ leBytes 1 d.cfg.tickSel ++ leBytes 4 d.cfg.serial ++ sha256 d.cfg

/-- Step 5: the dealer passes its own check; another device asks the dealer (R339). -/
def Dev.enterCheck (d : Dev) : Dev :=
  if d.isDealer then d.setStep 6 else (d.setStep 5).toDealer tyCHECK false d.checkBody

/-- A HELLO on a partner lane: its index, and the highest committed journal tick (R330, R342). -/
def Dev.laneGreet (d : Dev) (l : Nat) : Dev := d.partnerRaw tyHELLO (leBytes 1 l ++ leBytes 8 d.journalHigh)

/-- Step 4: a device that has no partner is the active side of its position; another greets it on both lanes and waits for the
pairing (R342). -/
def Dev.enterPairing (d : Dev) : Dev :=
  if d.cfg.hasPartner then ((d.setStep 4).laneGreet 0).laneGreet 1 else (d.wr Reg.CAS_STAT.ROLE 1).enterCheck

/-- Step 3: deal link training begins with a HELLO on every link that is used (R327, R338; DEDUCED, log entry 110). -/
def Dev.trainLinks (d : Dev) : Dev :=
  ((List.range 4).filter fun k => !d.linkIdle k).foldl (fun d k => d.sendOn k tyHELLO (d.farOf k) false (leBytes 1 k)) (d.setStep 3)

/-- The election begins to listen (R333). -/
def Dev.listen (d : Dev) : Dev := { d with cas := { d.cas with elec := .listen d.time.cnt } }

/-- Leave step 1 once the map is whole and a canvas runs (R338): a standalone device restores its ledgers next; a cascade position
elects over the rail carrier at step 2, or over its deal links at step 3. -/
def Dev.leaveStep1 (d : Dev) : Dev :=
  if d.step ≠ 1 ∨ d.ftlReady = false ∨ d.cv.run = none ∨ d.on Reg.GLB_STRAP.BAD = true then d
  else if d.cfg.position = 0xFF then (d.wr Reg.CAS_STAT.ROLE 1).setStep 6
  else if d.on Reg.GLB_STRAP.RAIL then (d.setStep 2).listen
  else d.trainLinks.listen

/-- The FTL's map is whole, so that NAND can be read (R320): the canvas is taken and start goes on. -/
def Dev.startOn (d : Dev) : Dev :=
  if d.sys.phase ≠ .up ∨ d.step ≠ 1 ∨ d.ftlReady = false ∨ d.on Reg.GLB_STRAP.BAD = true then d
  else if d.cv.run.isSome && d.sys.cold then d.leaveStep1
  else d.takeCanvas.leaveStep1

/-- FTL_MAP_LOAD_DONE (R320). -/
def Dev.mapLoaded (d : Dev) : Dev := if d.rd Reg.MEM_FTL_STAT.STATE = 1 then d.ftlMapLoadDone.startOn else d

/-- FTL_MAP_REBUILD_DONE (R320, R321). -/
def Dev.mapRebuilt (d : Dev) (bad : List (Nat × Nat)) : Dev :=
  if d.rd Reg.MEM_FTL_STAT.STATE = 2 then (d.ftlMapRebuildDone bad).startOn else d

/-- The events of every start: the cause of the reset, and a stuck RESET_N (R375, R392). -/
def Dev.startEvents (d : Dev) : Dev :=
  let d := d.record 0x0040 1 0xFF noIdx [(4, (d.word Reg.GLB_RESET_CAUSE.SOURCE.off 0).toNat)]
  if d.sys.stuckEvt then ({ d with sys := { d.sys with stuckEvt := false } } : Dev).raise Stk.GLB.RSTN_STUCK else d

/-- A value drawn at random for the rail carrier's NONCE (R121). -/
def useNonce : Nat := 30

/-- What every start does once the device is out of reset. -/
def Dev.wake (d : Dev) : Dev :=
  let d := { d with
    rail := { d.rail with nonce := d.fresh useNonce (2 ^ 32) }
    sys := { d.sys with phase := .up, accepted := none, vinBack := false, thermal := false } }.took
  d.setStep 1

/-- DEVICE_START (R338): step 1 after L0 or L1. The tick number is one more than the highest in the NAND journal (R55). DESIGN CHOICE
(log entry 237): a device whose journal is empty starts with tick 0. -/
def deviceStart (p : Arrays × Dev) (i : StartIn) : Arrays × Dev :=
  if p.2.sys.phase ≠ .inReset ∨ p.2.sys.cold = false ∨ p.2.heldByBall = true then p else
  let d := (p.2.setRtc (p.2.rtcUnits + i.away)).wake.strapRead i.strap i.strapRaw
  let q := marchTest (p.1, d) i.banks
  let d := (q.2.vaultStart i.noise i.damage).rtcCurveLoad.timeLoadFromRtc
  let t := d.ldg.nand.high.elim 0 (· + 1)
  let d := { d with time := { d.time with tick := t, base := -(t * d.tickNs : Nat), hourAt := d.time.cnt } }
  let d := (d.wr Reg.CAS_EPOCH.EPOCH d.ldg.nand.epoch).wr Reg.CAS_DEALER_EPOCH.EPOCH d.ldg.nand.dealerEpoch
  let d := d.eseqFromLog.lastGaspWrite
  let d := d.updStart.startEvents.ftlBegin
  let d := if d.on Reg.GLB_STRAP.BAD then d.unconfigure
    else if d.rd Reg.GLB_STRAP.BOOT = 1 then d.unconfigure else d.wr Reg.CANVAS_STAT.STATE 5
  (q.1, d)

/-- WARM_RETURN (R373, R310, R314): SRAM is cleared and DRAM leaves self-refresh; the FTL takes its map from DRAM. -/
def warmReturn (p : Arrays × Dev) : Arrays × Dev :=
  let d := p.2
  if d.sys.phase ≠ .inReset ∨ d.sys.cold = true ∨ d.heldByBall = true then p else
  let d := (d.wake.wr Reg.MEM_DRAM_STAT.SR_L2 1).updStart.startEvents
  (p.1.clearSram, (d.ftlResume).wr Reg.CANVAS_STAT.STATE 5)

/-! ### Ledger restore and the opening of seats (R340, R359, R17, R349) -/

/-- The images that the checkpoint, the journal and the deltas left in DRAM give (R340). -/
def Dev.restored (d : Dev) : NandImg := d.ldg.jwait.foldl NandImg.take d.ldg.nand

/-- Records held for slots in REPAIR stand in the carry queue (R201), which a reset keeps (R63): they go ahead of it. -/
def Dev.unholdAll (d : Dev) : Dev :=
  let held := d.ldg.ledgers.flatMap fun p => p.2.held
  held.reverse.foldl (fun d q => d.onEng (d.engOf q.slot) fun e => { e with carry := q :: e.carry }) d

/-- The restore of what NAND holds: ledgers, key records, directory, campaigns and ceilings. -/
def Dev.restoreAll (d : Dev) : Dev :=
  let n := d.restored
  let d := d.unholdAll
  { d with
    ldg := { d.ldg with ledgers := n.ledgers.map fun p => (p.1, { p.2 with held := [] }) }
    pool := { d.pool with keys := n.keys, adir := n.adir, adirCount := n.adir.length }
    camp := { d.camp with camps := n.camps.map fun p => (p.1, { p.2.afterReset with body := p.2.nand }) }
    vault := { d.vault with mirrorCeil := n.ceils } }

/-- Are the ledgers resident: a full-ledger composition after an L2 (R340)? -/
def Dev.resident (d : Dev) : Bool := !d.sys.cold && d.cfg.cls == 1

/-- CONV (R359): every ledger takes the layout version in force. -/
def Dev.convert (d : Dev) : Dev :=
  let v := d.rd Reg.UPD_STAT.LVER
  { d with ldg := { d.ldg with ledgers := d.ldg.ledgers.map fun p => (p.1, { p.2 with lver := v }) } }

/-- Does a restored ledger have another layout version than the one in force? -/
def Dev.oldLayout (d : Dev) (slot : Nat) : Bool := (d.ledger slot).lver != d.rd Reg.UPD_STAT.LVER

/-- A restored block that fails its seal, or whose item is missing, puts its slot into REPAIR; under CONV it is flagged too
(R340, R359). -/
def Dev.badBlock (d : Dev) (slot : Nat) (conv : Bool) : Dev :=
  let d := if conv then d.raise Stk.UPD.CONV_FAIL else d
  if (d.ledger slot).st = 2 then d else d.enterRepair slot

/-- The cell of each port that is not OFF drives once seats open (R86, R378); FP_STAT.LINK follows. -/
def Dev.drivePorts (d : Dev) : Dev :=
  let d := (List.range 256).foldl (fun d p => d.wr Reg.FP_STAT.LINK (linkAtDrive (d.mode p)) p) d
  d.livePorts.foldl (fun d p => d.onPort p fun s => { s with drivenAt := some d.time.cnt }) d

/-- Open every provisioned seat, and run the field ports (R338, R131, R378). -/
def Dev.openSeats (d : Dev) : Dev :=
  let d := (d.cfg.seats.foldl Dev.openSeat d).drivePorts
  let radios := (List.range 256).filter fun p => d.cfg.portMode p == Canvas.mRADIO
  radios.foldl Dev.radioStart d

/-- The position epoch is raised and kept in the journal (R349). -/
def Dev.raiseEpoch (d : Dev) : Dev :=
  let e := d.rd Reg.CAS_EPOCH.EPOCH + 1
  { d with ldg := { d.ldg with nand := { d.ldg.nand with epoch := e % 2 ^ 32 } } }.wr Reg.CAS_EPOCH.EPOCH e

/-- Seats open: the active side takes a new epoch; after an L2 the boundaries that passed meanwhile take this tick as their boundary
tick, as after a forward step, and otherwise the search begins here (R67, R349, R373). -/
def Dev.finishStart (d : Dev) : Dev :=
  let d := if d.isActive then d.raiseEpoch else d
  let d := d.openSeats
  let d := if d.sys.cold then { d with time := { d.time with sweptTo := d.utc } } else d.findBounds d.time.tick
  let d := (d.wr Reg.CANVAS_STAT.STATE 0).setStep 0
  d.showBallsOf d.livePorts

/-- After step 6 the sides of a position compare journal tick and ledger digest: equal sides are in step; otherwise the standby
resynchronises (R342, R350). -/
def Dev.compareSides (d : Dev) (same : Bool) : Dev :=
  if !d.cfg.hasPartner then d
  else if same then d.wr Reg.CAS_STAT.RESYNCED 1
  else if d.isActive then d
  else { d with cas := { d.cas with resyncAt := some d.time.tick } }

/-- LEDGER_RESTORE (R340): step 6. `bad` lists blocks that fail their seal or belong to missing items, as slot and block,
`badKeys` the slots whose key record fails its seal, and `same` says that journal tick and ledgers equal the partner's. -/
def Dev.ledgerRestore (d : Dev) (bad : List (Nat × Nat)) (badKeys : List Nat) (same : Bool) : Dev :=
  if d.sys.phase ≠ .up ∨ d.step ≠ 6 then d else
  let d := if d.resident then d else d.restoreAll
  let old := (bad.map (·.1)).filter d.oldLayout
  let d := d.convert
  let d := (bad.map (·.1)).eraseDups.foldl (fun d s => d.badBlock s (old.contains s)) d
  let d := { d with pool := { d.pool with keys := badKeys.foldl SMap.erase d.pool.keys } }
  let waits := d.ldg.jwait
  let d := { d with ldg := { d.ldg with jwait := [] } }
  let d := waits.foldl Dev.commitTick d
  ((d.setStep 7).compareSides same).finishStart

end Sys2Proof.Machine
end

