-- ==== Sys2Proof/Machine/CanvasOps.lean ====
section
/-!
DEFINITION. Changing the canvas: staging, the partner's validation, arming, applying, committing and cancelling, and the load in the
unconfigured state (R37, R39, R49 to R53).
-/

namespace Sys2Proof.Machine

/-- CANVAS_STAT.STATE (R54). -/
def Dev.cvState (d : Dev) : Nat := d.rd Reg.CANVAS_STAT.STATE
def Dev.setCv (d : Dev) (st : Nat) : Dev := d.wr Reg.CANVAS_STAT.STATE st

/-- The state without a canvas in hand: IDLE, or UNCONF while none runs (R39). -/
def Dev.cvRest (d : Dev) : Dev := d.setCv (if d.cv.run.isSome then 0 else 0xF)

/-- Send a CANVAS frame to the partner: a kind and what it carries. -/
def Dev.canvasFrame (d : Dev) (kind : Nat) (rest : Bytes) : Dev := d.partnerSend tyCANVAS (leBytes 1 kind ++ rest)

/-- The active side tells its standby. -/
def Dev.tellStandby (d : Dev) (kind : Nat) (rest : Bytes) : Dev :=
  if d.isActive && d.cfg.hasPartner then d.canvasFrame kind rest else d

/-! ### Staging (R46, R49, R53) -/

/-- CANVAS_STAGE (R49): the fetch begins; STATE other than IDLE reports 0x001E, and an unaligned source 0x0020. -/
def Dev.canvasStage (d : Dev) (mode : Nat) : Dev :=
  let addr := d.rd64 Reg.CANVAS_SRC_ADDR.ADDR
  if d.cvState ≠ 0 ∧ d.cvState ≠ 0xF then d.cvCode 0x1E
  else if addr % 64 ≠ 0 then d.cvCode 0x20
  else
    let d := { d with cv := { d.cv with mode, fetched := none } }.setCv 1
    d.emit (.dmaRead addr (d.rd Reg.CANVAS_SRC_LEN.LEN))

/-- CANVAS_FETCH_DONE (R46): the fetch ends with the bytes, or with 0x0020. -/
def Dev.canvasFetchDone (d : Dev) (bytes : Option Bytes) : Dev :=
  if d.cvState ≠ 1 then d else
  match bytes with
  | none => (d.cvCode 0x20).cvRest
  | some b => { d with cv := { d.cv with fetched := some b } }.setCv 2

/-- The store that a staged canvas is written to (R37). -/
def Dev.freeStore (d : Dev) : Nat :=
  let c := d.cv
  match c.run, c.runStore with
  | some _, some s => 1 - s
  | _, _ =>
    if !c.store0.committed then 0
    else if !c.store1.committed then 1
    else if Canvas.serial c.store1.bytes < Canvas.serial c.store0.bytes then 1 else 0

/-- Write a canvas into a store. -/
def Dev.writeStore (d : Dev) (s : Nat) (b : Bytes) (committed : Bool) : Dev :=
  let d := d.nandWriteN (lpaCanvas + 4096 * s) sCOLD 0 (pagesOf b.length)
  let st : CvStore := { bytes := b, committed }
  { d with cv := if s = 0 then { d.cv with store0 := st } else { d.cv with store1 := st } }

/-- Commit a canvas as part of its load (R38, R39): the floor rises only where the store held a committed canvas. -/
def Dev.commitAtLoad (d : Dev) (b : Bytes) : Dev :=
  let s := d.freeStore
  let old := d.cv.store s
  let d := d.writeStore s b true
  let d := if old.committed then d.raiseFloor (min (Canvas.serial old.bytes) (Canvas.serial b)) else d
  let d := if Canvas.serial b = 2 ^ 32 - 1 then d.raise Stk.CANVAS.FLOOR_SAT else d
  (d.canvasRun b s).leaveStep1

/-- May a canvas be written to NAND now (R320, R324)? -/
def Dev.mayStore (d : Dev) : Bool := d.ftlReady && !d.ftlReadonly

/-- CANVAS_CHECK_DONE (R46, R39): validation ends. In the unconfigured state a canvas that passes is loaded at once. -/
def Dev.canvasCheckDone (d : Dev) : Dev :=
  match d.cv.fetched with
  | none => d
  | some b =>
    if d.cvState ≠ 2 ∨ d.cv.staged.isSome = true then d else
    let unconf := d.cv.run.isNone
    if unconf && !d.mayStore then d else
    let kind : CvKind := if unconf then .unconf else if d.cv.mode = 0 then .runTime else .nextStart
    match d.validate b kind with
    | some f => ({ d with cv := { d.cv with fetched := none } } : Dev).cvReject f |>.cvRest
    | none =>
      let d := { d with cv := { d.cv with fetched := none } }.wr Reg.CANVAS_STAT.REJECT 0
      if unconf then d.commitAtLoad b
      else { d with cv := { d.cv with staged := some { bytes := b, mode := d.cv.mode, store := d.freeStore } } }

/-- CANVAS_STAGED (R49): the valid canvas stands in the free store, uncommitted, and has been sent to the standby. -/
def Dev.canvasStaged (d : Dev) : Dev :=
  match d.cv.staged with
  | none => d
  | some s =>
    if d.cvState ≠ 2 ∨ d.mayStore = false then d else
    let d := (d.writeStore s.store s.bytes false).tellStandby 0 (leBytes 1 s.mode ++ s.bytes)
    (d.wr Reg.CANVAS_STAT.PARTNER_OK (b2n (!d.cfg.hasPartner))).setCv 3

/-- The staged canvas is given up and its store freed. -/
def Dev.dropStaged (d : Dev) : Dev :=
  let free := fun (st : CvStore) => if st.committed then st else ({} : CvStore)
  let cv := match d.cv.staged with
    | some s => if s.store = 0 then { d.cv with store0 := free d.cv.store0 } else { d.cv with store1 := free d.cv.store1 }
    | none => d.cv
  { d with cv := { cv with staged := none, fetched := none } }.cvRest

/-! ### The partner (R49, R51) -/

/-- The standby stages a canvas that its partner sent, or reports why not; with no canvas of its own it loads it (R38). -/
def Dev.partnerStages (d : Dev) (mode : Nat) (b : Option Bytes) : Dev :=
  let report := fun (d : Dev) code => d.canvasFrame 4 (leBytes 2 code)
  let fail := fun (f : CvFail) =>
    let d := d.cvReject f
    report (if d.cv.run.isNone then d.cvRest else { d with cv := { d.cv with peerStaged := true } }) f.code
  if d.cv.run.isNone then
    if d.rd Reg.GLB_STRAP.BOOT ≠ 2 ∨ d.cvState ≠ 5 then d else
    match b with
    | none => fail ⟨0x20, 0xFF, 0⟩
    | some b =>
      if !d.mayStore then d else
      match d.validate b .start with
      | some f => fail f
      | none => report ((d.wr Reg.CANVAS_STAT.REJECT 0).commitAtLoad b) 0
  else if d.cvState ≠ 0 then report (d.cvCode 0x1E) 0x1E
  else match b with
    | none => fail ⟨0x20, 0xFF, 0⟩
    | some b =>
      if !d.mayStore then { d with cv := { d.cv with peerStaged := true } } else
      match d.validate b (if mode = 0 then .runTime else .nextStart) with
      | some f => fail f
      | none =>
        let s := d.freeStore
        let d := (d.wr Reg.CANVAS_STAT.REJECT 0).writeStore s b false
        let d := { d with cv := { d.cv with staged := some { bytes := b, mode, store := s }, peerStaged := false } }
        report ((d.wr Reg.CANVAS_STAT.PARTNER_OK 1).setCv 3) 0

/-- A committed MODE 1 canvas is written into the journal of the next tick (R50). -/
def Dev.scheduleCommit (d : Dev) : Dev :=
  match d.cv.staged with
  | none => d
  | some s =>
    if d.cvState ≠ 3 ∨ s.mode ≠ 1 ∨ d.cv.commit.isSome = true then d else
    let k : CvCommit :=
      { tick := d.time.tick + 1, bytes := s.bytes, mode := 1, store := s.store, oldSerial := d.cfg.serial }
    { d with cv := { d.cv with commit := some k } }

/-- PARTNER_CANVAS (R49): what the active side says about a canvas reaches its standby. -/
def Dev.partnerCanvas (d : Dev) (m : CanvasMsg) : Dev :=
  match m with
  | .canvas mode b => d.partnerStages mode b
  | .armed t => if d.cvState = 3 then ({ d with cv := { d.cv with armT := t } } : Dev).setCv 4 else d
  | .cancelled abandoned =>
    let d := { d with cv := { d.cv with peerStaged := false } }
    let d := if abandoned then d.cvCode 0x1D else d
    if (d.cvState = 3 ∨ d.cvState = 4) ∧ d.cv.commit.isNone = true then d.dropStaged else d
  | .committed => ({ d with cv := { d.cv with peerStaged := false } } : Dev).scheduleCommit

/-- PARTNER_VALIDATION_REPORT (R51): a pass sets PARTNER_OK. -/
def Dev.partnerReport (d : Dev) (code : Nat) : Dev :=
  if d.cv.staged.isSome && code == 0 then d.wr Reg.CANVAS_STAT.PARTNER_OK 1 else d

/-! ### Arming, applying, committing, cancelling (R50 to R53) -/

/-- CANVAS_ARM (R51): a staged MODE 0 canvas is armed for tick T, or 0x001D is reported. -/
def Dev.canvasArm (d : Dev) : Dev :=
  let T := d.rd64 Reg.CANVAS_APPLY_TICK.TICK
  let now := d.time.tick
  match d.cv.staged with
  | none => d.cvCode 0x1D
  | some s =>
    if d.cvState ≠ 3 ∨ s.mode ≠ 0 ∨ T < now + 8 ∨ now + 2 ^ 32 < T then d.cvCode 0x1D
    else (({ d with cv := { d.cv with armT := T } } : Dev).setCv 4).tellStandby 1 (leBytes 8 T)

/-- Has the partner validated the armed canvas? -/
def Dev.partnerOk (d : Dev) : Bool := !d.cfg.hasPartner || d.on Reg.CANVAS_STAT.PARTNER_OK

/-- CANVAS_APPLY_ABANDON (R51): at the boundary between T − 2 and T − 1 the partner has not validated, so both sides abandon the
application. -/
def Dev.canvasAbandon (d : Dev) : Dev :=
  if d.cvState ≠ 4 ∨ d.cv.commit.isSome = true ∨ d.time.tick + 1 < d.cv.armT ∨ d.partnerOk = true then d
  else ((d.cvCode 0x1D).dropStaged).tellStandby 5 []

/-- CANVAS_APPLY (R52): at the boundary that opens T the run-time sections are replaced, and the commit record is written in the
mandatory work of T. -/
def Dev.canvasApply (d : Dev) : Dev :=
  match d.cv.staged with
  | none => d
  | some s =>
    if d.cvState ≠ 4 ∨ d.cv.commit.isSome = true ∨ d.time.tick < d.cv.armT ∨ d.partnerOk = false then d else
    let old := d.cfg
    let k : CvCommit := { tick := d.time.tick, bytes := s.bytes, mode := 0, store := s.store, oldSerial := old.serial }
    let d := { d with cv := { d.cv with run := some s.bytes, commit := some k } }
    let d := (d.wr Reg.CANVAS_SERIAL.SERIAL d.cfg.serial).wrBytes Reg.CANVAS_DIGEST.DIGEST (sha256 d.cfg) 8
    d.topoChange old

/-- CANVAS_COMMIT (R50). -/
def Dev.canvasCommit (d : Dev) : Dev :=
  let d' := d.scheduleCommit
  if d'.cv.commit = d.cv.commit then d else d'.tellStandby 3 []

/-- CANVAS_RELOAD (R50): the canvas reload reset source is raised. -/
def Dev.canvasReload (d : Dev) (c : Nat) : Dev := d.acceptMapped c 7

/-- CANVAS_CANCEL (R53): a fetch, check, staging or arming is abandoned before its target; a commit stands. -/
def Dev.canvasCancel (d : Dev) : Dev :=
  let st := d.cvState
  if d.cv.commit.isSome = true then d
  else if st = 1 ∨ st = 2 then d.dropStaged
  else if st = 3 ∨ (st = 4 ∧ d.time.tick < d.cv.armT) then d.dropStaged.tellStandby 2 []
  else d

/-- Commands that a write of CANVAS_CTL sets. -/
def cvCommands (v : Nat) : Nat := [0, 2, 3, 4, 5].foldl (fun n b => n + b2n (bitOf v b)) 0

/-- CANVAS_CTL_CONFLICT (R53): a write that sets more than one command is ignored as a whole; another acts. -/
def Dev.canvasCtl (d : Dev) (v : Nat) : Dev :=
  if 1 < cvCommands v then d
  else if bitOf v 0 then d.canvasStage (bitsOf v 1 1)
  else if bitOf v 2 then d.canvasArm
  else if bitOf v 3 then d.canvasCommit
  else if bitOf v 4 then d.canvasReload d.time.cnt
  else if bitOf v 5 then d.canvasCancel
  else d

end Sys2Proof.Machine
end

