-- ==== Sys2Proof/Machine/Readout.lean ====
section
/-!
DEFINITION. Readout: get and action requests of a role on the ledger objects of a slot, in xDLMS bytes, with block transfer
(R209 to R212, R291).
-/

namespace Sys2Proof.Machine

/-! ### Values in xDLMS bytes -/

def dU8 (v : Nat) : Bytes := [0x11] ++ beBytes 1 v
def dU16 (v : Nat) : Bytes := [0x12] ++ beBytes 2 v
def dU32 (v : Nat) : Bytes := [0x06] ++ beBytes 4 v
def dU64 (v : Nat) : Bytes := [0x15] ++ beBytes 8 v

/-- A length, in one byte or in two after 0x82. -/
def dLen (n : Nat) : Bytes := if n < 128 then beBytes 1 n else [0x82] ++ beBytes 2 n

def dOctets (b : Bytes) : Bytes := [0x09] ++ dLen b.length ++ b
def dArray (l : List Bytes) : Bytes := [0x01] ++ dLen l.length ++ l.flatten
def dStruct (l : List Bytes) : Bytes := [0x02] ++ dLen l.length ++ l.flatten

/-- A scaler and unit. -/
def dScaler (sc : Int) (unit : Nat) : Bytes := dStruct [[0x0F] ++ beBytes 1 (wrapI 8 sc), [0x16] ++ beBytes 1 unit]

/-- A capture object of a profile: class, OBIS code, attribute, data index 0. -/
def dCapture (cls : Nat) (obis : Bytes) (attr : Nat) : Bytes :=
  dStruct [dU16 cls, dOctets obis, [0x0F] ++ beBytes 1 attr, dU16 0]

/-! ### The objects of a slot (R209) -/

/-- The energy quantity of a register's OBIS field C and the rate of its field E. -/
def energyObis (o : Bytes) (nrates : Nat) : Option (Nat × Nat) :=
  let c := u o 2 1
  let e := u o 4 1
  if slice o 0 2 == [1, 0] && 1 ≤ c && c ≤ 4 && u o 3 1 == 8 && e ≤ nrates && u o 5 1 == 255 then some (c - 1, e) else none

/-- The demand quantity, rate and period (true: previous) of an extended register. -/
def demandObis (o : Bytes) (nrates : Nat) : Option (Nat × Nat × Bool) :=
  let c := u o 2 1
  let e := u o 4 1
  if slice o 0 2 == [1, 0] && 1 ≤ c && c ≤ 2 && u o 3 1 == 6 && e ≤ nrates && (u o 5 1 == 255 || u o 5 1 == 101) then
    some (c - 1, e, u o 5 1 == 101)
  else none

/-- The group of a ledger object (R209). -/
def objGroup (cls : Nat) (o : Bytes) (nrates : Nat) : Option Nat :=
  if cls = 3 then (energyObis o nrates).map fun q => if q.1 < 2 then 0 else 1
  else if cls = 4 then (demandObis o nrates).map fun q => if q.2.2 then 3 else 2
  else if cls = 7 ∧ o = [1, 0, 99, 1, 0, 255] then some 4
  else if cls = 7 ∧ o = [0, 0, 99, 98, 0, 255] then some 5
  else if cls = 20 ∧ o = [0, 0, 13, 0, 0, 255] then some 6
  else if cls = 9 ∧ o = [0, 0, 10, 0, 1, 255] then some 7
  else if cls = 1 ∧ o = [0, 0, 96, 5, 0, 255] then some 8
  else none

/-- A decimal number as text. -/
def decText (n : Nat) : Bytes := (Nat.toDigits 10 n).map fun c => BitVec.ofNat 8 c.toNat

/-- The columns of the load profile and of the tamper summary. -/
def profileColumns : List Bytes :=
  dCapture 7 [1, 0, 99, 1, 0, 255] 2 :: (List.range 4).map fun q => dCapture 3 [1, 0, BitVec.ofNat 8 (q + 1), 8, 0, 255] 2
def tamperColumns : List Bytes := (List.range 4).map fun i => dCapture 7 [0, 0, 99, 98, 0, 255] (i + 1)

/-- The value of an attribute of an object of a ledger; nothing where the object has no such attribute. -/
def Ledger.attribute (l : Ledger) (period pid cls : Nat) (o : Bytes) (nrates attr : Nat) : Option Bytes :=
  match objGroup cls o nrates with
  | none => none
  | some g =>
    if attr = 1 then some (dOctets o) else
    match g, attr with
    | 0, 2 | 1, 2 =>
      (energyObis o nrates).map fun q =>
        let b := l.energy.getD q.1 {}
        dU64 (if q.2 = 0 then b.total else nthN b.rates (q.2 - 1))
    | 0, 3 => some (dScaler (-1) 30)
    | 1, 3 => some (dScaler (-1) 32)
    | 2, 3 | 3, 3 => some (dScaler 0 27)
    | 2, a | 3, a =>
      (demandObis o nrates).bind fun q =>
        let m := (if q.2.2 then l.dmaxPrev else l.dmaxCur).getD (9 * q.1 + q.2.1) {}
        if a = 2 then some (dU32 m.value) else if a = 4 then some (dU8 m.dfl) else if a = 5 then some (dU64 m.time) else none
    | 4, 2 => some (dArray (l.ring.map fun p => dStruct (dU32 (p.2.w0 p.1) :: p.2.v.map dU32)))
    | 4, 3 => some (dArray profileColumns)
    | 4, 4 => some (dU32 (60 * period))
    | 4, 7 => some (dU32 l.ring.length)
    | 4, 8 => some (dU32 ringLen)
    | 5, 2 => some (dArray ((l.tamper.filter (·.count != 0)).map fun t =>
        dStruct [dU16 t.code, dU16 t.count, dU64 t.first, dU64 t.last]))
    | 5, 3 => some (dArray tamperColumns)
    | 5, 7 => some (dU32 (l.tamper.filter (·.count != 0)).length)
    | 5, 8 => some (dU32 8)
    | 6, 2 => some (dOctets (decText pid))
    | 8, 2 => some (dStruct [dU8 l.st, dU8 (b2n l.billed), dU16 (l.energy.getD 0 {}).defcnt])
    | _, _ => none

/-! ### Rights (R210, R211, R291) -/

/-- Results of a data access and of an action: an object or logical device that is absent, and a refusal. -/
def resAbsent : Nat := 4
def resDenied : Nat := 3

/-- The highest level that a readout on a path may claim (R283). -/
def Canvas.levelCap (c : Canvas) (n path : Nat) : Nat := if path = 2 then c.seatLvlPcie n else c.seatLvlUp n

/-- A refused access is counted (R211). -/
def Dev.denied (d : Dev) (n : Nat) : Dev := d.bump Reg.LDG_SEAT_CNT_1.DENIED 1 n

/-- The claimed level is above the seat's LVL for the path (R291). -/
def Dev.overLevel (d : Dev) (n : Nat) (r : Readout) : Bool :=
  let lvl := bitsOf r.sl 21 20
  decide (d.cfg.levelCap n r.path < lvl) || lvl == 3

/-- The palette in force for a slot now. -/
def Dev.palNow (d : Dev) (n slot : Nat) : Nat := d.cfg.pidAt n slot d.utc

/-- The rates of the palette in force. -/
def Dev.ratesNow (d : Dev) (n slot : Nat) : Nat := Palette.nRates (d.cfg.palette (d.palNow n slot))

/-- Serve one attribute: its Data, or the result that stands for it (R209 to R211). -/
def Dev.getAttr (d : Dev) (n : Nat) (r : Readout) (cls : Nat) (o : Bytes) (attr : Nat) : Dev × Except Nat Bytes :=
  let slot := bitsOf r.sl 19 0
  if d.overLevel n r then (((d.denied n).raiseSeat Stk.SEAT_STAT.LVL_DENIED n), .error resDenied)
  else if d.cfg.seatOfSlot slot ≠ some n then (d, .error resAbsent)
  else
    let nr := d.ratesNow n slot
    match objGroup cls o nr with
    | none => (d, .error resAbsent)
    | some g =>
      if d.cfg.right n (bitsOf r.sl 21 20) g = 0 then (d.denied n, .error resDenied)
      else match (d.ledger slot).attribute (d.cfg.seatPeriod n) (d.palNow n slot) cls o nr attr with
        | some b => (d, .ok b)
        | none => (d, .error resAbsent)

/-! ### Answers (R291) -/

/-- Bytes of raw data in a block of a response. -/
def blockRaw : Nat := 2030

/-- The bytes of a readout response: the same header, then the APDU. -/
def respBytes (r : Readout) (apdu : Bytes) : Bytes := leBytes 4 r.sl ++ leBytes 4 r.tag ++ apdu

/-- Zero-pad to a multiple of 8 bytes. -/
def pad8 (b : Bytes) : Bytes := b ++ zeros ((8 - b.length % 8) % 8)

/-- Send a response the way its request came, and take the request off; a full ring 2 leaves it waiting. -/
def Dev.respond (d : Dev) (n : Nat) (r : Readout) (apdu : Bytes) : Dev :=
  let b := respBytes r apdu
  let pop := fun (d : Dev) => d.onSeat n fun s => { s with readouts := s.readouts.drop 1 }
  if r.path = 2 then
    match d.ringPut n 2 (leBytes 4 b.length ++ zeros 4 ++ pad8 b) with
    | some d => pop d
    | none => d
  else pop (d.emit (.datagram n r.path b))

/-- One datablock of a get response. -/
def datablock (inv no : Nat) (raw : Bytes) : Bytes :=
  let head := raw.take blockRaw
  [0xC4, 0x02] ++ beBytes 1 inv ++ beBytes 1 (b2n (decide (raw.length ≤ blockRaw))) ++ beBytes 4 no ++ [0] ++
  dLen head.length ++ head

/-- Answer a get request with its data, in blocks if the response would be above 2,048 bytes. -/
def Dev.getResponse (d : Dev) (n : Nat) (r : Readout) (inv : Nat) (whole raw : Bytes) : Dev :=
  if whole.length ≤ 2048 then d.respond n r whole else
  let d := d.onSeat n fun s => { s with
    blocks := (s.blocks.filter fun b => !(b.1 == r.path && b.2.1 == r.sl)) ++ [(r.path, r.sl, 2, raw.drop blockRaw)] }
  d.respond n r (datablock inv 1 raw)

/-- get-request next: the block that follows. -/
def Dev.getNext (d : Dev) (n : Nat) (r : Readout) (inv no : Nat) : Dev :=
  match (d.seat n).blocks.find? fun b => b.1 == r.path && b.2.1 == r.sl && b.2.2.1 == no + 1 with
  | none => d.respond n r ([0xC4, 0x02] ++ beBytes 1 inv ++ [1] ++ beBytes 4 (no + 1) ++ [1, 19])
  | some (path, sl, k, raw) =>
    let keep := fun (s : SeatSt) => s.blocks.filter fun b => !(b.1 == path && b.2.1 == sl)
    let rest := raw.drop blockRaw
    let d := d.onSeat n fun s => { s with blocks := keep s ++ (if rest.isEmpty then [] else [(path, sl, k + 1, rest)]) }
    d.respond n r (datablock inv k raw)

/-- A Get-Data-Result. -/
def dataResult : Except Nat Bytes → Bytes
  | .ok b => [0] ++ b
  | .error e => [1] ++ beBytes 1 e

/-- get-request normal. -/
def Dev.getNormal (d : Dev) (n : Nat) (r : Readout) (inv : Nat) : Dev :=
  let a := r.apdu
  let (d, x) := d.getAttr n r (ofBe (slice a 3 2)) (slice a 5 6) (u a 11 1)
  match x with
  | .ok b => d.getResponse n r inv ([0xC4, 0x01] ++ beBytes 1 inv ++ dataResult x) b
  | .error _ => d.respond n r ([0xC4, 0x01] ++ beBytes 1 inv ++ dataResult x)

/-- get-request with-list: descriptors of 10 bytes without selective access. -/
def Dev.getList (d : Dev) (n : Nat) (r : Readout) (inv : Nat) : Dev :=
  let a := r.apdu
  let k := u a 3 1
  let q := (List.range k).foldl (fun (p : Dev × Bytes) i =>
    let o := 4 + 10 * i
    let (d, x) := p.1.getAttr n r (ofBe (slice a o 2)) (slice a (o + 2) 6) (u a (o + 8) 1)
    (d, p.2 ++ dataResult x)) (d, [])
  let list := beBytes 1 k ++ q.2
  q.1.getResponse n r inv ([0xC4, 0x03] ++ beBytes 1 inv ++ list) list

/-- action-request normal: method 1 of the billing close object with script 1 (R211, R212). -/
def Dev.actionNormal (d : Dev) (n : Nat) (r : Readout) (inv : Nat) : Dev :=
  let a := r.apdu
  let slot := bitsOf r.sl 19 0
  let (d, res) :=
    if d.overLevel n r then (((d.denied n).raiseSeat Stk.SEAT_STAT.LVL_DENIED n), resDenied)
    else if d.cfg.seatOfSlot slot ≠ some n then (d, resAbsent)
    else match objGroup (ofBe (slice a 3 2)) (slice a 5 6) (d.ratesNow n slot) with
      | none => (d, resAbsent)
      | some g =>
        if d.cfg.right n (bitsOf r.sl 21 20) g < 2 then (d.denied n, resDenied)
        else if g = 7 ∧ u a 11 1 = 1 ∧ slice a 12 4 = [1, 0x12, 0, 1] then d.billingAction n slot
        else (d, resAbsent)
  d.respond n r ([0xC7, 0x01] ++ beBytes 1 inv ++ beBytes 1 res ++ [0])

/-- set-request: no attribute is written by a readout (R211); a slot outside the seat's partition answers as an absent object. -/
def Dev.setRefused (d : Dev) (n : Nat) (r : Readout) (inv : Nat) : Dev :=
  let (d, res) :=
    if d.overLevel n r then (((d.denied n).raiseSeat Stk.SEAT_STAT.LVL_DENIED n), resDenied)
    else if d.cfg.seatOfSlot (bitsOf r.sl 19 0) ≠ some n then (d, resAbsent)
    else (d.denied n, resDenied)
  d.respond n r ([0xC5, 0x01] ++ beBytes 1 inv ++ beBytes 1 res)

/-- READOUT_REQUEST (R291): the oldest request of the seat is served. -/
def Dev.readoutRequest (d : Dev) (n : Nat) : Dev :=
  if d.rd Reg.SEAT_STAT.STATE n ≠ 1 then d else
  match (d.seat n).readouts with
  | [] => d
  | r :: _ =>
    let inv := u r.apdu 2 1
    match u r.apdu 0 1, u r.apdu 1 1 with
    | 0xC0, 1 => d.getNormal n r inv
    | 0xC0, 2 => d.getNext n r inv (ofBe (slice r.apdu 3 4))
    | 0xC0, 3 => d.getList n r inv
    | 0xC3, 1 => d.actionNormal n r inv
    | 0xC1, _ => d.setRefused n r inv
    | _, _ => d.respond n r [0xD8, 0x01, 0x01]

end Sys2Proof.Machine
end

