-- ==== Sys2Proof/Machine/Campaign.lean ====
section
/-!
DEFINITION. Campaigns: creation, the phases and repair rounds, the transmit slots of a port, responses and attempts, and the
commands (R247 to R259).
-/

namespace Sys2Proof.Machine

/-- A campaign. -/
def Dev.campaign (d : Dev) (i : Nat) : CampSt := SMap.get (fun _ => {}) d.camp.camps i

/-- The campaign that a seat has selected. -/
def Dev.campSel (d : Dev) (n : Nat) : Nat := d.rd Reg.CAMP_SEL.ID 0 n

/-- Does a seat own a campaign number (R259)? -/
def Dev.campOwned (d : Dev) (n i : Nat) : Bool := (d.campaign i).state != 0 && (d.campaign i).owner == n

/-! ### Creation (R248, R249) -/

/-- CREATE refused: REJ and REASON in the seat's copy; the number stays FREE. -/
def Dev.campRefuse (d : Dev) (n reason : Nat) : Dev :=
  (d.wr Reg.CAMP_STAT.REASON reason 0 n).raiseCopy Stk.CAMP_STAT.REJ n

/-- CAMP_CREATE (R248): seat `n` starts the fetch of a body for its selected number. -/
def Dev.campCreate (d : Dev) (n : Nat) : Dev :=
  let i := d.campSel n
  if (d.campaign i).state ≠ 0 then d.campRefuse n 1
  else (d.onCamp i fun _ => { state := 1, owner := n }).emit
    (.dmaRead (d.rd64 Reg.CAMP_SRC_ADDR_LO.VALUE n) (d.rd Reg.CAMP_SRC_LEN.VALUE 0 n))

/-- Does a descriptor field lie outside its range (cause 4)? A body of another length than its descriptor gives is one. -/
def campBadField (b : Bytes) : Bool :=
  let c : CampSt := { kind := u b 0 1, body := b }
  let image := c.kind == 1
  decide (c.kind = 0 ∨ 2 < c.kind ∨ 2 ≤ c.f 1 1 ∨ (image = false ∧ c.mcast = true) ∨
    2 ^ 20 ≤ c.first ∨ 2 ^ 20 ≤ c.last ∨ 2 ^ 40 ≤ c.actTime ∨ 4096 ≤ c.bkey ∨
    c.remc < 1 ∨ 1024 < c.remc ∨ c.duty < 1 ∨ 50 < c.duty ∨ c.maxTry < 1 ∨ 15 < c.maxTry ∨
    c.maxRound < 1 ∨ 15 < c.maxRound ∨ c.perBeacon < 1 ∨ 4 < c.perBeacon ∨ b.length ≠ 64 + c.imgLen) ||
  (if image then decide (c.blk < 128 ∨ 1024 < c.blk ∨ c.imgLen < 1 ∨ 4194304 < c.imgLen ∨ 32768 < c.total)
   else decide (c.blk ≠ 0 ∨ c.imgLen < 1 ∨ 4096 < c.imgLen))

/-- Does the range overlap another campaign of the kind that is not FREE (cause 3)? -/
def Dev.campOverlap (d : Dev) (i : Nat) (c : CampSt) : Bool :=
  d.camp.camps.any fun o => o.1 != i && o.2.state != 0 && o.2.kind == c.kind && o.2.first ≤ c.last && c.first ≤ o.2.last

/-- Can a seat use a broadcast key (cause 5)? -/
def Dev.bkeyOk (d : Dev) (n slot : Nat) : Bool :=
  (d.veff slot).usable && usageOf (d.veff slot).attr == 4 && d.ownsSlot n slot

/-- Bytes of the campaign area that a campaign takes: its body and 8 bytes per target (R18, R251). -/
def CampSt.areaBytes (c : CampSt) : Nat :=
  if c.state = 0 ∨ c.body = [] then 0 else c.body.length + 8 * (c.last + 1 - c.first)

/-- Bytes of the area in use. -/
def Dev.campUsed (d : Dev) : Nat := d.camp.camps.foldl (fun a c => a + c.2.areaBytes) 0

/-- The cause, if any, for which a fetched body is refused, in the order of R249. -/
def Dev.campCause (d : Dev) (n i : Nat) (b : Bytes) : Option Nat :=
  let c : CampSt := { state := 1, kind := u b 0 1, owner := n, body := b }
  let own := fun s => d.cfg.seatOfSlot s == some n
  if c.last < c.first ∨ own (c.first % 2 ^ 20) = false ∨ own (c.last % 2 ^ 20) = false then some 2
  else if d.campOverlap i c then some 3
  else if campBadField b then some 4
  else if c.mcast = true ∧ d.bkeyOk n c.bkey = false then some 5
  else if d.ftlReadonly = true ∨ d.cfg.campArea * 1048576 < d.campUsed + c.areaBytes then some 6
  else none

/-- CAMP_FETCH_DONE (R248, R249): the body of campaign `i` is in place and it is READY, or creation is refused. -/
def Dev.campFetchDone (d : Dev) (i : Nat) (body : Option Bytes) : Dev :=
  let c := d.campaign i
  if c.state ≠ 1 then d else
  let refuse := fun r => (d.onCamp i fun _ => {}).campRefuse c.owner r
  match body with
  | none => refuse 7
  | some b =>
    match d.campCause c.owner i b with
    | some r => refuse r
    | none =>
      let d := d.nandWriteN (lpaImages + 512 * i) sCOLD d.time.tick (pagesOf b.length)
      d.onCamp i fun c =>
        { state := 2, kind := u b 0 1, owner := c.owner, body := b, nand := b, chk := sealOf (campPayload b) }

/-! ### Phases (R250, R253, R258) -/

/-- The targets of a campaign at START: NOTARGET where a slot is not provisioned or has no address. -/
def Dev.campTargets (d : Dev) (c : CampSt) : List Target :=
  (List.range (c.last + 1 - c.first)).map fun k =>
    let slot := c.first + k
    let ok := (d.cfg.seatOfSlot slot).isSome && (d.campAddr slot).isSome
    { slot, st := if ok then .pending else .notarget }

/-- A new step begins: no attempt has failed at it yet. -/
def CampSt.newStep (c : CampSt) : CampSt :=
  { c with pos := [], targets := c.targets.map fun t => { t with tries := 0, waiting := false } }

/-- The first step of a round: bitmaps are to be read; a target that takes no multicast blocks lacks them all (R250). -/
def Dev.roundStart (d : Dev) (c : CampSt) (round : Nat) : CampSt :=
  let c := { c with round, step := 1 }.newStep
  { c with targets := c.targets.map fun t =>
      if !t.active then t
      else if d.mcTarget c t then { t with asked := false }
      else { t with st := .incomplete, asked := true, lacks := List.range c.total, missing := c.total } }

/-- Targets that still lack a block. -/
def CampSt.lackCount (c : CampSt) (b : Nat) : Nat := (c.targets.filter fun t => t.active && t.lacks.contains b).length

/-- Steps 2 and 3 of a round: the blocks lacking at REMC or more targets are multicast again, or step 4 begins. DEDUCED (log entry
103): a campaign without MCAST multicasts nothing and goes on to step 4. -/
def CampSt.roundCount (c : CampSt) : CampSt :=
  let again := if c.mcast then (List.range c.total).filter fun b => c.remc ≤ c.lackCount b else []
  if again.isEmpty then { c with step := 4, again := [] }.newStep else { c with step := 3, again }.newStep

/-- Has every port that carries such a target sent all its blocks of MULTICAST or step 3? -/
def Dev.mcDone (d : Dev) (c : CampSt) : Bool := (d.mcPorts c).all fun p => (c.nextBlock p).isNone

/-- Every target has reached its end (DONE of R250). -/
def CampSt.allOver (c : CampSt) : Bool := c.targets.all Target.over

/-- What the engine goes on to when the running phase or step has ended: the campaign as it goes on inside its phase, or the
next phase. -/
inductive CampNext where
  | stay
  | step (c : CampSt)
  | phase (p : Nat)
  deriving DecidableEq, Repr

/-- Where a running campaign goes from here. -/
def Dev.campNext (d : Dev) (c : CampSt) : CampNext :=
  if c.allOver then .phase 7
  else if c.state = 3 then
    if c.targets.any fun t => t.st == .pending then .stay else if c.mcast then .phase 4 else .phase 5
  else if c.state = 4 then if d.mcDone c then .phase 5 else .stay
  else if c.state = 5 ∧ c.kind = 1 then
    if !(c.targets.any Target.active) then .phase 6
    else if c.step = 1 then
      if c.targets.any fun t => t.active && !t.asked then .stay else .step c.roundCount
    else if c.step = 3 then
      if !d.mcDone c then .stay
      else if c.round < c.maxRound then .step (d.roundStart c (c.round + 1))
      else .step { c with step := 4, again := [] }.newStep
    else .stay
  else .stay

/-- A campaign enters a phase. -/
def Dev.campPhaseBody (d : Dev) (c : CampSt) (p : Nat) : CampSt :=
  let c := { c with state := p, step := 1 }.newStep
  if p = 5 ∧ c.kind = 1 then d.roundStart c 1 else c

/-- CAMP_PHASE_SEAL_CHECK (R258): before a phase the payload is checked; a bad DRAM copy is reloaded from NAND, and where that
fails too the campaign is aborted. -/
def Dev.enterPhase (d : Dev) (i p : Nat) (seen : ImgSeen) : Dev :=
  let c := d.campaign i
  let good := fun (b : Bytes) => sealOf (campPayload b) = c.chk
  if p = 7 ∨ (seen = .sound ∧ good c.body) then d.onCamp i fun c => d.campPhaseBody c p
  else if seen ≠ .bothBad ∧ good c.nand then d.onCamp i fun c => d.campPhaseBody { c with body := c.nand } p
  else (d.onCamp i fun c => { c with state := 9 }).raise Stk.CAMP.IMG_SEAL

/-- Targets whose slot is no longer provisioned, or has lost its address, become NOTARGET (R250). -/
def Dev.campLost (d : Dev) (c : CampSt) : CampSt :=
  { c with targets := c.targets.map fun t =>
      if !t.over && ((d.cfg.seatOfSlot t.slot).isNone || (d.campAddr t.slot).isNone) then { t with st := .notarget, waiting := false }
      else t }

/-- Carry a running campaign over the phases and steps that have ended; `fuel` bounds them. -/
def Dev.campAdvance (d : Dev) (i : Nat) (seen : ImgSeen) : Nat → Dev
  | 0 => d
  | k + 1 =>
    let c := d.campaign i
    if campPhase c.state = false then d else
    match d.campNext c with
    | .stay => d
    | .step c' => (d.onCamp i fun _ => c').campAdvance i seen k
    | .phase p => (d.enterPhase i p seen).campAdvance i seen k

/-- Phases and steps that can end at once. -/
def campFuel : Nat := 8

/-- A campaign all of whose targets have reached their end is DONE. -/
def Dev.campSettle (d : Dev) (i : Nat) : Dev :=
  let c := d.campaign i
  if campPhase c.state = true ∧ c.allOver = true then d.enterPhase i 7 .sound else d

/-! ### Commands (R256) -/

/-- CAMP_START. -/
def Dev.campStart (d : Dev) (n : Nat) (seen : ImgSeen) : Dev :=
  let i := d.campSel n
  let c := d.campaign i
  if d.campOwned n i = false ∨ c.state ≠ 2 then d else
  let d := d.onCamp i fun c => { c with targets := d.campTargets c, round := 0 }
  ((d.enterPhase i (if c.kind = 1 then 3 else 5) seen).campSettle i)

/-- CAMP_PAUSE. -/
def Dev.campPause (d : Dev) (n : Nat) : Dev :=
  let i := d.campSel n
  if d.campOwned n i && campPhase (d.campaign i).state then d.onCamp i CampSt.pause else d

/-- CAMP_RESUME. -/
def Dev.campResume (d : Dev) (n : Nat) : Dev :=
  let i := d.campSel n
  if d.campOwned n i && (d.campaign i).state == 8 then
    (d.onCamp i fun c => { c with state := c.paused, paused := 0 }).campSettle i
  else d

/-- CAMP_ABORT. -/
def Dev.campAbort (d : Dev) (n : Nat) : Dev :=
  let i := d.campSel n
  if d.campOwned n i then d.onCamp i fun c => { c with state := 9 } else d

/-- CAMP_RELEASE. -/
def Dev.campRelease (d : Dev) (n : Nat) : Dev :=
  let i := d.campSel n
  let st := (d.campaign i).state
  if d.campOwned n i = true ∧ (st = 7 ∨ st = 9) then d.onCamp i fun _ => {} else d

/-! ### Messages (R250 to R253), as xDLMS APDUs -/

/-- Class, object and attribute or method of a request. -/
def campObj (cls : Nat) (obis : Bytes) (a : Nat) : Bytes := beBytes 2 cls ++ obis ++ beBytes 1 a

/-- The image transfer object and the two schedules. -/
def obisImage : Bytes := [0, 0, 44, 0, 0, 255]
def obisActSched : Bytes := [0, 0, 15, 0, 2, 255]
def obisCalendar : Bytes := [0, 0, 13, 0, 0, 255]

/-- An action request with a parameter; `conf` asks for a response. -/
def actionReq (cls : Nat) (obis : Bytes) (m : Nat) (conf : Bool) (arg : Bytes) : Bytes :=
  [0xC3, 1, if conf then 0xC1 else 0x81] ++ campObj cls obis m ++ [1] ++ arg

/-- A string without its zero padding. -/
def trimZeros (b : Bytes) : Bytes := (b.reverse.dropWhile (· == 0)).reverse

def CampSt.initReq (c : CampSt) : Bytes :=
  actionReq 18 obisImage 1 true (dStruct [dOctets (trimZeros (slice c.body 32 32)), dU32 c.imgLen])

def CampSt.blockReq (c : CampSt) (b : Nat) (conf : Bool) : Bytes :=
  actionReq 18 obisImage 2 conf (dStruct [dU32 b, dOctets (c.block b)])

def statusReq : Bytes := [0xC0, 1, 0xC1] ++ campObj 18 obisImage 3 ++ [0]
def verifyReq : Bytes := actionReq 18 obisImage 3 true [0x0F, 0]
def activateReq : Bytes := actionReq 18 obisImage 4 true [0x0F, 0]

/-- Year, month and day of month of a day number. -/
def ymd (day : Int) : Nat × Nat × Nat :=
  let c := civil day
  (c.1.toNat, c.2.1, c.2.2)

/-- A UTC instant as an execution time: a time of day and a date. -/
def execTime (t : Nat) : Bytes :=
  let s := t % 86400
  let y := ymd (t / 86400 : Nat)
  dArray [dStruct [dOctets (beBytes 1 (s / 3600) ++ beBytes 1 (s / 60 % 60) ++ beBytes 1 (s % 60) ++ [0]),
    dOctets (beBytes 2 y.1 ++ beBytes 1 y.2.1 ++ beBytes 1 y.2.2 ++ [0xFF])]]

/-- A UTC instant as a date-time with deviation 0. -/
def utcDateTime (t : Nat) : Bytes :=
  let s := t % 86400
  let y := ymd (t / 86400 : Nat)
  beBytes 2 y.1 ++ beBytes 1 y.2.1 ++ beBytes 1 y.2.2 ++ [0xFF] ++ beBytes 1 (s / 3600) ++ beBytes 1 (s / 60 % 60) ++
    beBytes 1 (s % 60) ++ [0, 0, 0, 0]

def CampSt.schedReq (c : CampSt) : Bytes := [0xC1, 1, 0xC1] ++ campObj 22 obisActSched 4 ++ [0] ++ execTime c.actTime

/-- The set-request-with-list of attributes 6 to 10; `now` stands for an ACT_TIME of 0. -/
def CampSt.calReq (c : CampSt) (now : Nat) : Bytes :=
  let at0 := if c.actTime = 0 then now else c.actTime
  [0xC1, 4, 0xC1, 5] ++ ((List.range 5).flatMap fun k => campObj 20 obisCalendar (6 + k) ++ [0]) ++ [5] ++
    campPayload c.body ++ dOctets (utcDateTime at0)

/-! ### Transmit slots (R252, R254, R255) -/

/-- The unicast message that a target needs in the running phase and step. -/
def Dev.campNeed (d : Dev) (c : CampSt) (t : Target) : Option Bytes :=
  if c.phase = 3 then if t.st = .pending then some c.initReq else none
  else if c.phase = 5 ∧ c.kind = 2 then if t.st = .pending then some (c.calReq d.utc.toNat) else none
  else if c.phase = 5 then
    if c.step = 1 then if t.active && !t.asked then some statusReq else none
    else if c.step = 4 ∧ t.active = true then t.lacks.head?.map fun b => c.blockReq b true
    else none
  else if c.phase = 6 ∧ t.st = .complete then
    some (if !t.armed then verifyReq else if c.actTime = 0 then activateReq else c.schedReq)
  else none

/-- May a target be offered on a port in this slot? -/
def Dev.campOffer (d : Dev) (c : CampSt) (p : Nat) (t : Target) : Bool :=
  !t.waiting && decide (t.notBefore ≤ d.time.tick) && d.tgtPort t == some p && (d.campNeed c t).isSome &&
    (d.mode p != Canvas.mRADIO || ((d.campAddr t.slot).bind fun a => d.neighOf (a.1 % 2 ^ 64)).isSome)

/-- Is the CAP right after the last beacon of a RADIO port running (R132, R252)? -/
def Dev.inCap (d : Dev) (p : Nat) : Bool :=
  let s := d.rad p
  let slotNs := d.cfg.radBI p * 2 ^ d.cfg.radSO p / (16 * 2 ^ d.cfg.radBO p)
  s.k != 0 && decide (d.beaconAt p (s.k - 1) ≤ d.time.cnt ∧
    (d.time.cnt : Int) < d.beaconAt p (s.k - 1) + ((16 - gtsSlots s.gts) * slotNs : Nat))

/-- Blocks sent on a RADIO port in the running beacon interval. -/
def Dev.blocksNow (d : Dev) (p : Nat) : Nat :=
  let b := SMap.get (fun _ => (0, 0)) d.camp.bpb p
  if b.1 = (d.rad p).k then b.2 else 0

/-- The block that a campaign may multicast on a port in this slot: on RADIO, at most BPB in the CAP of an interval whose beacon
carries Frame Pending (R252). -/
def Dev.campBlockFor (d : Dev) (c : CampSt) (p : Nat) : Option Nat :=
  if !(d.mcPorts c).contains p then none
  else if d.mode p == Canvas.mRADIO && (!(d.rad p).fp || !d.inCap p || c.perBeacon ≤ d.blocksNow p) then none
  else c.nextBlock p

/-- Has a campaign a frame for a port? -/
def Dev.campHas (d : Dev) (p i : Nat) : Bool :=
  let c := d.campaign i
  campPhase c.state && ((d.campBlockFor c p).isSome || c.targets.any (d.campOffer c p))

/-- A frame was started: the port's gap, the turn that follows, and CAMP_TX. -/
def Dev.campSent (d : Dev) (i p airtime : Nat) : Dev :=
  let c := d.campaign i
  let gap := (airtime * 100 + c.duty - 1) / max 1 c.duty
  let d := { d with camp := { d.camp with gapTo := SMap.put d.camp.gapTo p (d.time.tick + gap) } }
  d.onCamp i fun c => { c with tx := (c.tx + 1) % 2 ^ 32 }

/-- Change a target of a campaign. -/
def Dev.onTgt (d : Dev) (i slot : Nat) (g : Target → Target) : Dev :=
  d.onCamp i fun c => { c with targets := c.targets.map fun t => if t.slot = slot then g t else t }

/-- A target becomes FAILED (R251). -/
def Dev.tgtFail (d : Dev) (i slot : Nat) : Dev :=
  (d.onTgt i slot fun t => { t with st := .failed, waiting := false }).raiseFor Stk.CAMP.TARGET_FAIL (d.campaign i).owner slot

/-- An attempt of a target failed (R251). -/
def Dev.tgtMiss (d : Dev) (i slot : Nat) : Dev :=
  let c := d.campaign i
  match c.targets.find? fun t => t.slot == slot with
  | none => d
  | some t =>
    if c.maxTry ≤ t.tries + 1 then d.tgtFail i slot
    else d.onTgt i slot fun t => { t with tries := t.tries + 1, waiting := false }

/-- The broadcast key can no longer be used (CAMP_ERR_STICKY.BKEY_BAD): the campaign is PAUSED. -/
def Dev.bkeyBad (d : Dev) (i : Nat) : Dev := (d.onCamp i CampSt.pause).raise Stk.CAMP.BKEY_BAD

/-- Where the blocks of a port's standard go (R252). -/
def Dev.mcDst (d : Dev) (p : Nat) : McastDst :=
  if d.mode p == Canvas.mRADIO then .radioBroadcast else if d.cfg.plcStd p = 1 then .primeBroadcast else .g3AllNodes

/-- MULTICAST_BLOCK (R252): authentication only, under the broadcast key and the counter that the vault hands out. -/
def Dev.sendBlock (d : Dev) (i p b : Nat) (sys : Bytes) (airtime : Nat) : Dev :=
  let c := d.campaign i
  if d.bkeyOk c.owner c.bkey = false then d.bkeyBad i else
  match d.bcastNext c.bkey with
  | (d, none) => d.bkeyBad i
  | (d, some ic) =>
    let pt := c.blockReq b false
    let tag := (gcmSeal (slice (d.veff c.bkey).key 0 16) (sys ++ beBytes 4 ic) ([0x50] ++ Config.bcastAk c.bkey ++ pt) [] 12).2
    let frame := [0xDB, 8] ++ sys ++ dLen (5 + pt.length + 12) ++ [0x50] ++ beBytes 4 ic ++ pt ++ tag
    let d := d.emit (.campBlock p (d.mcDst p) frame)
    let d := { d with
      camp := { d.camp with bpb := SMap.put d.camp.bpb p ((d.rad p).k, d.blocksNow p + 1) }
      ldg := { d.ldg with jrn := { d.ldg.jrn with ceils := SMap.put d.ldg.jrn.ceils c.bkey (d.counter c.bkey) } } }
    (d.onCamp i fun c => { c with pos := SMap.put c.pos p (c.sentOn p + 1) }).campSent i p airtime

/-- Beacon interval of a port in ticks, rounded up. -/
def Dev.beaconTicks (d : Dev) (p : Nat) : Nat := (d.cfg.radBI p + d.tickNs - 1) / max 1 d.tickNs

/-- A unicast message goes out on its port: on RADIO it enters the indirect queue (R251, R255). -/
def Dev.sendUnicast (d : Dev) (i p : Nat) (t : Target) (msg sys : Bytes) (airtime : Nat) : Dev :=
  let radio := d.mode p == Canvas.mRADIO
  if radio && 64 ≤ (d.rad p).indirect.length then
    (d.onTgt i t.slot fun t => { t with notBefore := d.time.tick + d.beaconTicks p }).onCamp i fun c =>
      { c with refused := min 0xFFFF (c.refused + 1) }
  else if u (d.keyRec t.slot) 52 4 = 0xFFFFFFFF then (d.cipherTo t.slot sys msg).1.tgtFail i t.slot
  else
    match d.cipherTo t.slot sys msg with
    | (d, none) => d.tgtMiss i t.slot
    | (d, some bytes) =>
      match d.poolAsk .campaign 0 (bufsOf bytes.length) with
      | (d, none) => d
      | (d, some bufs) =>
        let key := ((d.campAddr t.slot).map (·.1)).getD 0
        let d := match d.neighOf (key % 2 ^ 64) with
          | some nb => if radio then (d.indirectPut p nb.2 bytes (.campaign i t.slot)).1 else d.emit (.campUnicast p key bytes)
          | none => d.emit (.campUnicast p key bytes)
        let d := d.poolGive 0 bufs
        (d.onTgt i t.slot fun t => { t with waiting := true, lastTick := d.time.tick }).campSent i p airtime

/-- The frame of campaign `i` on a port: a block before a unicast message. -/
def Dev.campSend (d : Dev) (i p : Nat) (sys : Bytes) (airtime : Nat) : Dev :=
  let c := d.campaign i
  match d.campBlockFor c p with
  | some b =>
    match d.poolAsk .campaign 0 (bufsOf (c.blk + 64)) with
    | (d, none) => d
    | (d, some bufs) => (d.sendBlock i p b sys airtime).poolGive 0 bufs
  | none =>
    match c.targets.find? (d.campOffer c p) with
    | some t => match d.campNeed c t with
      | some m => d.sendUnicast i p t m sys airtime
      | none => d
    | none => d

/-- CAMP_TX_SLOT (R254): the transmit slot of a port. `airtime` is that of the frame to be started, in ticks rounded up, `busy`
says that the port's transmit path is busy (a PAUSE holds it too, R88), and `sys` is the device's system title. -/
def Dev.campTxSlot (d : Dev) (p : Nat) (sys : Bytes) (airtime : Nat) (busy : Bool) (seen : ImgSeen) : Dev :=
  let d := (List.range 16).foldl (fun d i =>
    (if campPhase (d.campaign i).phase && d.campLost (d.campaign i) != d.campaign i then d.onCamp i d.campLost else d).campAdvance i seen campFuel) d
  let storm := d.mode p == Canvas.mRADIO && d.on Reg.RADIO_STAT.STORM p
  if !d.granted || d.on Reg.ING_STAT.HOLD || storm || busy || d.isolated p || d.paused p || !(d.port p).txq.isEmpty ||
      decide (d.time.tick < SMap.get (fun _ => 0) d.camp.gapTo p) then d
  else
    let from_ := SMap.get (fun _ => 0) d.camp.turn p
    match (List.range 16).find? fun k => d.campHas p ((from_ + k) % 16) with
    | none => d
    | some k =>
      let i := (from_ + k) % 16
      let d := { d with camp := { d.camp with turn := SMap.put d.camp.turn p ((i + 1) % 16) } }
      d.campSend i p sys airtime

/-! ### Responses and attempts (R251, R253, R255) -/

/-- A target's state after its request was answered. -/
def Target.answered (t : Target) (c : CampSt) : Target :=
  let t := { t with waiting := false }
  if c.phase = 3 then { t with st := .initiated, tries := 0 }
  else if c.phase = 5 ∧ c.kind = 2 then { t with st := .verified }
  else if c.phase = 5 then
    let l := t.lacks.drop 1
    { t with lacks := l, missing := l.length, st := if l.isEmpty then .complete else .incomplete }
  else if t.armed then { t with st := .verified } else { t with armed := true, tries := 0 }

/-- A target's state after its bitmap was read. -/
def Target.bitmap (t : Target) (c : CampSt) (blocks : List Nat) : Target :=
  let l := (List.range c.total).filter blocks.contains
  { t with
    waiting := false, asked := true, lacks := l, missing := l.length, tries := 0
    st := if l.isEmpty then .complete else .incomplete }

/-- CAMP_RESPONSE (R251): the answer of a target whose request is open. -/
def Dev.campResponse (d : Dev) (i slot : Nat) (a : CampAnswer) : Dev :=
  let c := d.campaign i
  if campPhase c.phase = false then d else
  match c.targets.find? fun t => t.slot == slot && t.waiting with
  | none => d
  | some _ =>
    let reading := decide (c.phase = 5 ∧ c.kind = 1 ∧ c.step = 1)
    let d := match a with
      | .temporary => d.onTgt i slot fun t => { t with waiting := false }
      | .error => d.tgtMiss i slot
      | .negative =>
        if c.phase = 6 then
          (d.tgtFail i slot).onCamp i fun c => { c with vfail := min 0xFFFF (c.vfail + 1) }
        else d.tgtMiss i slot
      | .lacks bs => if reading then d.onTgt i slot fun t => t.bitmap c bs else d.tgtMiss i slot
      | .done => if reading then d.tgtMiss i slot else d.onTgt i slot fun t => t.answered c
    d.campSettle i

/-- CAMP_ATTEMPT_TIMEOUT (R251): no response within 30 s. -/
def Dev.campTimeout (d : Dev) (i slot : Nat) : Dev :=
  let c := d.campaign i
  if campPhase c.phase = false then d else
  match c.targets.find? fun t => t.slot == slot && t.waiting with
  | none => d
  | some t => if d.time.tick < t.lastTick + 3000 then d else (d.tgtMiss i slot).campSettle i

/-- An indirect frame of a campaign expired: a failed attempt, counted in CAMP_QREF (R255). -/
def Dev.campExpired (d : Dev) (f : Indirect) : Dev :=
  match f.from_ with
  | .other => d
  | .campaign i slot =>
    let d := d.onCamp i fun c => { c with expired := min 0xFFFF (c.expired + 1) }
    if (d.campaign i).targets.any fun t => t.slot == slot && t.waiting then (d.tgtMiss i slot).campSettle i else d

/-- INDIRECT_EXPIRE (R134, R255). -/
def Dev.indirectExpire (d : Dev) (p : Nat) : Dev :=
  if !d.isRadio p then d else (d.indirectExpired p).foldl Dev.campExpired (d.indirectDrop p)

/-- INDIRECT_TX (R134, R255): only the holder of the grant sends. -/
def Dev.indirectTx (d : Dev) (p fails : Nat) : Dev :=
  if !d.isRadio p || !d.granted then d else
  match d.indirectHead p with
  | some f => let d := d.indirectSend p fails; if fails > 3 then d.campExpired f else d
  | none => d.indirectSend p fails

/-- At a boundary: a running campaign whose broadcast key has become unusable is PAUSED. -/
def Dev.campKeys (d : Dev) : Dev :=
  (d.camp.camps.filter fun c => campPhase c.2.state && c.2.mcast && !d.bkeyOk c.2.owner c.2.bkey).foldl
    (fun d c => d.bkeyBad c.1) d

/-! ### CAMP_CTL -/

/-- A write of CAMP_CTL: each command bit in turn. -/
def Dev.campCtl (d : Dev) (n v : Nat) : Dev :=
  let go := fun (d : Dev) (b : Nat) (g : Dev → Dev) => if bitOf v b then g d else d
  let d := go d 0 (·.campCreate n)
  let d := go d 1 (·.campStart n .sound)
  let d := go d 2 (·.campPause n)
  let d := go d 3 (·.campResume n)
  let d := go d 4 (·.campAbort n)
  go d 5 (·.campRelease n)

end Sys2Proof.Machine
end

