-- ==== Sys2Proof/Machine/Rail.lean ====
section
/-!
DEFINITION. The rail carrier: its frames, listening, acknowledgements, impulses and pilots (R120 to R124).
-/

namespace Sys2Proof.Machine

/-- The types of rail frames (R121). -/
def railACK : Nat := 4

/-- This device's SRC_POS: 0xFE when its position is not known. -/
def Dev.railPos (d : Dev) : Nat := if d.pos ≤ 39 then d.pos else 0xFE

/-- A rail frame (R121). -/
def railFrame (ty src flags dst seq nonce : Nat) (payload : Bytes) : Bytes :=
  let b := leBytes 1 (0x10 + ty) ++ leBytes 1 payload.length ++ leBytes 1 src ++ leBytes 1 flags ++ leBytes 1 dst ++
    leBytes 1 seq ++ [0, 0] ++ leBytes 4 nonce ++ payload
  b ++ leBytes 4 (sealOf b)

/-- The FLAGS of a frame that this device sends (R121). -/
def Dev.railFlags (d : Dev) (side ackReq : Nat) : Nat := side + 2 * ackReq + 4 * d.rd Reg.CAS_STAT.DEALER

/-- The carrier frequency in units of 100 Hz; a CARRIER of 7 acts as 6 (R120, R126). -/
def Dev.railCarrier (d : Dev) : Nat := 1250 + 25 * min 6 (d.rd Reg.RAIL_CFG.CARRIER)

/-- Put a frame on the carrier. -/
def Dev.railOut (d : Dev) (bs : Bytes) : Dev := (d.bump Reg.RAIL_CNT.TX).emit (.rail d.railCarrier bs)

/-- Queue a frame for the rail carrier; a broadcast never asks for an ACK. A device whose strap disables the carrier sends
nothing. -/
def Dev.railEnqueue (d : Dev) (ty dst : Nat) (payload : Bytes) (ackReq : Bool) : Dev :=
  if !d.on Reg.RAIL_CFG.ENABLED then d else
  let ack := ackReq && dst != 0xFF
  let f := railFrame ty d.railPos (d.railFlags (d.rd Reg.CAS_CFG.SIDE) (b2n ack)) dst d.rail.seq d.rail.nonce payload
  { d with rail := { d.rail with
    queue := d.rail.queue ++ [{ bytes := f, ackReq := ack }]
    seq := (d.rail.seq + 1) % 256 } }

/-- RAIL_FRAME_SEND (R122): the device listens; on a free carrier it sends its oldest frame, on a busy one it backs off. -/
def Dev.railFrameSend (d : Dev) (c : Nat) (busy : Bool) : Dev :=
  let d := d.advance c
  if !d.on Reg.RAIL_CFG.ENABLED || d.time.cnt < d.rail.holdTo || d.rail.waiting.isSome then d else
  let d := d.wr Reg.RAIL_STAT.BUSY (b2n busy)
  match d.rail.queue with
  | [] => d
  | f :: rest =>
    if busy then
      let d : Dev := { d with rail := { d.rail with holdTo := d.time.cnt + 400000 * d.fresh 52 16 } }
      d.took
    else
      ({ d with rail := { d.rail with queue := rest, waiting := if f.ackReq then some f else none } } : Dev).railOut f.bytes

/-- RAIL_ACK_TIMEOUT (R122): no ACK within 9 ms: the frame is retried, and abandoned after 3 retries. -/
def Dev.railAckTimeout (d : Dev) : Dev :=
  match d.rail.waiting with
  | none => d
  | some f =>
    let d := { d with rail := { d.rail with waiting := none } }
    if f.tries ≥ 3 then (d.bump Reg.RAIL_ERRCNT.RETRY).raise Stk.RAIL.RETRY_EXH
    else { d with rail := { d.rail with queue := { f with tries := f.tries + 1 } :: d.rail.queue } }

/-- Does an ACK answer a frame: SRC_POS, SIDE, SEQ and NONCE echoed (R121)? -/
def railAcks (ack f : Bytes) : Bool :=
  u ack 4 1 == u f 2 1 && u ack 3 1 % 2 == u f 3 1 % 2 && u ack 5 1 == u f 5 1 && u ack 8 4 == u f 8 4

/-- Symbols of a frame's coded body: one for each bit, the code of rate 1/2 filling two bits of a symbol (R120, R121). -/
def railSymbols (len : Nat) : Nat := 8 * (16 + len)

/-- A symbol in units of 10 ns: 40 µs. -/
def railSymbol : Nat := 4000

/-- Time of a symbol that starts at `s` which the receiver blanked; windows that overlap count once. -/
def RailSt.blanked (r : RailSt) (s : Nat) : Nat :=
  ((r.blanks.foldl (fun (a : List (Nat × Nat)) w => a ++ [(max s w.1, min (s + railSymbol) w.2)]) []).foldl
    (fun (a : Nat × Nat) w => let lo := max a.2 w.1; if w.2 ≤ lo then a else (a.1 + (w.2 - lo), w.2)) (0, s)).1

/-- Erasures of a body of `n` symbols that ended at `t`: symbols with more than 30 % of their time blanked (R123). -/
def RailSt.erasures (r : RailSt) (t n : Nat) : Nat :=
  ((List.range n).filter fun k => decide (3 * railSymbol < 10 * r.blanked (t - railSymbol * (n - k)))).length

/-- RAIL_FRAME_RX (R122): a frame whose seal matches is accepted, acknowledged if it asks and is addressed here, and passed on
unless it repeats the last accepted. DESIGN CHOICE (log entry 227): every frame whose seal matches counts in RAIL_CNT.RX, whoever it
is addressed to; the last accepted of the repeat rule is one addressed here or to all; and a frame of another version is
dropped without a count. -/
def Dev.railFrameRx (d : Dev) (c : Nat) (bs : Bytes) : Dev :=
  let d := d.advance c
  if !d.on Reg.RAIL_CFG.ENABLED then d else
  let len := u bs 1 1
  let d := { d with rail := { d.rail with erased := d.rail.erasures (d.time.cnt / 10) (railSymbols len) } }
  if bs.length != 16 + len || sealOf (slice bs 0 (12 + len)) != u bs (12 + len) 4 then
    (d.bump Reg.RAIL_ERRCNT.SEAL).raise Stk.RAIL.SEAL
  else if u bs 0 1 / 16 != 1 then d
  else
    let ty := u bs 0 1 % 16
    let flags := u bs 3 1
    let dst := u bs 4 1
    let d := d.bump Reg.RAIL_CNT.RX
    if ty = railACK then
      match d.rail.waiting with
      | some f => if railAcks bs f.bytes then { d with rail := { d.rail with waiting := none } } else d
      | none => d
    else
      let key := (u bs 2 1, flags % 2, u bs 5 1, u bs 8 4)
      let mine := dst = d.railPos
      let ask := bitOf flags 1
      let rep := d.rail.last == some key
      let d := if ask && !mine then { d with rail := { d.rail with holdTo := d.time.cnt + 10000000 } } else d
      let d := if ask && mine then
          d.railOut (railFrame railACK d.railPos (d.railFlags (flags % 2) 0) (u bs 2 1) (u bs 5 1) (u bs 8 4) [])
        else d
      if rep || !(mine || dst = 0xFF) then d
      else { d with rail := { d.rail with last := some key, passed := (ty, slice bs 12 len) :: d.rail.passed } }

/-- The blanking threshold of the rail carrier in dB, 6 to 30 (R123). DESIGN CHOICE (log entry 228): BTHR above 24 acts as 24. -/
def Dev.railThr (d : Dev) : Nat := 6 + min (d.rd Reg.RAIL_CFG.BTHR) 24

/-- Windows that are remembered: those of the longest frame. -/
def blanksKept : Nat := 256

/-- A window is blanked; the windows are kept in order of their start. -/
def RailSt.blank (r : RailSt) (lo hi : Nat) : RailSt :=
  let later := r.blanks.filter fun w => decide (lo < w.1)
  let earlier := r.blanks.filter fun w => decide (w.1 ≤ lo)
  { r with blanks := (earlier ++ [(lo, hi)] ++ later).drop (r.blanks.length + 1 - blanksKept) }

/-- Samples blanked by a detected impulse: its own and 8 after it. -/
def blankSamples : Nat := 9

/-- The window of the next predicted impulse: 2 µs centred on it, in units of 10 ns. -/
def RailSt.predict (r : RailSt) : RailSt :=
  let t := r.impLast.getD 0 + r.impPeriod * (r.impMissed + 1)
  r.blank (t - 100) (t + 100)

/-- RAIL_IMPULSE (R123): at `t` in units of 10 ns a sample stands `above` dB over the running envelope, which is an impulse if it is
more than the threshold; or (`none`) one that was predicted has gone undetected. While the interval is locked each
predicted impulse is blanked, detected or not. -/
def Dev.railImpulse (d : Dev) (t : Nat) (above : Option Nat) : Dev :=
  let detected := (above.map fun a => decide (d.railThr < a)).getD false
  if above.isSome && !detected then d else
  let r := if d.on Reg.RAIL_STAT.PLOCK then d.rail.predict else d.rail
  let r := if detected then r.blank t (t + blankSamples * Config.railSample) else r
  let d := { d with rail := r }
  if !detected then
    let m := r.impMissed + 1
    let d := { d with rail := { r with impMissed := m } }
    if m ≥ 16 && d.on Reg.RAIL_STAT.PLOCK then
      let d : Dev := { d with rail := { d.rail with impRun := 0, impMissed := 0 } }
      (d.wr Reg.RAIL_STAT.PLOCK 0).wr Reg.RAIL_STAT.PERIOD 0
    else d
  else
    match r.impLast with
    | none => { d with rail := { r with impLast := some t, impRun := 1, impMissed := 0 } }
    | some l =>
      let iv := t - l
      let jitter := if iv ≥ r.impPeriod then iv - r.impPeriod else r.impPeriod - iv
      let stable := r.impRun ≥ 2 && 50 * jitter ≤ r.impPeriod
      let run := if stable then r.impRun + 1 else 2
      let per := if stable then r.impPeriod else iv
      if d.on Reg.RAIL_STAT.PLOCK then { d with rail := { r with impLast := some t, impMissed := 0 } } else
      let d := { d with rail := { r with impLast := some t, impRun := run, impPeriod := per, impMissed := 0 } }
      if run ≥ 16 then (d.wr Reg.RAIL_STAT.PLOCK 1).wr Reg.RAIL_STAT.PERIOD (min per 0xFFFF) else d

/-- RAIL_PILOT (R124): a pilot is sent and measured at `level` dB relative to the level sent. -/
def Dev.railPilot (d : Dev) (level : Int) : Dev :=
  if !d.on Reg.RAIL_CFG.ENABLED then d else
  let d := d.emit (.railPilot d.railCarrier)
  if level < -20 then
    let w := d.rail.weak + 1
    let d := { d with rail := { d.rail with weak := min w 3 } }
    if d.rail.weak = 3 && w = 3 then (d.wr Reg.RAIL_STAT.COUPLING 0).raise Stk.RAIL.OPEN else d
  else { d with rail := { d.rail with weak := 0 } }.wr Reg.RAIL_STAT.COUPLING 1

end Sys2Proof.Machine
end

