-- ==== Sys2Proof/Machine/Cascade.lean ====
section
/-!
DEFINITION. The cascade: links and their delays, forwarding, the election of a dealer, SYNC and tick alignment, renumbering, the
slot directory, the canvas check across positions, and health (R326 to R341, R352).
-/

namespace Sys2Proof.Machine

/-! ### Links (R326, R327) -/

/-- The far position of link `k` of position `p` (R326). -/
def Dev.farFrom (d : Dev) (p k : Nat) : Nat :=
  let n := max 1 d.cfg.npos
  let s := d.cfg.chord
  match k with
  | 0 => (p + 1) % n
  | 1 => (p + n - 1) % n
  | 2 => (p + s) % n
  | _ => (p + n - s % n) % n

/-- Is this device a position of a cascade? -/
def Dev.inCascade (d : Dev) : Bool := d.cv.run.isSome && d.cfg.position != 0xFF

/-- A deal link's HELLO. -/
def Dev.dealHello (d : Dev) (k : Nat) (h : Hello) : Dev :=
  if !d.inCascade || 4 ≤ k then d
  else if h.pos ≠ d.farOf k ∨ h.side ≠ d.side then
    (d.wr Reg.CAS_STAT.LINKS (d.rd Reg.CAS_STAT.LINKS &&& (15 - 2 ^ k))).raise Stk.CAS.MISWIRE
  else if d.linkIdle k = true ∨ 4 ≤ h.idx ∨ d.farFrom h.pos h.idx ≠ d.pos then d
  else if d.linkUp k then d
  else (d.wr Reg.CAS_STAT.LINKS (d.rd Reg.CAS_STAT.LINKS ||| 2 ^ k)).sendOn k tyHELLO h.pos false (leBytes 1 k)

/-- A standby that is not in step begins to resynchronise once the partner link is up (R347, R350). -/
def Dev.resyncStart (d : Dev) : Dev :=
  if d.isActive || d.on Reg.CAS_STAT.RESYNCED || d.step != 0 || d.cas.resyncAt.isSome then d
  else { d with cas := { d.cas with resyncAt := some d.time.tick } }

/-- A partner lane's HELLO: the own position on the other side. Before a canvas runs only the side is known (R38). -/
def Dev.laneHello (d : Dev) (l : Nat) (h : Hello) : Dev :=
  if 2 ≤ l then d
  else if h.side = d.side ∨ (d.cv.run.isSome = true ∧ h.pos ≠ d.pos) then
    ({ d with cas := { d.cas with lanes := d.cas.lanes.filter (· != l) } }.wr Reg.CAS_STAT.PARTNER_UP 0).raise Stk.CAS.MISWIRE
  else if h.idx ≠ l ∨ d.cas.lanes.contains l = true then d
  else
    let d := d.laneGreet l
    let d := { d with cas := { d.cas with lanes := l :: d.cas.lanes } }
    if d.cas.lanes.length = 2 then (d.wr Reg.CAS_STAT.PARTNER_UP 1).resyncStart else d

/-- LINK_HELLO (R327): a HELLO brings a link up, or holds it down as miswired. -/
def Dev.linkHello (d : Dev) (l : LinkId) (h : Hello) : Dev :=
  match l with
  | .deal k => d.dealHello k h
  | .lane i => d.laneHello i h

/-- BLOCK_LOCK_LOSS (R327): a link goes down. -/
def Dev.blockLockLoss (d : Dev) (l : LinkId) : Dev :=
  match l with
  | .deal k => if k < 4 then d.wr Reg.CAS_STAT.LINKS (d.rd Reg.CAS_STAT.LINKS &&& (15 - 2 ^ k)) else d
  | .lane i =>
    if 2 ≤ i then d else
    { d with cas := { d.cas with lanes := d.cas.lanes.filter (· != i) } }.wr Reg.CAS_STAT.PARTNER_UP 0

/-- A link's number: deal links 0 to 3, lanes 4 and 5. -/
def linkNum : LinkId → Nat
  | .deal k => k % 4
  | .lane l => 4 + l % 2

/-- Is a link up? -/
def Dev.idUp (d : Dev) (l : LinkId) : Bool :=
  match l with
  | .deal k => k < 4 && d.linkUp k
  | .lane i => d.cas.lanes.contains i

/-- LINK_DELAY_MEASURE (R327): every 100 ticks an up link's delay is measured, in ns. -/
def Dev.linkDelay (d : Dev) (l : LinkId) (ns : Nat) : Dev :=
  let last := SMap.find d.cas.delays (linkNum l)
  if d.idUp l && last.elim true (fun x => decide (x.2 + 100 ≤ d.time.tick)) then
    { d with cas := { d.cas with delays := SMap.put d.cas.delays (linkNum l) (ns, d.time.tick) } }
  else d

/-- The measured delay of a deal link. -/
def Dev.delayOf (d : Dev) (k : Nat) : Nat := ((SMap.find d.cas.delays k).map (·.1)).getD 0

/-! ### Received frames (R328, R330, R331) -/

/-- Do length and both seals of a frame hold (R330)? -/
def frameOk (b : Bytes) : Bool :=
  let len := u b 2 2
  decide (36 ≤ b.length ∧ len ≤ 9216 ∧ b.length = 36 + len ∧ sealOf (slice b 0 28) = u b 28 4 ∧
    sealOf (slice b 32 len) = u b (32 + len) 4)

/-- The header with another TTL; a header's seal covers it. -/
def withTtl (b : Bytes) (ttl : Nat) : Bytes :=
  let h := slice b 0 6 ++ leBytes 1 ttl ++ slice b 7 21
  h ++ leBytes 4 (sealOf h) ++ b.drop 32

/-- Pass a frame on over a link with its TTL decremented, or drop it at TTL 0 (R328). -/
def Dev.passOn (d : Dev) (b : Bytes) (links : List Nat) : Dev :=
  let t := u b 6 1
  if t ≤ 1 then d.linkDrop else links.foldl (fun d k => d.emit (.deal k (withTtl b (t - 1)))) d

/-- The up links over which a frame for every position goes on: those that lead further from its sender. -/
def Dev.floodLinks (d : Dev) (src k : Nat) : List Nat :=
  d.upLinks.filter fun j =>
    j != k && decide (ringDist d.cfg.npos d.pos src < ringDist d.cfg.npos (d.farOf j) src)

/-- DEAL_FRAME_FORWARD (R328, R330): a frame that arrives on deal link `k` and is not for this device alone. -/
def Dev.dealForward (d : Dev) (k : Nat) (b : Bytes) : Dev :=
  if !d.inCascade || 4 ≤ k || !d.linkUp k then d
  else if !frameOk b then d.linkDrop
  else
    let dst := u b 5 1
    if dst = 0xFF then d.passOn b (d.floodLinks (u b 4 1) k)
    else if dst = d.pos then if d.isActive then d else if d.partnerUp then d.emit (.partner b) else d.linkDrop
    else match d.linkTo dst with
      | some j => d.passOn b [j]
      | none => d.linkDrop

/-- The key under which the last authenticated frame of a type is kept per sender: on a deal link or the rail (R331). -/
def authKey (rail : Bool) (ty pos side : Nat) : Nat := b2n rail * 2 ^ 24 + ty * 2 ^ 16 + pos * 2 + side

/-- Is an authenticated frame fresh (R331): its TICK near the device's own, and above that of the last, or equal with a greater
SEQ? -/
def Dev.authFresh (d : Dev) (key tick seq : Nat) : Bool :=
  decide (max tick d.time.tick - min tick d.time.tick ≤ 200) &&
  match SMap.find d.cas.lastAuth key with
  | some (t, s) => decide (t < tick ∨ (t = tick ∧ s < seq))
  | none => true

/-- Remember an accepted frame (R331). -/
def Dev.authKeep (d : Dev) (key tick seq : Nat) : Dev :=
  { d with cas := { d.cas with lastAuth := SMap.put d.cas.lastAuth key (tick, seq) } }

/-- The body of an authenticated deal frame with its MAC checked and taken off, or nothing (R331): the MAC covers the header as
it was sent. -/
def Dev.authBody (d : Dev) (b : Bytes) : Option Bytes :=
  let len := u b 2 2
  let h := slice (withTtl b ttl0) 0 32
  match d.casSecret 4 with
  | none => none
  | some key =>
    if len < 16 ∨ bitOf (u b 1 1) 2 = false then none
    else if frameMac key (h ++ slice b 32 (len - 16)) = slice b (32 + len - 16) 16 then some (slice b 32 (len - 16))
    else none

/-- Take an authenticated deal frame: a seal failure drops it, a MAC or a replay sets MGMT_AUTH (R330, R331). -/
def Dev.authTake (d : Dev) (b : Bytes) (g : Dev → Bytes → Dev) : Dev :=
  if !frameOk b then d.linkDrop else
  let key := authKey false (u b 0 1) (u b 4 1) (u b 1 1 % 2)
  match d.authBody b with
  | none => d.raise Stk.CAS.MGMT_AUTH
  | some body =>
    if d.authFresh key (u b 8 8) (u b 16 4) then g (d.authKeep key (u b 8 8) (u b 16 4)) body
    else d.raise Stk.CAS.MGMT_AUTH

/-! ### Election (R332, R333) -/

/-- Bytes 0 to 7 of PLAN_ID, by which frames of one cascade know each other. -/
def Dev.plan8 (d : Dev) : Bytes := slice d.cfg.planId 0 8

/-- Send an election payload: on the rail carrier, or as a MGMT-typed deal frame where the strap disables it (R333). -/
def Dev.elecSend (d : Dev) (ty : Nat) (body : Bytes) : Dev :=
  if d.on Reg.GLB_STRAP.RAIL then d.railEnqueue ty 0xFF body false else d.dealSend tyMGMT 0xFF true body

/-- This device's own DISCOVER. -/
def Dev.ownDiscover (d : Dev) : Discover :=
  { pos := d.pos, side := d.side, plan := d.plan8, serial := d.cfg.serial, cfl := d.cfg.cfl, pref := d.on Reg.GLB_STRAP.PREF
    step := d.step, jtick := d.journalHigh }

/-- The payload of a DISCOVER. -/
def discoverBytes (x : Discover) : Bytes :=
  x.plan ++ leBytes 4 x.serial ++ leBytes 1 x.cfl ++ leBytes 1 (b2n x.pref) ++ leBytes 1 x.step ++ leBytes 8 x.jtick

def Dev.setElec (d : Dev) (e : Election) : Dev := { d with cas := { d.cas with elec := e } }

/-- DISCOVER (R332, R333): a DISCOVER of the own plan is collected; a later one of a sender replaces its earlier. -/
def Dev.discover (d : Dev) (x : Discover) : Dev :=
  if !d.inCascade || x.plan != d.plan8 then d else
  { d with cas := { d.cas with
    heard := (d.cas.heard.filter fun y => !(y.pos == x.pos && y.side == x.side)) ++ [x] } }

/-- ELECT (R333): a candidate of the own plan is named. -/
def Dev.elect (d : Dev) (pos side : Nat) (plan : Bytes) : Dev :=
  if !d.inCascade || plan != d.plan8 then d else { d with cas := { d.cas with named := some (pos, side) } }

/-- Take a dealer epoch, which the journal keeps (R335, R354). -/
def Dev.setDealerEpoch (d : Dev) (e : Nat) : Dev :=
  { d with ldg := { d.ldg with nand := { d.ldg.nand with dealerEpoch := e % 2 ^ 32 } } }.wr Reg.CAS_DEALER_EPOCH.EPOCH e

/-- Join a dealer: the device goes on to step 3 (R333, R338). -/
def Dev.join (d : Dev) (pos epoch : Nat) : Dev :=
  let d := (d.setElec .joined).wr Reg.CAS_STAT.DEALER 0
  let d := (d.wr Reg.CAS_STAT.DEALER_POS pos).setDealerEpoch epoch
  if d.step = 2 then d.trainLinks else d

/-- DEALER (R333): the device joins that dealer, or withdraws in favour of a lower position. -/
def Dev.dealerFrame (d : Dev) (m : DealerMsg) : Dev :=
  if !d.inCascade || m.plan != d.plan8 then d else
  match d.cas.elec with
  | .idle => d
  | .listen _ => d.join m.pos m.epoch
  | .discover _ _ => d.join m.pos m.epoch
  | .elect _ p s => if p = d.pos ∧ s = d.side ∧ d.pos ≤ m.pos then d else d.join m.pos m.epoch
  | .joined => if d.rd Reg.CAS_DEALER_EPOCH.EPOCH ≤ m.epoch then d.join m.pos m.epoch else d
  | .dealer _ => if m.pos < d.pos then d.join m.pos m.epoch else d

/-- One second in ns. -/
def secNs : Nat := 1000000000

/-- ELECTION_LISTEN_EXPIRE (R333): no DEALER was heard for 1 s. -/
def Dev.listenExpire (d : Dev) (c : Nat) : Dev :=
  match d.cas.elec with
  | .listen since =>
    let d := d.advance c
    if since + secNs ≤ d.time.cnt then d.setElec (.discover d.time.cnt none) else d
  | _ => d

/-- DISCOVER_SEND (R333): during discovery, every 200 ms. -/
def Dev.discoverSend (d : Dev) (c : Nat) : Dev :=
  match d.cas.elec with
  | .discover since last =>
    let d := d.advance c
    if last.elim true (fun x => decide (x + 200000000 ≤ d.time.cnt)) then
      (d.setElec (.discover since (some d.time.cnt))).elecSend 0 (discoverBytes d.ownDiscover)
    else d
  | _ => d

/-- The side of a position that is candidate: the one whose strap prefers it, A if both or neither do; a side not heard is
none. -/
def candSide (xs : List Discover) (p : Nat) : Nat :=
  let a := xs.find? fun x => x.pos == p && x.side == 0
  let b := xs.find? fun x => x.pos == p && x.side == 1
  match a, b with
  | some x, some y => if y.pref && !x.pref then 1 else 0
  | none, some _ => 1
  | _, _ => 0

/-- The candidate of an election: the lowest eligible position of the plan, with its side. -/
def candOf (xs : List Discover) : Option (Nat × Nat) :=
  match ((xs.filter fun x => bitOf x.cfl 0).map (·.pos)).min? with
  | some p => some (p, candSide xs p)
  | none => none

/-- DISCOVER_END (R333): after 1 s of DISCOVER the candidate is chosen and named; with no eligible position discovery goes
on. -/
def Dev.discoverEnd (d : Dev) (c : Nat) : Dev :=
  match d.cas.elec with
  | .discover since _ =>
    let d := d.advance c
    if d.time.cnt < since + secNs then d else
    match candOf (d.ownDiscover :: d.cas.heard) with
    | some (p, s) => (d.setElec (.elect d.time.cnt p s)).elecSend 1 (leBytes 1 p ++ leBytes 1 s ++ d.plan8)
    | none => d.setElec (.discover d.time.cnt none)
  | _ => d

/-- Become dealer with a dealer epoch. -/
def Dev.becomeDealer (d : Dev) (epoch : Nat) : Dev :=
  let d := ((d.setElec (.dealer none)).wr Reg.CAS_STAT.DEALER 1).wr Reg.CAS_STAT.DEALER_POS d.pos
  let d := d.setDealerEpoch epoch
  if d.step = 2 then d.trainLinks else d

/-- ELECT_WAIT_EXPIRE (R333, R335): no lower DEALER within 200 ms: the candidate becomes dealer, with epoch 1, or one more than
the dealer epoch of a running cascade. -/
def Dev.electWaitExpire (d : Dev) (c : Nat) : Dev :=
  match d.cas.elec with
  | .elect since p s =>
    let d := d.advance c
    if p = d.pos ∧ s = d.side ∧ since + 200000000 ≤ d.time.cnt then
      d.becomeDealer (if d.cas.synced then d.rd Reg.CAS_DEALER_EPOCH.EPOCH + 1 else 1)
    else d
  | _ => d

/-- DEALER_ANNOUNCE (R333): the dealer sends DEALER every 1 s. -/
def Dev.dealerAnnounce (d : Dev) (c : Nat) : Dev :=
  match d.cas.elec with
  | .dealer last =>
    let d := d.advance c
    if d.isDealer && last.elim true (fun x => decide (x + secNs ≤ d.time.cnt)) then
      (d.setElec (.dealer (some d.time.cnt))).elecSend 2
        (leBytes 1 d.pos ++ leBytes 1 d.side ++ leBytes 4 (d.rd Reg.CAS_DEALER_EPOCH.EPOCH) ++ leBytes 8 d.time.tick ++ d.plan8)
    else d
  | _ => d

/-! ### SYNC (R334 to R336, R341) -/

/-- The body of a SYNC. -/
def SyncBody.bytes (s : SyncBody) : Bytes :=
  leBytes 8 s.tick ++ leBytes 4 s.epoch ++ leBytes 8 (wrapI 64 s.departCt) ++ leBytes 8 (wrapI 64 s.offset) ++
    leBytes 5 s.activeMap ++ leBytes 4 s.utcOfs ++ leBytes 1 s.pos

/-- Read the body of a SYNC. -/
def syncOf (b : Bytes) : SyncBody :=
  { tick := u b 0 8, epoch := u b 8 4, departCt := sgn 64 (u b 12 8), offset := sgn 64 (u b 20 8), activeMap := u b 28 5
    utcOfs := u b 33 4, pos := u b 37 1 }

/-- The bodies sent at a boundary by the dealer. -/
def Dev.ownSync (d : Dev) : SyncBody :=
  { tick := d.time.tick, epoch := d.rd Reg.CAS_DEALER_EPOCH.EPOCH, departCt := d.ct, offset := d.ofsAt d.time.cnt
    activeMap := d.cas.activeMap, utcOfs := (d.word Reg.TIME_UTC_OFS.OFS.off 0).toNat, pos := d.pos }

/-- SYNC_SEND (R334): the dealer sends SYNC on every up link. -/
def Dev.syncSend (d : Dev) : Dev := if d.isDealer then d.dealSend tySYNC 0xFF false d.ownSync.bytes else d

/-- Forward a SYNC: the residence time and the delay of the link it came over are added to its departure time (R334). Each SYNC
goes on once. -/
def Dev.syncForward (d : Dev) (k : Nat) (b : Bytes) (resid : Nat) : Dev :=
  let s := syncOf (slice b 32 38)
  let new := d.cas.lastFwd.1 < s.epoch || (d.cas.lastFwd.1 == s.epoch && decide (d.cas.lastFwd.2 < s.tick))
  if !new then d else
  let d := { d with cas := { d.cas with lastFwd := (s.epoch, s.tick) } }
  let s' := { s with departCt := s.departCt + resid + d.delayOf k }
  d.passOn (frameOf (slice b 0 32) s'.bytes) (d.floodLinks (u b 4 1) k)

/-- Take the dealer's tick and lattice: tick `t` opened at counter value `at0` (R336). -/
def Dev.takeLattice (d : Dev) (t : Nat) (at0 : Int) : Dev :=
  { d with
    time := { d.time with tick := t, base := at0 - (t * d.tickNs : Nat) }
    cas := { d.cas with synced := true, ahead := none, lastSync := t } }

/-- The running partner's side: the last heartbeat said that it is active. -/
def Dev.partnerRuns (d : Dev) : Bool := d.partnerUp && d.cas.beat.elim false fun h => h.role == 1

/-- Journal and ledgers are discarded, to be copied from the partner (R341). -/
def Dev.discardJournal (d : Dev) : Dev :=
  { d with
    ldg := { d.ldg with nand := { epoch := d.ldg.nand.epoch, dealerEpoch := d.ldg.nand.dealerEpoch }, jwait := [], jrn := {}, jdone := {}, ledgers := [] }
    pool := { d.pool with keys := [], adir := [] }
    cas := { d.cas with resyncAt := some d.time.tick } }

/-- The first SYNC (R336, R341). -/
def Dev.firstSync (d : Dev) (s : SyncBody) (at0 : Int) : Dev :=
  if d.step ≠ 3 then d
  else if d.ldg.nand.high.elim true (· < s.tick) then (d.takeLattice s.tick at0).enterPairing
  else if d.partnerRuns then (d.discardJournal.takeLattice s.tick at0).enterPairing
  else
    let was := d.cas.ahead.isSome
    let d := { d with cas := { d.cas with ahead := some (s.tick, at0) } }
    if was then d else d.raise Stk.CAS.TICK_AHEAD

/-- The residual of R336 and its run above 100 ns. -/
def Dev.residual (d : Dev) (s : SyncBody) (at0 : Int) : Dev :=
  let e : Int := d.time.base + (s.tick * d.tickNs : Nat) - at0
  let lim : Int := 2 ^ 31 - 1
  let d := d.wr Reg.CAS_TICK_ERR.NS (wrapI 32 (max (-lim) (min lim e)))
  { d with cas := { d.cas with alignRun := if 100 < e ∨ e < -100 then d.cas.alignRun + 1 else 0 } }

/-- An active side is told that the other side is active, by a map or by a higher epoch (R347). -/
def Dev.toldOther (d : Dev) (told : Bool) : Dev :=
  if d.isActive && told && d.cas.giveUp.isNone then { d with cas := { d.cas with giveUp := some d.time.tick } } else d

/-- An accepted SYNC: its dealer, its map and its offset TAI − UTC are taken (R70, R334). -/
def Dev.syncAccept (d : Dev) (src hEpoch : Nat) (s : SyncBody) (at0 : Int) (c : Nat) : Dev :=
  let d := (d.wr Reg.CAS_STAT.DEALER 0).wr Reg.CAS_STAT.DEALER_POS s.pos
  let d := d.setDealerEpoch s.epoch
  let d := match d.cas.elec with
    | .dealer _ => d.setElec .joined
    | .idle => d
    | _ => d.setElec .joined
  let d := { d with cas := { d.cas with activeMap := s.activeMap, lastSync := d.time.tick, syncLost := false } }
  let d := if s.utcOfs = (d.word Reg.TIME_UTC_OFS.OFS.off 0).toNat then d else d.utcOfsWrite c s.utcOfs
  let d := if d.cas.synced then d.residual s at0 else d.firstSync s at0
  d.toldOther (d.cfg.hasPartner && (d.activeSide d.pos != d.side || (src == d.pos && decide (d.rd Reg.CAS_EPOCH.EPOCH < hEpoch))))

/-- SYNC (R334 to R336): a SYNC on deal link `k`, whose tick the dealer opened at counter value `at0` of this device. The SYNC
of the highest dealer epoch is accepted. -/
def Dev.sync (d : Dev) (k : Nat) (b : Bytes) (at0 : Int) (resid c : Nat) : Dev :=
  if !d.inCascade || 4 ≤ k || !d.linkUp k then d
  else if !frameOk b then d.linkDrop
  else
    let d := (d.advance c).syncForward k b resid
    let s := syncOf (slice b 32 38)
    let mine := d.rd Reg.CAS_DEALER_EPOCH.EPOCH
    if s.epoch < mine ∨ (d.isDealer = true ∧ s.epoch ≤ mine) then d
    else d.syncAccept (u b 4 1) (u b 20 4) s at0 c

/-- SYNC_LOSS (R335): no SYNC for 10 ticks. -/
def Dev.syncLoss (d : Dev) : Dev :=
  if d.cas.synced && !d.isDealer && !d.cas.syncLost && decide (d.cas.lastSync + 10 ≤ d.time.tick) then
    ({ d with cas := { d.cas with syncLost := true } } : Dev).raise Stk.CAS.SYNC_LOST
  else d

/-- SYNC_REELECT (R335): no SYNC for 100 ticks: the running positions elect again without listening, and collections in
progress are abandoned. -/
def Dev.syncReelect (d : Dev) (c : Nat) : Dev :=
  let waits := match d.cas.elec with
    | .discover _ _ => true
    | .elect _ _ _ => true
    | _ => false
  if d.cas.synced && !d.isDealer && !waits && decide (d.cas.lastSync + 100 ≤ d.time.tick) then
    let d := (d.advance c).dropCollects.wr Reg.CAS_STAT.DEALER_POS 0x3F
    ({ d with cas := { d.cas with heard := [], named := none } } : Dev).setElec (.discover d.time.cnt none)
  else d

/-- ALIGN_FAULT (R336): a residual above 100 ns for 10 consecutive ticks. -/
def Dev.alignFault (d : Dev) : Dev :=
  if d.cas.alignRun < 10 then d
  else ({ d with cas := { d.cas with alignRun := 0 } } : Dev).raise Stk.CAS.ALIGN

/-- CAS_RENUMBER (R341): a device that TICK_AHEAD holds at step 3 shifts its own journal ticks so that the highest falls one below
the dealer's current tick, and then takes the SYNC. -/
def Dev.casRenumber (d : Dev) (c : Nat) : Dev :=
  match d.cas.ahead with
  | none => d
  | some (t, at0) =>
    let d := d.advance c
    if d.step ≠ 3 ∨ d.on Reg.CAS_ERR_STICKY.TICK_AHEAD = false then d else
    let now := t + (Int.fdiv (d.time.cnt - at0) (max 1 d.tickNs : Nat)).toNat
    let k := d.journalHigh + 1 - now
    let n := d.ldg.nand
    let d := { d with ldg := { d.ldg with nand := { n with high := n.high.map (· - k), shift := n.shift + k } } }
    (d.takeLattice now (at0 + ((now - t) * d.tickNs : Nat))).enterPairing

/-! ### The slot directory (R337) -/

/-- Positions known to be eligible, this one apart. -/
def Dev.eligibles (d : Dev) : List Nat :=
  (((d.cas.heard.filter fun x => bitOf x.cfl 0).map (·.pos)).eraseDups).filter (· != d.pos)

/-- An update's bytes: title, position, slot, and whether it removes. -/
def dirUpdBytes (x : DirUpd) : Bytes := leBytes 8 x.title ++ leBytes 1 x.pos ++ leBytes 4 x.slot ++ leBytes 1 (b2n x.removed)

/-- Take one update into the directory: the entry of the title at that position is replaced or removed; the dealer flags a
title at two positions. -/
def Dev.dirTake (d : Dev) (x : DirUpd) : Dev :=
  let rest := d.cas.dir.filter fun y => !(y.title == x.title && y.pos == x.pos)
  let d := { d with cas := { d.cas with dir := if x.removed then rest else rest ++ [x] } }
  match rest.find? fun y => y.title == x.title with
  | some y =>
    if d.isDealer && !x.removed then d.raise Stk.CAS.DIR_DUP noIdx [(1, y.pos), (1, x.pos)] else d
  | none => d

/-- Send updates to the dealer, or take them as dealer and forward them to every eligible position. -/
def Dev.dirSend (d : Dev) (us : List DirUpd) : Dev :=
  if us.isEmpty then d
  else if d.isDealer then
    let d := us.foldl Dev.dirTake d
    d.eligibles.foldl (fun d p => d.dealSend tyDIR p false (us.flatMap dirUpdBytes)) d
  else d.toDealer tyDIR false (us.flatMap dirUpdBytes)

/-- What the directory says of a title. -/
def Dev.dirFind (d : Dev) (title : Nat) : Option (Nat × Nat) :=
  (d.cas.dir.find? fun x => x.title == title).map fun x => (x.pos, x.slot)

/-- The answer's bytes: title, whether it was found, position and slot. -/
def dirAnswerBytes (title : Nat) (r : Option (Nat × Nat)) : Bytes :=
  leBytes 8 title ++ leBytes 1 (b2n r.isSome) ++ leBytes 1 ((r.map (·.1)).getD 0) ++ leBytes 4 ((r.map (·.2)).getD 0)

/-- DIR (R337): updates reach the dealer, or the copy of an eligible position; the dealer answers a query. -/
def Dev.dirFrame (d : Dev) (m : DirMsg) : Dev :=
  match m with
  | .updates us =>
    if d.isDealer then d.dirSend us else if d.cfg.eligible then us.foldl Dev.dirTake d else d
  | .query p title => if d.isDealer then d.dealSend tyDIR p false (dirAnswerBytes title (d.dirFind title)) else d

/-- CAS_DIR_RES takes an answer. -/
def Dev.dirResult (d : Dev) (r : Option (Nat × Nat)) : Dev :=
  match r with
  | some (p, s) => ((d.wr Reg.CAS_DIR_RES.SLOT s).wr Reg.CAS_DIR_RES.POS p).wr Reg.CAS_DIR_RES.RESULT 1
  | none => ((d.wr Reg.CAS_DIR_RES.SLOT 0).wr Reg.CAS_DIR_RES.POS 0).wr Reg.CAS_DIR_RES.RESULT 2

/-- CAS_DIR_QUERY (R337, R354): the house seat asks for the title it has written. -/
def Dev.dirQuery (d : Dev) : Dev :=
  let title := d.rd64 Reg.CAS_DIR_KEY.KEY
  if d.isDealer then d.dirResult (d.dirFind title) else
  let d := ((d.wr Reg.CAS_DIR_RES.SLOT 0).wr Reg.CAS_DIR_RES.POS 0).wr Reg.CAS_DIR_RES.RESULT 0
  if d.dealerPos.isNone then d.wr Reg.CAS_DIR_RES.RESULT 3
  else ({ d with cas := { d.cas with query := some title } } : Dev).toDealer tyDIR false (leBytes 8 title)

/-- DIR_ANSWER (R337). -/
def Dev.dirAnswer (d : Dev) (title : Nat) (r : Option (Nat × Nat)) : Dev :=
  if d.cas.query = some title then ({ d with cas := { d.cas with query := none } } : Dev).dirResult r else d

/-! ### The canvas check (R339) -/

/-- The dealer answers a CHECK: 0, or the code of the rejection. -/
def Dev.checkReply (d : Dev) (pos code : Nat) : Dev :=
  let d := d.wr Reg.CAS_POS_STAT.STATE (if code = 0 then 1 else 3) pos
  d.dealSend tyCHECK pos false (leBytes 2 code)

/-- A position has been heard from. -/
def Dev.heardPos (d : Dev) (p : Nat) : Dev := { d with cas := { d.cas with posAt := SMap.put d.cas.posAt p d.time.tick } }

/-- CHECK (R339): the dealer accepts a device, or rejects it, and where the rule says so another with it. -/
def Dev.check (d : Dev) (m : CheckMsg) : Dev :=
  if !d.isDealer || 40 ≤ m.pos then d else
  let d := d.heardPos m.pos
  let mine : Checked := { pos := m.pos, side := m.side, serial := m.serial, digest := m.digest }
  let claim := d.cas.checks.any fun x => x.pos == m.pos && x.side == m.side && !m.same
  let own := m.pos == d.pos && m.side == d.side
  let self : Checked := { pos := d.pos, side := d.side, serial := d.cfg.serial, digest := sha256 d.cfg }
  let partner := (self :: d.cas.checks).find? fun x =>
    x.pos == m.pos && x.side != m.side && x.digest != m.digest && decide (m.serial ≤ x.serial)
  let others := d.cas.checks.filter fun x => !(x.pos == m.pos && x.side == m.side)
  let keep := fun (l : List Checked) => { d with cas := { d.cas with checks := l } }
  if m.plan ≠ d.cfg.planId ∨ m.tickSel ≠ d.cfg.tickSel then (keep others).checkReply m.pos 0x1F
  else if claim || own then
    let d := ((keep others).raise Stk.CAS.POS_DUP).checkReply m.pos 0x1F
    if own then d else d.checkReply m.pos 0x1F
  else match partner with
    | none => (keep (others ++ [mine])).checkReply m.pos 0
    | some x =>
      if x.serial = m.serial then
        ((keep (others.filter fun y => !(y.pos == x.pos && y.side == x.side))).checkReply m.pos 0x1F).checkReply x.pos 0x1F
      else (keep others).checkReply m.pos 0x1F

/-- CHECK_ANSWER (R339): the device goes on to step 6, or stays at step 5 and records the rejection. -/
def Dev.checkAnswer (d : Dev) (code : Nat) : Dev :=
  if d.step ≠ 5 then d else if code = 0 then d.setStep 6 else d.cvCode code

/-! ### Health (R352) -/

/-- The body of a HEALTH report. -/
def Dev.healthBody (d : Dev) : Bytes :=
  let other := (d.cas.beat.map (·.role)).getD 0
  let mine := d.rd Reg.CAS_STAT.ROLE
  leBytes 1 (if d.side = 0 then mine else other) ++ leBytes 1 (if d.side = 0 then other else mine) ++
    leBytes 2 (d.rd Reg.LDG_ENG_FAULT.FAULT) ++ leBytes 2 (d.rd Reg.CAS_PAIR_CNT.DIVERGE) ++
    leBytes 2 (d.rd Reg.THERM_STAT.TJ) ++ leBytes 2 (d.rd Reg.MEM_FTL_BLOCKS.SPARE)

/-- The dealer shows a position (R352, R354). -/
def Dev.posShow (d : Dev) (p fault activeB : Nat) : Dev :=
  ((d.wr Reg.CAS_POS_STAT.STATE 1 p).wr Reg.CAS_POS_STAT.FAULT fault p).wr Reg.CAS_POS_STAT.ACTIVE_B activeB p

/-- The dealer notes a side as the active one of its position, at an epoch (R334, R346). -/
def Dev.noteActive (d : Dev) (p side epoch : Nat) : Dev :=
  let m := d.cas.activeMap
  let m := if side = 1 then m ||| 2 ^ p else m &&& (2 ^ 40 - 1 - 2 ^ p)
  { d with cas := { d.cas with activeMap := m, posEpoch := SMap.put d.cas.posEpoch p epoch } }

/-- HEALTH (R347, R352): the dealer records a report. A position that reports two active sides, or an active side of an epoch
older than the position's, sets DUAL. -/
def Dev.health (d : Dev) (m : HealthMsg) : Dev :=
  if !d.isDealer || 40 ≤ m.pos then d else
  let role := if m.side = 0 then m.roleA else m.roleB
  let known := SMap.get (fun _ => 0) d.cas.posEpoch m.pos
  let dual := (m.roleA == 1 && m.roleB == 1) || (role == 1 && decide (m.epoch < known))
  let d := if role == 1 && decide (known ≤ m.epoch) then d.noteActive m.pos m.side m.epoch else d
  let d := (d.heardPos m.pos).posShow m.pos m.fault (d.activeSide m.pos)
  if dual then d.raise Stk.CAS.DUAL else d

/-- HEALTH_SEND (R352): an active side reports every 100 ticks. -/
def Dev.healthSend (d : Dev) : Dev :=
  if !d.isActive || d.step != 0 || !d.inCascade || decide (d.time.tick < d.cas.healthAt + 100) then d else
  let d := { d with cas := { d.cas with healthAt := d.time.tick } }
  if d.isDealer then ((d.noteActive d.pos d.side (d.rd Reg.CAS_EPOCH.EPOCH)).heardPos d.pos).posShow d.pos (d.rd Reg.LDG_ENG_FAULT.FAULT) d.side
  else d.toDealer tyHEALTH false d.healthBody

/-- POSITION_LOST (R352): a position not heard from for 300 ticks. -/
def Dev.positionLost (d : Dev) (p : Nat) : Dev :=
  match SMap.find d.cas.posAt p with
  | some t => if d.isDealer && decide (t + 300 ≤ d.time.tick) && p < 40 then d.wr Reg.CAS_POS_STAT.STATE 2 p else d
  | none => d

end Sys2Proof.Machine
end

