-- ==== Sys2Proof/Machine/Partner.lean ====
section
/-!
DEFINITION. The partner: pairing, heartbeats and packages, takeover and giving up the role, resynchronisation, role swap and
command resets (R342 to R353, R363).
-/

namespace Sys2Proof.Machine

/-! ### Pairing and heartbeats (R342, R345, R351) -/

/-- PAIRING (R342): the partner's HELLO carries its highest committed journal tick; `pref` is the partner's strap preference. At
step 4 the active side is decided; where the link comes back later and the ticks differ, the sides are out of step and the standby
resynchronises. -/
def Dev.pairing (d : Dev) (jtick : Nat) (pref : Bool) : Dev :=
  if !d.partnerUp then d
  else if d.step = 4 then
    let own := d.on Reg.GLB_STRAP.PREF
    let win := if own == pref then d.side == 0 else own
    let active := decide (jtick < d.journalHigh) || (jtick == d.journalHigh && win)
    (d.wr Reg.CAS_STAT.ROLE (b2n active)).enterCheck
  else if d.step = 0 ∧ jtick ≠ d.journalHigh then (d.wr Reg.CAS_STAT.RESYNCED 0).resyncStart
  else d

/-- HEARTBEAT_SEND (R345). -/
def Dev.heartbeatSend (d : Dev) : Dev :=
  let d := { d with cas := { d.cas with beatDue := false } }
  if !d.partnerUp || d.step != 0 then d else
  d.partnerSend tyHEARTBEAT (leBytes 1 (d.rd Reg.CAS_STAT.ROLE) ++ leBytes 4 (d.rd Reg.CAS_EPOCH.EPOCH) ++
    leBytes 8 (if d.isActive then d.time.tick - 1 else d.cas.pkgs.headD 0) ++
    leBytes 2 (d.rd Reg.LDG_ENG_FAULT.FAULT) ++ leBytes 1 (b2n d.granted))

/-- The heartbeat of a tick that opens: it waits behind unfinished mandatory work of an ended tick (R35). -/
def Dev.heartbeatTick (d : Dev) : Dev :=
  if d.lateWork then { d with cas := { d.cas with beatDue := true } } else d.heartbeatSend

/-- Send the heartbeat that has waited, once the late work is done. -/
def Dev.beatNow (d : Dev) : Dev := if d.cas.beatDue && !d.lateWork then d.heartbeatSend else d

/-! ### What packages and the bulk copy carry (R343, R350) -/

/-- The bytes of a package: its records, its deltas as item kind, index and image, and each seat's last USEQ. -/
def Dev.packageBytes (d : Dev) (j : JTick) : Bytes :=
  leBytes 8 j.tick ++ leBytes 1 (d.rd Reg.UPD_STAT.LVER) ++
  (j.recs.flatMap fun r => leBytes 1 r.seat ++ leBytes 4 r.slot ++ leBytes 6 r.aseq ++ leBytes 4 r.chk) ++
  (j.ledgers.flatMap fun p =>
    ((List.range 32).filter fun b => bitOf (SMap.get (fun _ => 0) j.blocks p.1) b).flatMap fun b =>
      leBytes 1 0 ++ leBytes 4 (32 * p.1 + b) ++ p.2.image p.1 (d.owner p.1) b) ++
  (j.keys.flatMap fun p => leBytes 1 1 ++ leBytes 4 p.1 ++ p.2) ++
  (j.dir.flatMap fun c => leBytes 1 2 ++ leBytes 17 c.key ++ (match c.ent with
    | some e => leBytes 1 1 ++ leBytes 4 e.slot
    | none => [0])) ++
  (j.camps.flatMap fun p => leBytes 1 3 ++ leBytes 4 p.1 ++ leBytes 1 p.2.state ++ leBytes 1 p.2.round ++ leBytes 1 p.2.step ++
    p.2.targets.flatMap fun t => leBytes 4 t.slot ++ leBytes 1 t.tries ++ leBytes 2 t.missing) ++
  (j.ceils.flatMap fun p => leBytes 1 4 ++ leBytes 4 p.1 ++ leBytes 8 p.2) ++
  (d.cfg.seats.flatMap fun n => leBytes 1 n ++ leBytes 8 ((d.seat n).useq - 1))

/-- Cut a byte string into bodies of at most 9,216 bytes (R330). -/
def bodies (b : Bytes) : List Bytes := (List.range (max 1 ((b.length + 9215) / 9216))).map fun i => (b.drop (9216 * i)).take 9216

/-- Ticks of the images of a package's blocks and items, for the bulk copy (R350). -/
def CasSt.stamp (c : CasSt) (j : JTick) : CasSt :=
  { c with
    blockTick := j.blocks.foldl (fun m p =>
      ((List.range 32).filter fun b => bitOf p.2 b).foldl (fun m b => SMap.put m (32 * p.1 + b) j.tick) m) c.blockTick
    keyTick := j.keys.foldl (fun m p => SMap.put m p.1 j.tick) c.keyTick
    dirTick := j.dir.foldl (fun m x => SMap.put m x.key j.tick) c.dirTick }

/-- The bytes of a carried item: its kind, with the record where it is one (R350). -/
def Work.bytes : Work → Bytes
  | .record bs chk => leBytes 1 0 ++ bs ++ leBytes 4 chk
  | .rerate go => leBytes 1 1 ++ leBytes 4 go
  | .billing => leBytes 1 2
  | .rebase => leBytes 1 3
  | .resetTrack => leBytes 1 4

def QItem.bytes (q : QItem) : Bytes :=
  leBytes 4 q.slot ++ leBytes 1 q.seat ++ leBytes 2 q.opening ++ leBytes 6 q.aseq ++ q.work.bytes

/-- What the bulk copy carries (R350): every ledger block, key record, directory entry and carry queue entry, each as its kind, its
index, the tick of its last change and its image. -/
def Dev.bulkBytes (d : Dev) : Bytes :=
  let tick := fun (m : SMap Nat) (k : Nat) => leBytes 8 (SMap.get (fun _ => 0) m k)
  (d.ldg.ledgers.flatMap fun p => (List.range 32).flatMap fun b =>
    leBytes 1 0 ++ leBytes 4 (32 * p.1 + b) ++ tick d.cas.blockTick (32 * p.1 + b) ++ p.2.image p.1 (d.owner p.1) b) ++
  (d.pool.keys.flatMap fun p => leBytes 1 1 ++ leBytes 4 p.1 ++ tick d.cas.keyTick p.1 ++ p.2) ++
  (d.pool.adir.flatMap fun p => leBytes 1 2 ++ leBytes 17 p.1 ++ tick d.cas.dirTick p.1 ++ leBytes 4 p.2.slot) ++
  (d.ldg.engines.flatMap fun p => p.2.carry.flatMap fun q => leBytes 1 5 ++ leBytes 8 q.atick ++ q.bytes)

/-- The active side streams the bulk copy to its standby (R350). -/
def Dev.bulkSend (d : Dev) : Dev :=
  if !d.isActive || !d.partnerUp || d.step != 0 then d
  else
    let d := { d with cas := { d.cas with resyncAt := some d.time.tick } }
    (bodies d.bulkBytes).foldl (fun d b => d.partnerSend tyBULK b) d

/-! ### Heartbeats received -/

/-- HEARTBEAT (R343, R345, R350, R351): a heartbeat is recorded, and names the last package that the partner has received whole. The
first of a partner that is out of step starts the bulk copy (DEDUCED, log entry 118). Under AUTO_SWAP an active side with an engine
fault that the standby lacks requests a swap at its tick + 8. -/
def Dev.heartbeat (d : Dev) (h : Beat) : Dev :=
  if !d.partnerUp then d else
  let d := { d with cas := { d.cas with
    beat := some h, pkgOpen := if d.isActive then d.cas.pkgOpen.filter fun t => decide (h.pkg < t) else d.cas.pkgOpen } }
  let d := d.beatNow
  let d := if d.on Reg.CAS_STAT.RESYNCED || d.cas.resyncAt.isSome then d else d.bulkSend
  let f := d.rd Reg.LDG_ENG_FAULT.FAULT
  if d.isActive && d.cfg.autoSwap && d.on Reg.CAS_STAT.RESYNCED && d.cas.swapAt.isNone && f - (f &&& h.fault) != 0 then
    { d with cas := { d.cas with swapAt := some (d.time.tick + 8) } }
  else d

/-! ### Packages (R343, R344) -/

/-- PACKAGE_SEND (R343): the active side starts the package of the tick that closed, and notes the tick of what changed (R350). -/
def Dev.packageSend (d : Dev) (j : JTick) : Dev :=
  if !d.isActive || !d.cfg.hasPartner || d.step != 0 then d
  else
    let d := { d with cas := d.cas.stamp j }
    if !d.partnerUp then d else
    let d := (bodies (d.packageBytes j)).foldl (fun d b => d.partnerSend tyPACKAGE b) d
    { d with cas := { d.cas with pkgOpen := d.cas.pkgOpen ++ [j.tick] } }

/-- The shadow record that a listed record names, by slot and record seal. -/
def Dev.shadowOf (d : Dev) (r : JRec) : Option ShadowRec := d.cas.shadow.find? fun s => s.slot == r.slot && s.chk == r.chk

/-- Apply a listed record that the standby has decoded itself. -/
def Dev.applyListed (d : Dev) (r : JRec) : Dev :=
  match d.shadowOf r with
  | some s => d.applyItem { work := .record s.bytes s.chk, slot := r.slot, seat := r.seat, opening := r.opening, aseq := r.aseq
                            atick := s.tick } [] none
  | none => d.bump Reg.CAS_PAIR_CNT.MISSING

/-- The closes of a slot that the active side has made up to its image's last boundary, made here as well. -/
def Dev.mirrorCloses (d : Dev) (slot : Nat) (img : Ledger) : Dev :=
  match img.closedTo with
  | none => d
  | some x => ((d.pendingBounds slot).filter fun b => b.utc ≤ x).foldl (fun d b => d.closeAt slot b) d

/-- Does the own ledger differ from the package's image in a block that the package lists? -/
def Dev.diverges (d : Dev) (j : JTick) (slot : Nat) (img : Ledger) : Bool :=
  let m := SMap.get (fun _ => 0) j.blocks slot
  (List.range 32).any fun b => bitOf m b && (d.ledger slot).chk slot (d.owner slot) b != img.chk slot (d.owner slot) b

/-- A divergence of the last listed record of a slot is counted and recorded (R344). -/
def Dev.divergence (d : Dev) (r : JRec) : Dev :=
  (d.bump Reg.CAS_PAIR_CNT.DIVERGE).raiseFor Stk.CAS.DIVERGE (d.owner r.slot) r.slot [(6, r.aseq)]

/-- Compare every slot of which the standby decoded all listed records itself. -/
def Dev.compareAll (d : Dev) (matched : JRec → Bool) (j : JTick) : Dev :=
  j.ledgers.foldl (fun d p =>
    let rs := j.recs.filter fun r => r.slot == p.1
    match rs.getLast? with
    | some r => if rs.all matched && d.diverges j p.1 p.2 then d.divergence r else d
    | none => d) d

/-- Re-execute a tick's work beside the active side (R344): uplink records that it yields are kept under the package's tick. -/
def Dev.reExecute (d : Dev) (j : JTick) : Dev :=
  let n := d.cas.ghosts.length
  let matched := fun r => (d.shadowOf r).isSome
  let d := j.ledgers.foldl (fun d p => d.mirrorCloses p.1 p.2) d
  let d := (j.recs.foldl Dev.applyListed d).compareAll matched j
  { d with cas := { d.cas with
    ghosts := d.cas.ghosts.take n ++ (d.cas.ghosts.drop n).map fun g => { g with tick := j.tick } } }

/-- PACKAGE (R344, R363): the standby compares, installs every image, drops the key cache lines of the key records that are new (R159), and commits
the package to its own journal. -/
def Dev.package (d : Dev) (p : Package) : Dev :=
  if d.isActive || !d.partnerUp || d.step != 0 then d
  else if p.lver ≠ d.rd Reg.UPD_STAT.LVER then
    (d.bump Reg.CAS_PAIR_CNT.MISSING p.j.recs.length).wr Reg.CAS_STAT.RESYNCED 0
  else
    let d1 := if d.on Reg.CAS_STAT.RESYNCED then d.reExecute p.j else d
    let listed := fun (s : ShadowRec) => p.j.recs.any fun r => r.slot == s.slot && r.chk == s.chk
    let d2 := { d1 with
      ldg := { d1.ldg with
        ledgers := SMap.over d1.ldg.ledgers p.j.ledgers
        jrn := d.ldg.jrn, appliedCur := d.ldg.appliedCur, jwait := d.ldg.jwait ++ [p.j] }
      pool := { d1.pool with keys := SMap.over d1.pool.keys p.j.keys, adir := p.j.dir.foldl adirApply d1.pool.adir }
      camp := { d1.camp with camps := SMap.over d1.camp.camps p.j.camps }
      vault := { d1.vault with mirrorCeil := SMap.over d1.vault.mirrorCeil p.j.ceils }
      cas := { d1.cas with
        useqs := SMap.over d1.cas.useqs p.useqs
        pkgs := (p.j.tick :: d1.cas.pkgs).take 3
        shadow := d1.cas.shadow.filter fun s => !listed s } }
    let renewed := p.j.keys.filter fun e => slice (d.keyRec e.1) 0 48 != slice e.2 0 48 || u (d.keyRec e.1) 56 2 != u e.2 56 2
    let d2 := renewed.foldl (fun d e => d.dropLine e.1) d2
    let keep := d2.cas.pkgs
    { d2 with cas := { d2.cas.stamp p.j with ghosts := d2.cas.ghosts.filter fun g => keep.contains g.tick } }

/-- SHADOW_LEFTOVER (R344): shadow records that no package has listed within 8 ticks are discarded and counted. -/
def Dev.shadowLeftover (d : Dev) : Dev :=
  if d.isActive then d else
  let old := d.cas.shadow.filter fun s => decide (s.tick + 8 ≤ d.time.tick)
  ({ d with cas := { d.cas with shadow := d.cas.shadow.filter fun s => decide (d.time.tick < s.tick + 8) } } : Dev).bump
    Reg.CAS_LINK_CNT.LEFTOVER old.length

/-! ### Taking over and giving up the role (R346, R347) -/

/-- Admit the shadow records that no package has listed, in their order. -/
def Dev.admitShadows (d : Dev) : Dev :=
  let l := d.cas.shadow
  let d := { d with cas := { d.cas with shadow := [] } }
  l.foldl (fun d s => d.admitRecord s.slot s.seat s.bytes) d

/-- USEQ goes on from the mirrored value (R346, R351). -/
def Dev.takeUseqs (d : Dev) : Dev := d.cas.useqs.foldl (fun d p => d.onSeat p.1 fun s => { s with useq := p.2 + 1 }) d

/-- Regenerate, with RESENT set, the uplink records of the packages received last, oldest first (R346). -/
def Dev.regenerate (d : Dev) : Dev :=
  let gs := d.cas.pkgs.reverse.flatMap fun t => d.cas.ghosts.filter fun g => g.tick == t
  let d := { d with cas := { d.cas with ghosts := [] } }
  gs.foldl (fun d g => d.stage g.seat g.from_ g.ty (g.flags ||| 1) g.atick g.body) d

/-- What a side does that becomes active: epoch, frame counters, campaigns (R257, R281, R349). -/
def Dev.becomeActive (d : Dev) : Dev :=
  let d := ((d.wr Reg.CAS_STAT.ROLE 1).raiseEpoch).bcastTakeover
  { d with
    camp := { d.camp with camps := d.camp.camps.map fun p => (p.1, p.2.restart) }
    cas := { d.cas with giveUp := none, swapAt := none, resyncAt := none, pkgOpen := [] }
    grant := { d.grant with tookOver := true } }

/-- A staged or armed canvas at a takeover (R53): it is applied at T if this side's validation has completed, else abandoned. -/
def Dev.canvasTakeover (d : Dev) : Dev :=
  let st := d.rd Reg.CANVAS_STAT.STATE
  let d' : Dev := { d with cv := { d.cv with peerStaged := false } }
  if st = 1 ∨ st = 2 ∨ d.cv.peerStaged = true then (d'.cvCode 0x1D).dropStaged else d'

/-- The dealer is told of the takeover; a side that takes over the dealer's own position becomes dealer (R335, R346). -/
def Dev.tellTakeover (d : Dev) : Dev :=
  let e := d.rd Reg.CAS_EPOCH.EPOCH
  if d.isDealer then d.noteActive d.pos d.side e
  else if d.dealerPos = some d.pos then
    (d.becomeDealer (d.rd Reg.CAS_DEALER_EPOCH.EPOCH + 1)).noteActive d.pos d.side e
  else d.toDealer tyTAKEOVER true (leBytes 4 e ++ leBytes 1 d.side)

/-- TAKEOVER (R346): a standby whose last heartbeat is that of three ticks ago takes over; it has no standby in step. -/
def Dev.takeover (d : Dev) : Dev :=
  match d.cas.beat with
  | none => d
  | some h =>
    if d.rd Reg.CAS_STAT.ROLE ≠ 0 ∨ d.step ≠ 0 ∨ d.cfg.hasPartner = false ∨ d.time.tick < h.tick + 3 then d else
    let d := (d.becomeActive.wr Reg.CAS_STAT.RESYNCED 0).raise Stk.CAS.TAKEOVER
    let d := (List.range 64).foldl Dev.discardFences d
    d.takeUseqs.admitShadows.regenerate.canvasTakeover.tellTakeover

/-- TAKEOVER_NOTICE (R331, R346, R347): the dealer marks the position's active side; an active side that hears a higher epoch of
its own position is told to give up. -/
def Dev.takeoverNotice (d : Dev) (k : Nat) (b : Bytes) : Dev :=
  if !d.inCascade || 4 ≤ k || !d.linkUp k then d else
  d.authTake b fun d body =>
    let p := u b 4 1
    let e := u body 0 4
    let d := if d.isDealer && decide (p < 40) then (d.heardPos p).noteActive p (u body 4 1 % 2) e else d
    d.toldOther (p == d.pos && decide (d.rd Reg.CAS_EPOCH.EPOCH < e))

/-- The counter value at which the running tick opened. -/
def Dev.opened (d : Dev) : Int := d.time.base + (d.time.tick * d.tickNs : Nat)

/-- ROLE_RELINQUISH (R347): at the boundary after it was told so, by the grant line, a SYNC or a TAKEOVER, an active side gives up
the role and becomes DETACHED. -/
def Dev.relinquish (d : Dev) : Dev :=
  let told := d.cas.giveUp.elim false fun t => decide (t < d.time.tick)
  let peer := d.cfg.hasPartner && d.on Reg.TXG_STAT.PEER && decide ((d.grant.peerAt : Int) < d.opened)
  if !d.isActive || !(told || peer) then d else
  let d := ((d.wr Reg.CAS_STAT.ROLE 2).grantOff).wr Reg.CAS_STAT.RESYNCED 0
  let d := (List.range 64).foldl Dev.discardFences d
  ({ d with cas := { d.cas with giveUp := none, swapAt := none, resyncAt := none } } : Dev).resyncStart

/-! ### Resynchronisation (R350) -/

/-- A bulk item is taken if its image is not older than the one held. -/
def Dev.bulkTake (d : Dev) (i : BulkItem) (tick : Nat) : Dev :=
  match i with
  | .block slot b img =>
    if tick < SMap.get (fun _ => 0) d.cas.blockTick (32 * slot + b) then d else
    let l := (d.ledger slot).takeBlock img b
    let l := if b = 0 then { l with closedTo := img.closedTo, catching := img.catching, held := img.held } else l
    let d := d.setLedger slot l
    { d with
      ldg := { d.ldg with jrn := { d.ldg.jrn with
        ledgers := SMap.put d.ldg.jrn.ledgers slot l, blocks := SMap.upd (fun _ => 0) d.ldg.jrn.blocks slot (· ||| 2 ^ b) } }
      cas := { d.cas with blockTick := SMap.put d.cas.blockTick (32 * slot + b) tick } }
  | .key slot r =>
    if tick < SMap.get (fun _ => 0) d.cas.keyTick slot then d else
    let d := d.putKeyRec slot r
    { d with cas := { d.cas with keyTick := SMap.put d.cas.keyTick slot tick } }
  | .dir c =>
    if tick < SMap.get (fun _ => 0) d.cas.dirTick c.key then d else
    { d with
      pool := { d.pool with adir := adirApply d.pool.adir c }
      ldg := { d.ldg with jrn := { d.ldg.jrn with dir := d.ldg.jrn.dir ++ [c] } }
      cas := { d.cas with dirTick := SMap.put d.cas.dirTick c.key tick } }
  | .carry q => d.onEng (d.engOf q.slot) fun e => { e with carry := e.carry ++ [q] }

/-- BULK (R350): an item of the bulk copy, tagged with the tick of its last change. -/
def Dev.bulk (d : Dev) (i : BulkItem) (tick : Nat) : Dev :=
  if d.isActive || !d.partnerUp || d.cas.resyncAt.isNone then d else d.bulkTake i tick

/-- RESYNC_DONE (R350): the copy is complete. The standby, and on its word the active side, show RESYNCED. -/
def Dev.resyncDone (d : Dev) : Dev :=
  if !d.partnerUp then d
  else if d.isActive then { d.wr Reg.CAS_STAT.RESYNCED 1 with cas := { d.cas with resyncAt := none } }
  else if d.cas.resyncAt.isNone then d
  else
    let d := (d.wr Reg.CAS_STAT.RESYNCED 1).wr Reg.CAS_STAT.ROLE 0
    { d with cas := { d.cas with resyncAt := none } }

/-- RESYNC_TIMEOUT (R350): not complete in 300 ticks: the copy restarts. -/
def Dev.resyncTimeout (d : Dev) : Dev :=
  match d.cas.resyncAt with
  | some t =>
    if d.time.tick < t + 300 then d
    else (({ d with cas := { d.cas with resyncAt := some d.time.tick } } : Dev).raise Stk.CAS.RESYNC_FAIL).bulkSend
  | none => d

/-! ### Role swap (R351) -/

/-- CAS_SWAP: the active side schedules a swap at CAS_SWAP_TICK, or sets SWAP_REJ. -/
def Dev.casSwap (d : Dev) : Dev :=
  let t := d.rd64 Reg.CAS_SWAP_TICK.TICK
  if d.isActive && d.on Reg.CAS_STAT.RESYNCED && decide (d.time.tick + 8 ≤ t) then
    { d with cas := { d.cas with swapAt := some t } }
  else d.raise Stk.CAS.SWAP_REJ

/-- ROLE_SWAP (R351): at T the old active side lowers its grant and becomes standby; the standby becomes active, continues USEQ
exactly and tells the dealer, whose map would otherwise name the other side (DEDUCED, log entry 121). -/
def Dev.roleSwap (d : Dev) : Dev :=
  if d.isActive then
    if d.cas.swapAt = some d.time.tick then
      let d := (d.wr Reg.CAS_STAT.ROLE 0).grantOff
      { d with cas := { d.cas with swapAt := none, shadow := [], ghosts := [], pkgs := [] } }
    else d
  else if d.rd Reg.CAS_STAT.ROLE = 0 ∧ d.on Reg.CAS_STAT.RESYNCED = true ∧ d.partnerUp = true ∧ d.step = 0 then
    let d := d.becomeActive.takeUseqs.admitShadows
    ({ d with cas := { d.cas with ghosts := [] } } : Dev).tellTakeover
  else d

/-! ### Command resets (R353) -/

/-- A command reset of a source: the deeper of LEVEL and the mapped level. -/
def Dev.cmdReset (d : Dev) (c source level : Nat) : Dev :=
  if level = 0 ∨ 4 < level then d else d.accept c source (min level (d.mapped source))

/-- A MGMT body (R332): OP, offset, value, TICK; and the level of a reset, which stands in the value. -/
def mgmtOp (b : Bytes) : Nat := u b 0 1
def mgmtOff (b : Bytes) : Nat := u b 1 4
def mgmtVal (b : Bytes) : Nat := u b 5 4

/-- CAS_RESET (R353): a partner command is honoured from the active side to its standby, a dealer command in an authenticated
MGMT frame. -/
def Dev.casReset (d : Dev) (c : Nat) (r : ResetCmd) : Dev :=
  match r with
  | .partner level => if d.isActive || !d.partnerUp then d else d.cmdReset c 8 level
  | .dealer b =>
    if !d.inCascade then d else
    d.authTake b fun d body =>
      if mgmtOp body = 3 ∧ d.dealerPos = some (u b 4 1) then d.cmdReset c 9 (mgmtVal body) else d

/-- A write of CAS_CTL (R341, R351, R353): a command reset goes to the partner. -/
def Dev.casCtl (d : Dev) (c v : Nat) : Dev :=
  let d := if bitOf v 0 then d.casSwap else d
  let d := if bitOf v 1 && d.isActive then d.partnerSend tyMGMT (leBytes 1 3 ++ leBytes 1 (bitsOf v 4 2)) else d
  if bitOf v 5 then d.casRenumber c else d

end Sys2Proof.Machine
end

