-- ==== Sys2Proof/Machine/Boundary.lean ====
section
/-!
DEFINITION. The tick boundary: what closes with a tick and what opens with the next (R35, R55 to R62, R159, R203, R292, R319, R334,
R337, R343, R345, R361, R387).
-/

namespace Sys2Proof.Machine

/-- Bits [15:8] of the event codes of the ledger engines and of the journal writer, and of the partner link. -/
def blkLedger : Nat := 0x10
def blkCascade : Nat := 0x1C

/-- The spill in cycles of the journal writer and of the partner link, which no rule gives. -/
def useSpill : Nat := 40

/-- Cycles by which a close is bounded (R57). -/
def closeCycles : Nat := 4000

/-- An engine whose closes of tick `t` or of an earlier tick are unfinished is overrun (R59). -/
def Dev.engOverrun (d : Dev) (t e : Nat) : Dev :=
  let n := (d.ldg.spill.filter fun s => d.engOf s.1 == e).length
  if n = 0 then d
  else d.raiseIn Stk.MAND_OVR_ENG.ENG 0 0 e 0xFF e [(1, blkLedger), (8, t), (4, closeCycles * n)]

/-- MANDATORY_OVERRUN (R35, R59): the closes of the ending tick that are unfinished are spilled into the next. Only the active
side makes closes of its own. -/
def Dev.overrun (d : Dev) (t : Nat) : Dev :=
  if !d.isActive then d else
  let due := (d.dueSlots t).filter fun s => !(d.ldg.spill.any fun x => x.1 == s)
  let d := { d with ldg := { d.ldg with spill := d.ldg.spill ++ due.map fun s => (s, t) } }
  (List.range 16).foldl (fun d e => d.engOverrun t e) d

/-- Deltas of the ending tick that JOURNAL_COMMIT has not written are an overrun of the journal writer (R56, R59). -/
def Dev.journalOverrun (d : Dev) (t : Nat) : Dev :=
  if d.ldg.jrn.isEmpty then d
  else (d.raise Stk.TIME.MAND_OVR noIdx [(1, blkLedger), (8, t), (4, d.fresh useSpill (2 ^ 32))]).took

/-- A package that was due in the ending tick and is not complete is an overrun of the partner link (R56, R59, R343); the others are
complete. -/
def Dev.linkOverrun (d : Dev) (t : Nat) (late : Bool) : Dev :=
  if late && d.isActive && d.cas.pkgOpen.any (· < t) then
    (d.raise Stk.TIME.MAND_OVR noIdx [(1, blkCascade), (8, t), (4, d.fresh useSpill (2 ^ 32))]).took
  else { d with cas := { d.cas with pkgOpen := [] } }

/-- Is any mandatory work of the ending tick unfinished? -/
def Dev.mandOpen (d : Dev) (t : Nat) (pkgLate : Bool) : Bool :=
  !d.ldg.jrn.isEmpty || (pkgLate && d.isActive && d.cas.pkgOpen.any (· < t)) || (d.isActive && (!d.ldg.spill.isEmpty || !(d.dueSlots t).isEmpty))

/-- The tick's deltas as a whole. -/
def Dev.tickDeltas (d : Dev) (t : Nat) : JTick := d.ldg.jdone.merge { d.ldg.jrn with tick := t }

/-- The ending tick's deltas are closed: what is not yet committed waits. -/
def Dev.closeJournal (d : Dev) (t : Nat) : Dev :=
  let j := { d.ldg.jrn with tick := t }
  { d with ldg := { d.ldg with
    jwait := if d.ldg.jrn.isEmpty then d.ldg.jwait else d.ldg.jwait ++ [j]
    jrn := {}, jdone := {} } }

/-- CARRY_MOVE (R61): records admitted before the closing tick go into the carry queue; a new tick's budget opens. -/
def Dev.carryMove (d : Dev) (t : Nat) : Dev :=
  let go := fun (e : EngineSt) =>
    { e with
      carry := e.carry ++ e.inq.filter fun q => decide (q.atick < t)
      inq := e.inq.filter fun q => decide (t ≤ q.atick)
      used := 0
      mand := 0 }
  { d with ldg := { d.ldg with engines := SMap.ofEntries (fun _ => {}) (d.ldg.engines.map fun p => (p.1, go p.2)) } }

/-- Entries of the carry queue, all engines (CARRY_OCC). -/
def Dev.carryOcc (d : Dev) : Nat := ((List.range 16).map d.shareUsed).foldl (· + ·) 0

/-- The shadow engine turns to the tick that ended (R203). -/
def Dev.shadowTurn (d : Dev) (t : Nat) : Dev :=
  let d := (d.wr Reg.LDG_SHADOW.ENG (t % 16)).wr Reg.LDG_SHADOW.RECS (min 0xFFFF d.ldg.shadowRecs)
  { d with ldg := { d.ldg with
    shadowLast := d.ldg.shadowCur, shadowCur := [], shadowUsed := 0, shadowRecs := 0
    appliedLast := d.ldg.appliedCur, appliedCur := [] } }

/-- TICK_LOAD (R84): the cycles of the tick that ended, in thousands; the shadow engine has no mandatory work (R56). -/
def Dev.tickLoad (d : Dev) : Dev :=
  let put := fun (d : Dev) (i mand other : Nat) =>
    (d.wr Reg.TICK_LOAD.MAND (min 0xFFFF (mand / 1000)) i).wr Reg.TICK_LOAD.REC (min 0xFFFF (other / 1000)) i
  put ((List.range 16).foldl (fun d e => put d e (d.eng e).mand ((d.eng e).used - (d.eng e).mand)) d) 16 0 d.ldg.shadowUsed

/-- Pages of the checkpoint pass in a tick (R319): 4 in 10 ms, twice as many while the journal area is more than half full. -/
def Dev.ckptRate (d : Dev) : Nat :=
  let n := 4 * d.tickNs / 10000000
  if journalPages < 2 * d.ftl.journal.length then 2 * n else n

/-- CHECKPOINT_PAGE_WRITE (R319): the pass writes its next page, unless it is complete. -/
def Dev.ckptPage (d : Dev) : Dev :=
  if d.ftlReady = false ∨ passPages ≤ d.ftl.ckptPage then d else
  let d := d.nandWrite (lpaCkpt + d.ftl.ckptPage) sWARM d.time.tick
  { d with ftl := { d.ftl with ckptPage := d.ftl.ckptPage + 1 } }.ftlRegs

/-- The tick number that opens next: the dealer of a cascade that does not continue a running lattice numbers it above every
journal tick it has heard (R341). -/
def Dev.nextTick (d : Dev) : Nat :=
  if d.isDealer && !d.cas.synced then
    max (d.time.tick + 1) (1 + (d.cas.heard.map (·.jtick)).foldl max d.journalHigh)
  else d.time.tick + 1

/-- The counter reaches the boundary and the next tick opens there (R55). -/
def Dev.openTick (d : Dev) : Dev :=
  let b := d.nextB
  let n := d.nextTick
  { d with time := { d.time with cnt := max d.time.cnt b, tick := n, base := b - (n * d.tickNs : Nat) } }

/-- The dealer's own first SYNC: it goes on to step 4 (R336, R338). -/
def Dev.dealerFirst (d : Dev) : Dev :=
  if d.isDealer && !d.cas.synced then
    let d := { d with cas := { d.cas with synced := true, lastSync := d.time.tick } }
    if d.step = 3 then d.enterPairing else d
  else d

/-- What the power stage has measured over the tick (R387). -/
def Dev.measured (d : Dev) (p : PowerIn) : Dev :=
  let d := (d.wr Reg.PWR_VIN.VIN p.vin).wr Reg.PWR_VIN.IIN p.iin
  let d := (d.wr Reg.PWR_PIN.PIN p.pin).peak Reg.PWR_PIN.PEAK p.pin
  (List.range 10).foldl (fun d i => d.wr Reg.PWR_BLOCK.POWER (p.blocks.getD i 0) i) d

/-- The uplink datagrams that the tick left open are closed (R287), and rings that were added to are noticed (R290). -/
def Dev.closeUplinks (d : Dev) : Dev :=
  d.cfg.seats.foldl (fun d n => (((List.range 2).foldl (fun d p => d.closeDgram n p) d).ringNotice n)) d

/-- What closes with tick `t`; `pkgLate` says that the package due in it has not been sent whole. -/
def Dev.closeTick (d : Dev) (t : Nat) (pkgLate : Bool) : Dev :=
  let open_ := d.mandOpen t pkgLate
  let d := (((d.overrun t).journalOverrun t).linkOverrun t pkgLate).trialTick open_
  let d := d.closeUplinks.tickLoad
  let d := (d.packageSend (d.tickDeltas t)).closeJournal t
  let d := (List.range 16).foldl Dev.carryWatch (d.carryMove t)
  (d.shadowTurn t).peak Reg.CARRY_PEAK.PEAK d.carryOcc

/-- What the field ports do at a boundary: a FIELDLINK port goes on sending when its PAUSE has run out, and a pool hold keeps its own
PAUSE in force (R88, R167). -/
def Dev.portsTick (d : Dev) : Dev :=
  (((List.range 256).filter fun p => d.mode p == Canvas.mFIELDLINK).foldl Dev.txDrain d).pauseKeep

/-- What opens with the next tick. -/
def Dev.openWork (d : Dev) : Dev :=
  let d := d.portsTick.findFences
  let d := (d.keyInstall.adirEffect).vaultEff.balVisible.campKeys
  let us := d.cas.dirOut
  let d := ({ d with cas := { d.cas with dirOut := [] } } : Dev).dirSend (if d.isActive then us else [])
  let d := (List.range d.ckptRate).foldl (fun d _ => d.ckptPage) d
  let d := if d.step = 0 ∧ d.cv.run.isSome = true then d.findBounds d.time.tick else d
  d.dealerFirst.heartbeatTick.syncSend

/-- Does the time base run: the rails are on, and the device has started since L0 or L1? -/
def Dev.ticking (d : Dev) : Bool :=
  match d.sys.phase with
  | .off => false
  | .quiesced => true
  | .inReset => !d.sys.cold
  | .up => true

/-- TICK_BOUNDARY (R56): each block closes the ending tick's work and opens the next; in a reset only the lattice runs. -/
def Dev.tickBoundary (d : Dev) (p : PowerIn) : Dev :=
  if d.sys.phase = .up then ((d.closeTick d.time.tick p.pkgLate).openTick.openWork).measured p
  else if d.ticking then d.openTick
  else d

end Sys2Proof.Machine
end

