-- ==== Sys2Proof/Machine/Operands.lean ====
section
/-!
DEFINITION. How a command's operand names a place: where an access of a seat to an offset lands (R20, R21, R39, R402, R403), the
block that an offset belongs to (R11, R20), and the windows (R293).
-/

namespace Sys2Proof.Machine

/-! ### Blocks (R20) -/

/-- The ACCESS bit of the block whose address range holds an offset; the offsets in no block and the MSI-X offsets belong to
GLOBAL's (R11). -/
def accessSticky (off : Nat) : Sticky :=
  match off / 0x10000 with
  | 0x1 => Stk.CANVAS.ACCESS
  | 0x2 => Stk.TIME.ACCESS
  | 0x3 => Stk.EVT.ACCESS
  | 0x4 => Stk.MBX.ACCESS
  | 0x5 => Stk.VAULT.ACCESS
  | 0x6 => Stk.PWR.ACCESS
  | 0x8 | 0x9 => Stk.FP_GLB.ACCESS
  | 0xA | 0xB => Stk.RAIL.ACCESS
  | 0xC | 0xD => Stk.RADIO_GLB.ACCESS
  | 0xE | 0xF => Stk.ING.ACCESS
  | 0x10 | 0x11 => Stk.LDG.ACCESS
  | 0x12 | 0x13 => Stk.VEE.ACCESS
  | 0x14 | 0x15 => Stk.BAL.ACCESS
  | 0x16 | 0x17 => Stk.CAMP.ACCESS
  | 0x18 | 0x19 => Stk.SEAT.ACCESS
  | 0x1A | 0x1B => Stk.MEM.ACCESS
  | 0x1C | 0x1D => Stk.CAS.ACCESS
  | 0x1E | 0x1F => Stk.UPD.ACCESS
  | _ => Stk.GLB.ACCESS

/-- The blocks that the house seat reaches in the unconfigured state (R39): GLOBAL, CANVAS, TIME, EVENTS, VAULT, MEMORY and
UPDATE. -/
def unconfBlock (off : Nat) : Bool := [0x0, 0x1, 0x2, 0x3, 0x5, 0x1A, 0x1B, 0x1E, 0x1F].contains (off / 0x10000)

/-! ### Registers (R20, R21, R402, R403) -/

/-- Where an aligned 32-bit access of a seat lands. -/
inductive Spot where
  /-- No register, or one that is hidden from the seat or reads as zero for it: a write is counted (R21). -/
  | hidden
  /-- A register that reads as zero for seat 0, whose view hides nothing. -/
  | shut
  /-- Entry and copy of a register that the seat reads and does not write. -/
  | look (r : RegRow) (i cp : Nat)
  /-- Entry and copy of a register that the seat reads and writes. -/
  | reach (r : RegRow) (i cp : Nat)
  deriving DecidableEq, Repr

/-- What a register that does not show anything is for a seat. -/
def blankFor (n : Nat) : Spot := if n = 0 then .shut else .hidden

/-- Do a port's PLC or RADIO registers read as zero because the port is not in that mode (R125, R146)? -/
def Dev.wrongMode (d : Dev) (r : RegRow) (i : Nat) : Bool :=
  (decide (Reg.PLC_CFG.STD.off ≤ r.off ∧ r.off < 0xB0000) && d.cfg.portMode i != Canvas.mPLC) ||
  (decide (Reg.RADIO_CFG.RATE.off ≤ r.off ∧ r.off < 0xD0000) && d.cfg.portMode i != Canvas.mRADIO)

/-- Entry `i` of a row as a seat sees it. -/
def Dev.spotAt (d : Dev) (n : Nat) (r : RegRow) (i : Nat) : Spot :=
  match r.view with
  | .m => match (d.cfg.seatMbxs n)[i]? with
    | some m => .reach r m 0
    | none => .hidden
  | .s => if n = 0 then .reach r i 0 else if i = 0 then .reach r n 0 else .hidden
  | .o => .reach r i n
  | .r => if n = 0 then .reach r i 0 else .look r i 0
  | .z => if n = 0 then .reach r i 0 else .hidden
  | .i => if n = 0 ∨ i = n then .reach r i 0 else .hidden
  | .p => if n = 0 ∨ d.cfg.seatPort n i = true then .reach r i 0 else .hidden

/-- Where an access of seat `n` to an offset lands. -/
def Dev.spot (d : Dev) (n off : Nat) : Spot :=
  match rowAt off with
  | none => .hidden
  | some r =>
    let i := (off - r.off) / r.stride
    if d.cv.run.isNone && !unconfBlock off then blankFor n
    else if d.wrongMode r i then blankFor n
    else d.spotAt n r i

/-- Does a function reach its BARs: the physical function, or a VF whose seat has PROV and PCIE (R284)? -/
def Dev.hasFunction (d : Dev) (n : Nat) : Bool := n == 0 || (d.cfg.seatProv n && d.cfg.seatPcie n)

/-! ### Windows (R19, R293) -/

/-- BAR2 begins at this offset of the address space (R19). -/
def bar2 : Nat := 0x01000000

/-- A window of a seat, with an offset in it (R293). -/
inductive Window where
  | ledgers (at0 : Nat)
  | keys (at0 : Nat)
  | neighbours (at0 : Nat)
  | history (at0 : Nat)
  | messages (at0 : Nat)
  | outside
  deriving DecidableEq, Repr

/-- The window that holds a BAR2 offset; message memory is MSGMEM × 64 KiB long. -/
def windowOf (msgmem w : Nat) : Window :=
  if w < 0x08000000 then .ledgers w
  else if w < 0x08400000 then .keys (w - 0x08000000)
  else if w < 0x08800000 then .neighbours (w - 0x08400000)
  else if w < 0x09000000 then .history (w - 0x08800000)
  else if w < 0x09000000 + 65536 * msgmem then .messages (w - 0x09000000)
  else .outside

/-! ### MSI-X (R405) -/

/-- The MSI-X table and PBA of a function in BAR0. -/
def msixTable : Nat := 0x00F00000
def msixPba : Nat := 0x00F80000

/-- Does an offset lie in the MSI-X area? -/
def inMsix (off : Nat) : Bool := decide (msixTable ≤ off ∧ off < bar2)

end Sys2Proof.Machine
end

