-- ==== Sys2Proof/Machine/Flags.lean ====
section
/-!
DEFINITION. The access types of register fields (R9, R10): what a read shows and clears, and what a write changes.
-/

namespace Sys2Proof.Machine

/-- Bits `hi … lo` as a mask. -/
def maskOf (hi lo : Nat) : Nat := 2 ^ (hi + 1) - 2 ^ lo

/-- The bits of a register that a read shows: write-only fields and reserved bits read as zero. -/
def readMask (fs : List FieldDef) : Nat := fs.foldl (fun m f => if f.acc = .wo then m else m ||| maskOf f.hi f.lo) 0

/-- The bits that a read clears. -/
def clearMask (fs : List FieldDef) : Nat := fs.foldl (fun m f => if f.acc = .rc then m ||| maskOf f.hi f.lo else m) 0

/-- What a read of a register's word returns. -/
def readWord (fs : List FieldDef) (w : Word) : Nat := w.toNat &&& readMask fs

/-- The word after a permitted read. -/
def clearedWord (fs : List FieldDef) (w : Word) : Word := w &&& ~~~ BitVec.ofNat 32 (clearMask fs)

/-- What a written value makes of one field: RW takes it, W1C and RWS clear the bits written as one, and every other type
ignores it (a WO field acts in the command that its block gives it). -/
def writeField (v : Word) (w : Word) (f : FieldDef) : Word :=
  let m := BitVec.ofNat 32 (maskOf f.hi f.lo)
  match f.acc with
  | .rw => (w &&& ~~~ m) ||| (v &&& m)
  | .w1c | .rws => w &&& ~~~ (v &&& m)
  | .ro | .wo | .rc => w

/-- The word of a register after a write. -/
def writeWord (fs : List FieldDef) (w v : Word) : Word := fs.foldl (writeField v) w

/-- Does some write act on a register? -/
def writable (fs : List FieldDef) : Bool := fs.any fun f => f.acc == .rw || f.acc == .wo || f.acc == .w1c || f.acc == .rws

end Sys2Proof.Machine
end

