-- ==== Sys2Proof/Machine/RegAccess.lean ====
section
/-!
DEFINITION. The register space: what each register shows, what a read clears or latches, what a write does, the windows of BAR2 and
the MSI-X area (R9 to R11, R19 to R21, R293, R402 to R405 and the register maps of the chapters).
-/

namespace Sys2Proof.Machine

/-! ### What registers show -/

/-- A word made of fields, each a value and its lowest bit. -/
def packed (l : List (Nat × Nat)) : Nat := l.foldl (fun a p => a + p.1 * 2 ^ p.2) 0

/-- TIME and the power block (R71, R75, R84). -/
def Dev.showTime (d : Dev) (n off i : Nat) : Option Nat :=
  let t := d.time
  if off = Reg.TICK.TICK.off then
    some (if i = 0 then t.tick else (d.hiLatch n).tickHi.getD (t.tick / 2 ^ 32))
  else if off = Reg.TB_CNT.CNT.off then
    some (if i = 0 then t.cnt else (d.hiLatch n).cntHi.getD (t.cnt / 2 ^ 32))
  else if off = Reg.TIME_SUBSEC.SUBSEC.off then some (d.latch n).subsec
  else if off = Reg.TIME_SEC_LO.SEC.off then some (d.latch n).secLo
  else if off = Reg.TIME_SEC_HI.SEC_HI.off then some (d.latch n).secHi
  else if off = Reg.TIME_OFS.OFS.off then some (wrapI 64 (d.ofsAt t.cnt) / 2 ^ (32 * i))
  else if off = Reg.TIME_HOLD.SECONDS.off then some d.timeHold
  else if off = Reg.CARRY_OCC.ENTRIES.off then some d.carryOcc
  else none

/-- The entries of a seat's view that still wait in the front buffer; the house seat counts them all (R400). -/
def Dev.frontOf (d : Dev) (n : Nat) : Nat := (d.evt.front.filter fun e => n == 0 || e.seat == n).length

/-- CANVAS, EVENTS, MAILBOX and VAULT (R54, R282, R301, R400). `w` is the stored word. -/
def Dev.showSys (d : Dev) (n off i w : Nat) : Option Nat :=
  if off = Reg.CANVAS_STAT.STATE.off then some (w ||| (if d.shownCfg.isEmpty || d.cfg.hasPartner then 0 else maskOf 5 5))
  else if off = Reg.EVT_STAT.BUSY.off then
    some (w % 8 + packed [(b2n (d.viewEntries (d.viewOf n)).isEmpty, 3), (d.frontOf n, 16)])
  else if off = Reg.EVT_HEAD.ESEQ.off then
    some (((d.viewEntries (d.viewOf n)).getLast?.map (·.eseq)).getD 0xFFFFFFFF)
  else if off = Reg.MBX_INFO.RECV.off then
    some (if d.cv.run.isNone || d.cv.hidden then 0 else if i = 63 then 0xFD else (d.cfg.mbxSeat i).getD 0xFE)
  else if off = Reg.VAULT_STAT.STATE.off then some (if n = 0 then w else w &&& maskOf 4 4)
  else if off = Reg.VAULT_SLOT_STAT.ATTR.off then some (d.vaultSlotStat n)
  else if off = Reg.VAULT_CNT_HI.VALUE.off then some (SMap.get (fun _ => 0) d.vault.cntHi n)
  else if off = Reg.CAS_CFG.POSITION.off then some (if n = 0 then w else w &&& maskOf 8 0)
  else none

/-- FIELD PORTS, PLC and RADIO: what the canvas sets (R105, R125, R146). -/
def Dev.showPorts (d : Dev) (off p : Nat) : Option Nat :=
  let c := d.shownCfg
  if off = Reg.FP_CFG.MODE.off then
    some (packed [(c.portMode p, 0), (c.fifoProt p, 3), (c.fifoBank p, 4), (c.portTxInv p, 6), (c.maxFrame p, 8)])
  else if off = Reg.PLC_CFG.STD.off then
    some (packed [(c.plcStd p, 0), (if c.plcStd p = 1 then c.plcBand p - 1 else c.plcBand p, 1), (if c.isEmpty then 0 else c.plcDecim p, 4),
      (c.bpF p 3 1, 9), (c.plcJoinRate p, 12)])
  else if off = Reg.RADIO_CFG.RATE.off then
    some (packed [(c.radRate p, 0), (c.radBO p, 2), (c.radSO p, 6), (c.bpF p 8 1, 10), (c.radGtsMax p, 11),
      (c.radJoinRate p, 14), (c.radMod p, 22)])
  else none

/-- Slots of a seat; of the device for the house seat (R213). -/
def Canvas.slotsSeen (c : Canvas) (n : Nat) : Nat := if n = 0 then c.slots else c.seatCount n

/-- Nodes of a seat; of the device for the house seat (R246). -/
def Canvas.nodesSeen (c : Canvas) (n : Nat) : Nat :=
  if n = 0 then c.nNode else ((List.range c.nNode).filter fun i => c.nodeSeat i == n).length

/-- May a seat select a slot (R213, R246)? -/
def Dev.seesSlot (d : Dev) (n slot : Nat) : Bool := n == 0 || d.cfg.seatOfSlot slot == some n

/-- May a seat select a node (R246)? -/
def Dev.seesNode (d : Dev) (n i : Nat) : Bool := decide (i < d.cfg.nNode) && (n == 0 || d.cfg.nodeSeat i == n)

/-- INGEST, LEDGER and VEE (R174, R213, R225). -/
def Dev.showLedger (d : Dev) (n off i : Nat) : Option Nat :=
  let c := d.shownCfg
  let vs := if n = 0 then d.rd Reg.VEE_SEAT_SEL.SEAT else n
  let noSet := (c.sectIdx Canvas.tyVEE).isNone || c.veeAssign vs == 0xFF
  if off = Reg.ING_POOL_CFG.APDU_MAX.off then some c.apduMax
  else if off = Reg.LDG_SEAT_INFO.SLOTS.off then some (packed [(c.slotsSeen n, 0), (c.seatPeriod n, 24)])
  else if off = Reg.LDG_ENG_MASK.MASK.off then some (c.engMask n)
  else if off = Reg.LDG_SLOT_STAT.STATE.off then
    let s := d.rd Reg.LDG_SLOT_SEL.SLOT 0 n
    some (if d.seesSlot n s then packed [((d.ledger s).st, 0), ((d.ledger s).held.length, 16)] else 0)
  else if off = Reg.VEE_SET_INFO.SET.off then some (if noSet then maskOf 4 4 else c.veeAssign vs)
  else if off = Reg.VEE_RULE.WORD.off then some (if noSet then 0 else u (c.veeSet vs) (4 * i) 4)
  else none

/-- Node evaluations that wait (R246). -/
def Dev.evalBacklog (d : Dev) : Nat :=
  d.shownCfg.seats.foldl (fun a n =>
    a + ((d.evalPending n).filter d.evalDue).length * ((List.range d.cfg.nNode).filter fun i => d.cfg.nodeSeat i == n).length) 0

/-- BALANCE (R246). -/
def Dev.showBalance (d : Dev) (n off : Nat) : Option Nat :=
  let node := d.rd Reg.BAL_NODE_SEL.INDEX 0 n
  let slot := d.rd Reg.BAL_SLOT_SEL.INDEX 0 n
  let b := (d.ledger slot).bal
  if off = Reg.BAL_INFO.NODES.off then some (packed [(d.shownCfg.nodesSeen n, 0), (b2n d.shownCfg.hasTopo, 31)])
  else if off = Reg.BAL_STAT.BACKLOG.off then some (min 0xFFFF d.evalBacklog)
  else if off = Reg.BAL_NODE_RES.RBP.off then
    some (if d.seesNode n node then ((d.node node).hist.head?.map fun e => u e 24 4).getD 0 else 0)
  else if off = Reg.BAL_NODE_ALARM.ALARM.off then
    some (if d.seesNode n node then packed [(b2n (d.node node).alarm, 0), ((d.node node).run, 1)] else 0)
  else if off = Reg.BAL_SLOT_SCORE.SCORE.off then
    some (if d.seesSlot n slot then packed [(b.score, 0), (b.phase, 8), (b.afl % 2, 16)] else 0)
  else none

/-- The next block to multicast of a campaign: the lowest that a port still has to send, and past the last one where none has. -/
def Dev.campNextBlock (d : Dev) (c : CampSt) : Nat :=
  match (d.mcPorts c).filterMap c.nextBlock with
  | [] => if c.phase = 4 then c.total else 0
  | b :: bs => bs.foldl min b

/-- CAMPAIGN (R259, R404). -/
def Dev.showCampaign (d : Dev) (n off w : Nat) : Option Nat :=
  let i := d.campSel n
  let c := d.campaign i
  let own := d.campOwned n i
  let see := own || (n == 0 && c.state != 0)
  let cnt := fun (ok : TgtState → Bool) => (c.targets.filter fun t => ok t.st).length
  let ok := fun (s : TgtState) => s == .complete || s == .verified
  let no := fun (s : TgtState) => s == .failed || s == .notarget
  if off = Reg.CAMP_STAT.STATE.off then
    some ((w &&& maskOf 15 12) + (if own then packed [(c.state, 0), (c.kind, 4), (c.round % 16, 6), (c.owner, 16)] else 0))
  else if off = Reg.CAMP_BLOCK.NEXT.off then
    some (if see then packed [(d.campNextBlock c % 2 ^ 16, 0), (c.total - 1, 16)] else 0)
  else if off = Reg.CAMP_DONE.TARGETS.off then some (if see then cnt ok else 0)
  else if off = Reg.CAMP_FAIL.TARGETS.off then some (if see then cnt no else 0)
  else if off = Reg.CAMP_PEND.TARGETS.off then some (if see then cnt (fun s => !ok s && !no s) else 0)
  else if off = Reg.CAMP_TX.FRAMES.off then some (if see then c.tx else 0)
  else if off = Reg.CAMP_QREF.REFUSED.off then some (if see then packed [(c.refused, 0), (c.expired, 16)] else 0)
  else if off = Reg.CAMP_VFAIL.VFAIL.off then some (if see then c.vfail else 0)
  else none

/-- SEATS and MEMORY (R302, R325). -/
def Dev.showSeats (d : Dev) (a : Arrays) (off i : Nat) : Option Nat :=
  let c := d.shownCfg
  let bank := d.rd Reg.MEM_BANK_SEL.BANK
  if off = Reg.SEAT_INFO.FLAGS.off then
    some (packed [(c.seatF i 0 1 % 8, 0), (c.seatVid i, 3), ((c.seatMbxs i).length, 15)])
  else if off = Reg.MEM_BANK_STAT.PSTATE.off then
    some (packed [(bankPstate a d bank, 0), (SMap.get (fun _ => 0) a.fused bank, 2), (SMap.get (fun _ => 0) a.soft bank, 5)])
  else none

/-- The word that entry `i` of a register shows to a seat, from copy `cp`; what the device computes as it is read goes before
what the register file holds. -/
def Dev.regShown (d : Dev) (a : Arrays) (n : Nat) (r : RegRow) (i cp : Nat) : Word :=
  let w := d.word (r.off + i * r.stride) cp
  let live := (d.showTime n r.off i).or <| (d.showSys n r.off i w.toNat).or <| (d.showPorts r.off i).or <|
    (d.showLedger n r.off i).or <| (d.showBalance n r.off).or <| (d.showCampaign n r.off w.toNat).or <| d.showSeats a r.off i
  match live with
  | some v => BitVec.ofNat 32 v
  | none => w

/-! ### Reads -/

/-- Does a read of a seat clear the read-clear fields of a row (R105, R125, R146, R174, R301, R387)? -/
def Dev.mayClear (d : Dev) (n : Nat) (r : RegRow) (i : Nat) : Bool :=
  match r.view with
  | .p => n == 0
  | .m => n == 0 || d.cfg.mbxSeat i == some n
  | .r => n == 0 || r.off / 0x10000 != 6
  | .o | .i | .z | .s => true

/-- What a permitted read clears: read-clear fields read zero again, ING_POOL.MIN takes FREE (R174), and the counters of the
selected campaign are cleared by its owner or by the house seat (R259). -/
def Dev.readClears (d : Dev) (n : Nat) (r : RegRow) (i cp : Nat) : Dev :=
  let off := r.off + i * r.stride
  let k := d.campSel n
  let may := d.campOwned n k || n == 0
  let onC := fun (g : CampSt → CampSt) => { d with camp := { d.camp with camps := SMap.upd (fun _ => {}) d.camp.camps k g } }
  if off = Reg.ING_POOL.MIN.off then d.wr Reg.ING_POOL.MIN (d.rd Reg.ING_POOL.FREE)
  else if off = Reg.CAMP_QREF.REFUSED.off then if may then onC fun c => { c with refused := 0, expired := 0 } else d
  else if off = Reg.CAMP_VFAIL.VFAIL.off then if may then onC fun c => { c with vfail := 0 } else d
  else if clearMask r.fields = 0 then d
  else d.setWord off cp (clearedWord r.fields (d.word off cp))

/-- A read of a register without latches of its own: the word shown, and then what the read clears (R9). -/
def Dev.readAt (d : Dev) (a : Arrays) (n : Nat) (r : RegRow) (i cp : Nat) : Dev :=
  let v := readWord r.fields (d.regShown a n r i cp)
  (if d.mayClear n r i then d.readClears n r i cp else d).answer v

/-- A read of a register by a seat at counter value `c`; some reads latch, release or request (R71, R82, R84, R282, R299). -/
def Dev.readReg (d : Dev) (a : Arrays) (n : Nat) (r : RegRow) (i cp c : Nat) : Dev :=
  if r.off = Reg.TIME_NS32.NS.off then d.timeNs32Read n c
  else if r.off = Reg.TIME_SEC_HI.SEC_HI.off then d.timeSecHiRead n
  else if r.off = Reg.TICK.TICK.off ∧ i = 0 then d.tickLoRead n c false
  else if r.off = Reg.TB_CNT.CNT.off ∧ i = 0 then d.tickLoRead n c true
  else if r.off = Reg.RTC_SEC_HI.SEC_HI.off then d.rtcSecHiRead n
  else if r.off = Reg.VAULT_CNT_LO.VALUE.off then d.vaultCntLoRead n
  else if r.off = Reg.MBX_LOCK.OWNER.off then d.mbxLock [.seat n] i
  else d.readAt a n r i cp

/-- A read of a register offset by a seat (R9, R20, R21). -/
def Dev.seatRead (d : Dev) (a : Arrays) (n off c : Nat) : Dev :=
  let d := d.advance c
  match d.spot n off with
  | .hidden | .shut => d.answer 0
  | .look r i cp | .reach r i cp => d.readReg a n r i cp c

/-! ### Writes -/

/-- A write by access types alone (R9). -/
def Dev.plainWrite (d : Dev) (r : RegRow) (i cp : Nat) (v : Word) : Dev :=
  let off := r.off + i * r.stride
  d.setWord off cp (writeWord r.fields (d.word off cp) v)

/-- Writes of TIME, EVENTS, MAILBOX and VAULT registers that do more than the access types say. -/
def Dev.writeSys (d : Dev) (n off i v c : Nat) : Option Dev :=
  if off = Reg.GLB_DEBUG_RST.LEVEL.off then some (d.debugReset c v false)
  else if off = Reg.CANVAS_CTL.STAGE.off then some (d.canvasCtl v)
  else if off = Reg.TIME_RATE.RATE.off then some (d.timeRateWrite c v)
  else if off = Reg.TIME_ADJ_CTL.STEP.off then some (d.timeAdjCtl c v)
  else if off = Reg.TIME_UTC_OFS.OFS.off then some (d.utcOfsWrite c v)
  else if off = Reg.TRIG_CTL.ARM.off then some (d.trigCtlWrite i v)
  else if off = Reg.TRIG_TICK.TICK.off then some (d.trigTickWrite i v)
  else if off = Reg.RTC_CTL.CAPTURE.off then some (d.rtcCtl c v)
  else if off = Reg.RTC_CURVE.PPM.off then some (d.rtcCurveWrite i v)
  else if off = Reg.EVT_SEL.VIEW.off then some (if n = 0 then d.wr Reg.EVT_SEL.VIEW v else d)
  else if off = Reg.EVT_CTL.FETCH.off then some (d.evtCtl n v)
  else if off = Reg.MBX_PEND.PEND.off then some (d.mbxPendWrite (.seat n) i v)
  else if off = Reg.MBX_MASK.MASK.off then some (d.mbxMaskWrite i v)
  else if off = Reg.VAULT_CTL.ENROL.off then some (d.vaultCtl n v)
  else none

/-- Writes of port, ingest, ledger, balance and campaign registers that do more than the access types say. -/
def Dev.writeWork (d : Dev) (n off i v : Nat) : Option Dev :=
  if off = Reg.FP_CTL.FLUSH.off then some (d.fpCtl i v)
  else if off = Reg.FP_GRP_RST.RELEASE.off then some (d.fpGrpRstWrite v)
  else if off = Reg.ING_HOLD.LOW.off then some (d.ingHoldWrite v)
  else if off = Reg.UPL_ACK.TAG.off then some (d.uplAck n (bitsOf v 15 0) (bitsOf v 17 16))
  else if off = Reg.UPL_RETX.TAG.off then some (d.uplRetx n (bitsOf v 15 0) (bitsOf v 17 16))
  else if off = Reg.LDG_RERATE_CTL.GO.off then
    let d := if bitOf v 2 then d.wr Reg.LDG_RERATE_CTL.REJ 0 0 n else d
    some (if bitOf v 0 then d.rerateGo n else d)
  else if off = Reg.LDG_SLOT_CTL.REINIT.off then some (if bitOf v 0 then d.slotReinit else d)
  else if off = Reg.LDG_FENCE.TAG.off then some (d.ldgFence n v)
  else if off = Reg.BAL_SLOT_CTL.REBASE.off then some (d.balCtl n v)
  else if off = Reg.CAMP_CTL.CREATE.off then some (d.campCtl n v)
  else none

/-- Writes of SEATS, MEMORY, CASCADE and UPDATE registers that do more than the access types say. `items` are the entries that
the host has put into ring 1 up to the pointer written (R290). -/
def Dev.writeSeats (d : Dev) (n off i v c : Nat) (items : List Bytes) : Option Dev :=
  if off = Reg.SEAT_CTL.L4.off then some (d.seatCtl i v)
  else if off = Reg.SEAT_RING_HOST_0.PTR.off then some (d.ringHostWrite i 0 v items)
  else if off = Reg.SEAT_RING_HOST_1.PTR.off then some (d.ringHostWrite i 1 v items)
  else if off = Reg.SEAT_RING_HOST_2.PTR.off then some (d.ringHostWrite i 2 v items)
  else if off = Reg.ADIR_CTL.OP.off then some (d.adirCtl n v)
  else if off = Reg.MEM_CTL.CLR_COLLIDE.off then some (d.clrCollide v)
  else if off = Reg.CAS_CTL.SWAP.off then some (d.casCtl c v)
  else if off = Reg.CAS_DIR_CTL.QUERY.off then some (if bitOf v 0 then d.dirQuery else d)
  else if off = Reg.UPD_CTL.STAGE.off then some (d.updCtl v)
  else none

/-- A write of entry `i`, copy `cp`, of a register that the seat reaches. A mailbox is rung and released by the number under
which the seat knows it, `k`. -/
def Dev.writeReg (d : Dev) (n : Nat) (r : RegRow) (k i cp : Nat) (v : Word) (c : Nat) (items : List Bytes) : Dev :=
  if r.off = Reg.MBX_DOORBELL.BIT.off then d.mbxDoorbell (.seat n) k v.toNat
  else if r.off = Reg.MBX_UNLOCK.REL.off then d.mbxUnlock (.seat n) k v.toNat
  else
    let act := (d.writeSys n r.off i v.toNat c).or <| (d.writeWork n r.off i v.toNat).or <|
      d.writeSeats n r.off i v.toNat c items
    match act with
    | some d => d
    | none => d.plainWrite r i cp v

/-- A write of a register offset by a seat at counter value `c` (R9, R20, R21). -/
def Dev.seatWrite (d : Dev) (n off : Nat) (v : Word) (c : Nat) (items : List Bytes) : Dev :=
  let d := d.advance c
  match d.spot n off with
  | .hidden => d.violate n
  | .shut => d
  | .look r _ _ => if writable r.fields then d.violate n else d
  | .reach r i cp => d.writeReg n r ((off - r.off) / r.stride) i cp v c items

/-! ### MSI-X (R284, R405) -/

/-- A vector of a function. -/
def Dev.msix (d : Dev) (n k : Nat) : Msix := SMap.get (fun _ => {}) (d.seat n).msix k

/-- A read in the MSI-X area of a function: the table's 32 entries of 16 bytes, then the pending bits. -/
def Dev.msixRead (d : Dev) (n off : Nat) : Nat :=
  if off < msixTable + 512 then
    let m := d.msix n ((off - msixTable) / 16)
    match (off - msixTable) / 4 % 4 with
    | 0 => m.addr % 2 ^ 32
    | 1 => m.addr / 2 ^ 32
    | 2 => m.data
    | _ => b2n m.masked
  else if off = msixPba then packed ((List.range 32).map fun k => (b2n (d.msix n k).pending, k))
  else 0

/-- A write in the MSI-X area: unmasking a pending vector sends its message. The pending bits are read-only; past the 32 entries and
the pending bits no register stands, and a write there is counted (R21). -/
def Dev.msixWrite (d : Dev) (n off v : Nat) : Dev :=
  if off = msixPba then d else if msixTable + 512 ≤ off then d.violate n else
  let k := (off - msixTable) / 16
  let m := d.msix n k
  let go := fun (x : Msix) => d.onSeat n fun s => { s with msix := SMap.set (fun _ => {}) s.msix k x }
  match (off - msixTable) / 4 % 4 with
  | 0 => go { m with addr := m.addr / 2 ^ 32 * 2 ^ 32 + v / 4 * 4 }
  | 1 => go { m with addr := m.addr % 2 ^ 32 + v * 2 ^ 32 }
  | 2 => go { m with data := v }
  | _ =>
    if bitOf v 0 then go { m with masked := true }
    else if m.pending then (go { m with masked := false, pending := false }).emit (.msix n k)
    else go { m with masked := false }

/-! ### Windows (R293) -/

/-- The slot at an index of a seat's ledger aperture. -/
def Dev.windowSlot (d : Dev) (n k : Nat) : Option Nat :=
  let j := 65536 * d.rd Reg.SEAT_WIN.LDG 0 n + k
  if j < d.cfg.seatCount n then some (d.cfg.seatFirst n + j) else none

/-- Four bytes of a history ring: entry `p` of the ring holds the evaluation whose number is `p` modulo the ring's depth. -/
def Dev.histWord (d : Dev) (node at0 : Nat) : Nat :=
  let s := d.node node
  let depth := d.cfg.hDepth
  let p := at0 / 32
  if depth ≤ p ∨ s.histN = 0 then 0 else
  u (s.hist.getD ((s.histN - 1 + depth - p) % depth) []) (at0 % 32) 4

/-- The use of a free value for a neighbour table entry, whose layout beyond the PHASE word no rule gives. -/
def useNeigh : Nat := 31

/-- The PHASE words of a port's neighbour table, entry by entry (R119): those of a radio port know no sector. -/
def Dev.phaseWords (d : Dev) (p : Nat) : List Nat :=
  if d.mode p == Canvas.mRADIO then (d.rad p).neigh.map fun _ => 0 else (d.plcSt p).neigh.map fun e => e.2.word

/-- Four bytes of a neighbour table (R119, R293). DESIGN CHOICE (log entry 26): entries of 32 bytes follow each other in order of
address, the place of the PHASE word in an entry is a constant that no rule gives, and every other bit is a free value. -/
def Dev.neighWord (d : Dev) (p x : Nat) : Nat :=
  let f := d.fresh useNeigh (2 ^ 32)
  let h := Config.phasePlace % 16
  match (d.phaseWords p)[x / 32]? with
  | none => f
  | some w =>
    if x % 32 / 4 ≠ h / 2 then f
    else if h % 2 = 0 then f / 2 ^ 16 * 2 ^ 16 + w else f % 2 ^ 16 + 2 ^ 16 * w

/-- A read of a window of a seat (R293). -/
def Dev.windowRead (d : Dev) (n w : Nat) : Dev :=
  match windowOf (d.cfg.seatMsgmem n) w with
  | .ledgers x => d.answer (match d.windowSlot n (x / 2048) with
    | some s => u ((d.ledger s).image s (d.owner s) (x % 2048 / 64)) (x % 64) 4
    | none => 0)
  | .keys x => d.answer (match d.windowSlot n (x / 64) with
    | some s => u (d.keyRec s) (x % 64) 4
    | none => 0)
  | .neighbours x =>
    let p := d.rd Reg.SEAT_WIN.PORT 0 n
    if n = 0 ∨ d.cfg.seatPort n p = true then (d.answer (d.neighWord p x)).took else d.answer 0
  | .history x =>
    let node := 256 * d.rd Reg.SEAT_WIN.NODE 0 n + x / 32768
    d.answer (if decide (node < d.cfg.nNode) && d.cfg.nodeSeat node == n then d.histWord node (x % 32768) else 0)
  | .messages x => d.answer (ofLe ((List.range 4).map fun j => SMap.get (fun _ => 0) (d.seat n).msgmem (x + j)))
  | .outside => d.answer 0

/-- A write to a window: message memory takes it, every other write is counted (R293, R294). -/
def Dev.windowWrite (d : Dev) (n w v : Nat) : Dev :=
  match windowOf (d.cfg.seatMsgmem n) w with
  | .messages x => d.onSeat n fun s => { s with
      msgmem := (leBytes 4 v).zipIdx.foldl (fun m b => SMap.set (fun _ => 0) m (x + b.2) b.1) s.msgmem }
  | _ => d.violate n

/-! ### Accesses over PCIe (R19, R284) -/

/-- An aligned 32-bit read by a function. -/
def Dev.pcieRead (d : Dev) (a : Arrays) (n off c : Nat) : Dev :=
  if !d.hasFunction n then d.answer 0
  else if bar2 ≤ off then (d.advance c).windowRead n (off - bar2)
  else if inMsix off then d.answer (d.msixRead n off)
  else d.seatRead a n off c

/-- An aligned 32-bit write by a function. -/
def Dev.pcieWrite (d : Dev) (n off : Nat) (v : Word) (c : Nat) (items : List Bytes) : Dev :=
  if !d.hasFunction n then d.violate n
  else if bar2 ≤ off then (d.advance c).windowWrite n (off - bar2) v.toNat
  else if inMsix off then d.msixWrite n off v.toNat
  else d.seatWrite n off v c items

/-- The mailbox register at an offset as the house cores and the vault core address it: by device number (R296). The rest of the
register space a house core reaches as the house seat does. -/
def coreMailbox (off : Nat) : Option (RegRow × Nat) :=
  match rowAt off with
  | some r => if r.view = .m then some (r, (off - r.off) / r.stride) else none
  | none => none

/-- A read by an agent. -/
def Dev.agentRead (d : Dev) (a : Arrays) (ag : Agent) (off c : Nat) : Dev :=
  match ag with
  | .seat n => d.pcieRead a n off c
  | _ =>
    match coreMailbox off with
    | some (r, m) => if r.off = Reg.MBX_LOCK.OWNER.off then d.mbxLock [ag] m else
        let v := readWord r.fields (d.regShown a 0 r m 0)
        (if d.receives ag m then d.readClears 0 r m 0 else d).answer v
    | none => match ag with
      | .core _ => d.seatRead a 0 off c
      | _ => d.answer 0

/-- A write by an agent. -/
def Dev.agentWrite (d : Dev) (ag : Agent) (off : Nat) (v : Word) (c : Nat) (items : List Bytes) : Dev :=
  match ag with
  | .seat n => d.pcieWrite n off v c items
  | _ =>
    match coreMailbox off with
    | some (r, m) =>
      if r.off = Reg.MBX_DOORBELL.BIT.off then d.mbxDoorbell ag m v.toNat
      else if r.off = Reg.MBX_UNLOCK.REL.off then d.mbxUnlock ag m v.toNat
      else if r.off = Reg.MBX_PEND.PEND.off then d.mbxPendWrite ag m v.toNat
      else if r.off = Reg.MBX_MASK.MASK.off then d.mbxMaskWrite m v.toNat
      else d.plainWrite r m 0 v
    | none => match ag with
      | .core _ => d.seatWrite 0 off v c items
      | _ => d

/-- A write of RTC_CTL or RTC_CURVE while the interface of the RTC is locked and the device quiesces (R83). -/
def Dev.lockedWrite (d : Dev) (off : Nat) : Dev :=
  if decide (d.sys.phase = .quiesced) && d.on Reg.RTC_STAT.LOCKED &&
      (off == Reg.RTC_CTL.CAPTURE.off || decide (Reg.RTC_CURVE.PPM.off ≤ off ∧ off < Reg.RTC_CURVE.PPM.off + 64)) then d.rtcLocked
  else d

/-- REG_ACCESS_MISALIGNED (R11): an access that is not 32 bits wide and aligned completes without effect and sets the ACCESS bit of
its block; a read returns 0xFFFF_FFFF. An aligned 64-bit access in the MSI-X area acts as two 32-bit ones. -/
def Dev.misaligned (d : Dev) (n off len : Nat) (wdata : Option Nat) : Dev :=
  if inMsix off ∧ len = 8 ∧ off % 8 = 0 then
    match wdata with
    | some v => (d.msixWrite n off (v % 2 ^ 32)).msixWrite n (off + 4) (v / 2 ^ 32)
    | none => (d.emit (.answer (16 + n) (d.msixRead n (off + 4)))).answer (d.msixRead n off)
  else if len = 4 ∧ off % 4 = 0 then d
  else
    let d := d.raise (accessSticky (if off < 0x200000 then off else 0x70000))
    if wdata.isSome then d else d.answer 0xFFFFFFFF

end Sys2Proof.Machine
end

