-- ==== Sys2Proof/Machine/Seats.lean ====
section
/-!
DEFINITION. Frames from the uplinks, register access datagrams, MGMT frames, reads of poisoned words, and sleeping lanes (R78,
R286 to R289, R309, R331, R332, R382).
-/

namespace Sys2Proof.Machine

/-! ### Frames on an uplink (R286, R288) -/

/-- The EtherType of a VLAN tag, and the VID that the tag carries. -/
def etVlan : Nat := 0x8100
def vidOf (b : Bytes) : Nat := ofBe (slice b 14 2) % 4096

/-- The ingress timestamp of a message whose timestamp point uplink `uu` passes at counter value `c` (R78). -/
def Dev.ingressTs (d : Dev) (uu c : Nat) : Nat :=
  wrapI 32 (d.cT c - Config.ptpLatency false + sgn 16 (d.rd Reg.PTP_CORR.RX uu))

/-- The receive descriptor of a frame (R288). -/
def rxDesc (len path : Nat) (ts : Option Nat) (vid : Nat) : Bytes :=
  leBytes 2 len ++ leBytes 1 path ++ leBytes 1 (if ts.isSome then 3 else 0) ++ leBytes 2 vid ++ zeros 2 ++
    leBytes 4 (ts.getD 0) ++ zeros 4

/-- An untagged frame goes to the house firmware behind its descriptor. -/
def Dev.houseRx (d : Dev) (uu c : Nat) (b : Bytes) : Dev :=
  let ts := if isPtpEvent b then some (d.ingressTs uu c) else none
  d.emit (.houseFrame (rxDesc b.length uu ts 0) b)

/-- Requests of a seat that may wait (R289). -/
def dgramCap : Nat := 16

/-- The header of a register access response (R289). -/
def dgramHead (status count tag off : Nat) : Bytes :=
  [0x48, 0x5A, 0x52, 0x41] ++ leBytes 1 1 ++ leBytes 1 3 ++ leBytes 1 status ++ [0] ++ leBytes 2 count ++ zeros 2 ++
    leBytes 4 tag ++ leBytes 4 off

/-- Answer a request, and keep the response with the request that it answers (R289). -/
def Dev.dgramReply (d : Dev) (n : Nat) (q : DgramReq) (status : Nat) (words : List Nat) : Dev :=
  let tag := u q.bytes 12 4
  let off := u q.bytes 16 4
  let resp := dgramHead status (u q.bytes 8 2) tag off ++ words.flatMap (leBytes 4)
  (d.onSeat n fun s => { s with
    dgramLast := some { tag, op := u q.bytes 5 1, off, count := u q.bytes 8 2, resp } }).emit (.regReply n q.path q.port resp)

/-- A register access request arrives: a seat whose CAK is 0 has none, and a seat with 16 waiting is busy (R289). -/
def Dev.dgramArrive (d : Dev) (n : Nat) (q : DgramReq) : Dev :=
  if d.cfg.seatCak n = 0 then d.violate n
  else if dgramCap ≤ (d.seat n).dgramWait.length then d.dgramReply n q 3 []
  else d.onSeat n fun s => { s with dgramWait := s.dgramWait ++ [q] }

/-- The UDP port of a seat's readouts; register access uses the next one (R283, R289, R291). -/
def Canvas.seatUdpRd (c : Canvas) (n : Nat) : Nat := c.seatF n 106 2

/-- A frame of a VLAN seat, MACsec taken off: a readout or a register access of its head end, or a frame for its services. -/
def Dev.seatRx (d : Dev) (n path : Nat) (b : Bytes) : Dev :=
  match udpOf (ofBe (slice b 16 2)) (b.drop 18) with
  | none => d.emit (.seatFrame n path b)
  | some x =>
    let rcd := d.cfg.seatF n
    let port := d.cfg.seatUdpRd n
    if ofLe x.src = rcd 72 16 ∧ ofLe x.dst = rcd 88 16 ∧ x.dport = port then
      d.onSeat n fun s => { s with readouts := s.readouts ++
        [{ path, sl := u x.payload 0 4, tag := u x.payload 4 4, apdu := x.payload.drop 8 }] }
    else if ofLe x.src = rcd 72 16 ∧ ofLe x.dst = rcd 88 16 ∧ x.dport = port + 1 then
      d.dgramArrive n { path, port := x.sport, bytes := x.payload }
    else d.emit (.seatFrame n path b)

/-- The provisioned VLAN seat of a VID. -/
def Canvas.seatOfVid (c : Canvas) (vid : Nat) : Option Nat := c.seats.find? fun n => c.seatVlan n && c.seatVid n == vid

/-- UPLINK_FRAME_RX (R286, R288): the frame `b`; `mac` is the frame without its SecTAG where it bears a valid one and its ICV
holds. -/
def Dev.uplinkFrameRx (d : Dev) (uu c : Nat) (b : Bytes) (mac : Option Bytes) : Dev :=
  let d := d.advance c
  let path := uu % 2
  if ofBe (slice b 12 2) ≠ etVlan then d.houseRx path c b else
  match d.cfg.seatOfVid (vidOf b) with
  | none => d.raise Stk.SEAT.VLAN_UNKNOWN
  | some n =>
    if d.cfg.seatCak n = 0 then d.seatRx n path b else
    match mac with
    | some f => d.seatRx n path f
    | none => d.raise Stk.SEAT.MACSEC_DROP

/-! ### Register access datagrams (R289) -/

/-- The greatest offset of the register address space, exclusive. -/
def regSpace : Nat := 0x01000000

/-- Is a request well-formed? -/
def dgramOk (b : Bytes) : Bool :=
  let op := u b 5 1
  let count := u b 8 2
  decide (20 ≤ b.length ∧ slice b 0 4 = [0x48, 0x5A, 0x52, 0x41] ∧ u b 4 1 = 1 ∧ 1 ≤ count ∧ count ≤ 64 ∧
    ((op = 1 ∧ b.length = 20) ∨ (op = 2 ∧ b.length = 20 + 4 * count)) ∧ u b 6 2 = 0 ∧ u b 10 2 = 0)

/-- One word of a request that reads. -/
def Dev.dgramRead (d : Dev) (a : Arrays) (n off c : Nat) : Dev :=
  if off % 4 = 0 then d.seatRead a n off c else d.misaligned n off 4 none

/-- One word of a request that writes. -/
def Dev.dgramWrite (d : Dev) (n off : Nat) (v : Word) (c : Nat) : Dev :=
  if off % 4 = 0 then d.seatWrite n off v c [] else d.misaligned n off 4 (some v.toNat)

/-- Perform the accesses of a request and answer it. -/
def Dev.dgramServe (d : Dev) (a : Arrays) (n c : Nat) (q : DgramReq) : Dev :=
  let off := u q.bytes 16 4
  let count := u q.bytes 8 2
  if !dgramOk q.bytes then d.dgramReply n q 1 []
  else if regSpace < off + 4 * count then d.dgramReply n q 2 []
  else if u q.bytes 5 1 = 1 then
    let r := (List.range count).foldl (fun (p : Dev × List Nat) i =>
      let d := p.1.dgramRead a n (off + 4 * i) c
      (d, p.2 ++ [d.rdata.toNat])) (d, [])
    r.1.dgramReply n q 0 r.2
  else
    let d := (List.range count).foldl (fun d i =>
      d.dgramWrite n (off + 4 * i) (BitVec.ofNat 32 (u q.bytes (20 + 4 * i) 4)) c) d
    d.dgramReply n q 0 []

/-- Is a request a repeat of the one whose response is kept? -/
def DgramLast.repeats (l : DgramLast) (b : Bytes) : Bool :=
  l.tag == u b 12 4 && l.op == u b 5 1 && l.off == u b 16 4 && l.count == u b 8 2

/-- REG_ACCESS_DATAGRAM (R289): the oldest waiting request of a seat is served. -/
def Dev.regDatagram (d : Dev) (a : Arrays) (n c : Nat) : Dev :=
  match (d.seat n).dgramWait with
  | [] => d
  | q :: rest =>
    let d := d.onSeat n fun s => { s with dgramWait := rest }
    match (d.seat n).dgramLast with
    | some l => if l.repeats q.bytes then d.emit (.regReply n q.path q.port l.resp) else d.dgramServe a n c q
    | none => d.dgramServe a n c q

/-! ### MGMT (R331, R332) -/

/-- Does a MGMT read or write reach an offset: GLOBAL, CANVAS, EVENTS and CASCADE (R332)? -/
def mgmtBlock (off : Nat) : Bool := [0x0, 0x1, 0x3, 0x1C, 0x1D].contains (off / 0x10000)

/-- What a register shows seat 0, without the effects of a read. -/
def Dev.shown0 (d : Dev) (a : Arrays) (off : Nat) : Nat :=
  match d.spot 0 off with
  | .look r i cp | .reach r i cp => readWord r.fields (d.regShown a 0 r i cp)
  | _ => 0

/-- Perform a MGMT read or write: the value read. -/
def Dev.mgmtAccess (d : Dev) (a : Arrays) (c op off v : Nat) : Dev × Nat :=
  if !mgmtBlock off then (d, 0)
  else if op = 1 then
    let d := d.dgramRead a 0 off c
    (d, d.rdata.toNat)
  else
    let d := d.dgramWrite 0 off (BitVec.ofNat 32 v) c
    (d, d.shown0 a off)

/-- The use of a free value for the OP of an answer, which no rule gives. -/
def useMgmtOp : Nat := 32

/-- The payload of an answer, before its MAC. -/
def Dev.mgmtAnswer (d : Dev) (off v : Nat) : Bytes :=
  leBytes 1 (d.fresh useMgmtOp 256) ++ leBytes 4 off ++ leBytes 4 v ++ leBytes 8 d.time.tick

/-- A MGMT frame on a deal link. -/
def Dev.mgmtDeal (d : Dev) (a : Arrays) (c : Nat) (b : Bytes) : Dev :=
  if u b 0 1 ≠ tyMGMT ∨ ¬ (u b 5 1 = d.pos ∨ u b 5 1 = 0xFF) then d else
  d.authTake b fun d body =>
    let op := mgmtOp body
    if body.length ≠ 17 then d
    else if op = 3 then (if d.dealerPos = some (u b 4 1) then d.cmdReset c 9 (mgmtVal body) else d)
    else if op = 1 ∨ op = 2 then
      let (d, v) := d.mgmtAccess a c op (mgmtOff body) (mgmtVal body)
      (d.dealSend tyMGMT (u b 4 1) true (d.mgmtAnswer (mgmtOff body) v)).took
    else d

/-- The TYPE of a MGMT frame on the rail carrier (R121). -/
def railMGMT : Nat := 3

/-- The MAC of a MGMT frame on the rail carrier: over body bytes 0 to 11 and the payload before it (R331). -/
def railMac (key f : Bytes) : Bytes := frameMac key (slice f 0 29)

/-- Queue an authenticated MGMT frame for the rail carrier. -/
def Dev.railMgmtSend (d : Dev) (dst : Nat) (payload key : Bytes) : Dev :=
  let flags := d.side + 2 * b2n (dst != 0xFF) + 4 * d.rd Reg.CAS_STAT.DEALER
  let f := railFrame railMGMT d.railPos flags dst d.rail.seq d.rail.nonce (payload ++ zeros 16)
  d.railEnqueue railMGMT dst (payload ++ railMac key f) true

/-- A MGMT frame on the rail carrier. Before its first SYNC the device answers reads only. -/
def Dev.mgmtRail (d : Dev) (a : Arrays) (c : Nat) (b : Bytes) : Dev :=
  let src := u b 2 1
  let dst := u b 4 1
  let body := slice b 12 17
  if u b 0 1 ≠ 0x10 + railMGMT ∨ u b 1 1 ≠ 33 ∨ ¬ (dst = d.railPos ∨ dst = 0xFF) then d else
  let key := authKey true railMGMT src (u b 3 1 % 2)
  let op := mgmtOp body
  match d.casSecret 3 with
  | none => d.raise Stk.CAS.MGMT_AUTH
  | some secret =>
    if railMac secret b ≠ slice b 29 16 ∨ d.authFresh key (u body 9 8) (u b 5 1) = false then d.raise Stk.CAS.MGMT_AUTH
    else
      let d := d.authKeep key (u body 9 8) (u b 5 1)
      if op ≠ 1 ∧ d.cas.synced = false then d
      else if op = 3 then (if d.dealerPos = some src then d.cmdReset c 9 (mgmtVal body) else d)
      else if op = 1 ∨ op = 2 then
        let (d, v) := d.mgmtAccess a c op (mgmtOff body) (mgmtVal body)
        (d.railMgmtSend src (d.mgmtAnswer (mgmtOff body) v) secret).took
      else d

/-- MGMT (R331, R332): an authenticated read, write or reset, on the rail carrier or on a deal link. -/
def Dev.mgmt (d : Dev) (a : Arrays) (rail : Bool) (c : Nat) (b : Bytes) : Dev :=
  if !d.inCascade then d
  else if rail then d.mgmtRail a c b
  else d.mgmtDeal a c b

/-! ### Poisoned words (R309) -/

/-- POISON_READ: each reader handles the mark in its own way. -/
def Dev.poisonRead (d : Dev) (r : PoisonReader) : Dev :=
  match r with
  | .ledger slot _ => if d.isHeld slot || (d.ledger slot).st == 3 then d else d.enterRepair slot
  | .keyLine slot => d.dropLine slot
  | .pool i => { d with pool := { d.pool with plains := d.pool.plains.modify i fun p => { p with poisoned := true } } }
  | .core i => d.emit (.coreFault i)
  | .pcie n => d.emit (.pcieEp n)

/-! ### Lanes (R382) -/

/-- A lane sleeps after this long without traffic, in ns. -/
def laneIdleNs : Nat := 1000000

/-- LANE_SLEEP: at counter value `c` the lane carries traffic and is awake, or it has been idle and sleeps after 1 ms. -/
def Dev.laneSleep (d : Dev) (lane c : Nat) (traffic : Bool) : Dev :=
  let d := d.advance c
  if traffic then
    { d with sys := { d.sys with
      asleep := d.sys.asleep.filter (· != lane), laneUse := SMap.set (fun _ => 0) d.sys.laneUse lane d.time.cnt } }
  else if d.sys.asleep.contains lane then d
  else if SMap.get (fun _ => 0) d.sys.laneUse lane + laneIdleNs ≤ d.time.cnt then
    { d with sys := { d.sys with asleep := d.sys.asleep ++ [lane] } }
  else d

end Sys2Proof.Machine
end

