-- ==== Sys2Proof/Machine/State.lean ====
section
/-!
DEFINITION. The state of the machine, the two ways in which a step can stop, and the machine right after reset.
-/

namespace Sys2Proof.Machine

/-- The HZ9240: the commands that wait, first in first out, its addressed memories, and the rest of the device. -/
structure State where
  pending : List Instr := []
  arr : Arrays := {}
  dev : Dev := {}
  deriving DecidableEq, Repr

/-- Why the machine stops. -/
inductive Fault where
  /-- Raised by SRAM_ACCESS, SRAM_ATOMIC, PARTIAL_WRITE and PATROL_SCRUB for an address outside the 128 MiB of SRAM (R304). Safe:
  nothing is said of an address that does not exist. -/
  | sramRange
  /-- Raised by PARTIAL_WRITE and DRAM_SCRUB for an address outside the 16 GiB of DRAM (R313). Safe, as sramRange is. -/
  | dramRange
  deriving DecidableEq, Repr

/-- Why a command is not taken. -/
inductive Refusal where
  /-- Raised by the arm of a command that has no meaning yet; no arm raises it. Safe. -/
  | notModelled (mnemonic : String)
  /-- Raised by every meaning for an operand that names nothing the device has: a seat, port, engine, slot, mailbox or link that
  does not exist, or a value that does not fit its field. Safe: such a command cannot be given. -/
  | operandRange
  deriving DecidableEq, Repr

/-- The effective reset map in the compact column, as L0 leaves it (R365, R367): entry i holds the level of source i twice. -/
def resetMapCompact : SMap Word :=
  [(0x44, 0x11), (0x48, 0x11), (0x4C, 0x11), (0x50, 0x11), (0x54, 0x11), (0x58, 0x44), (0x5C, 0x22), (0x60, 0x44), (0x64, 0x44),
   (0x68, 0x11)]

/-- Power cycle 1: counter 3 of the vault, advanced at L0 (R277). -/
def firstCycle : SMap Counter := [(3, { lo1 := { st := .good, value := 1 } })]

/-- The machine right after the power-on reset of a device that has never run: every register at its L0 value (R12), except the
effective reset map; all memory as nothing has written it; no command waits. It leaves reset with DEVICE_START (R338). -/
def State.reset : State :=
  { dev := { regs := resetMapCompact, vault := { counters := firstCycle }, sys := { phase := .inReset } } }

end Sys2Proof.Machine
end

