-- ==== Sys2Proof/WellFormed.lean ====
section
/-!
DEFINITION. Which commands name something that the device has: a seat, port, engine, slot, mailbox or link that exists, and
values that fit the registers and fields they stand in. A command that does not is refused by name (log entry 1).
-/

namespace Sys2Proof

/-- House cores 0 to 7, the vault core, the device, seats 0 to 63 (R14, R296). -/
def Agent.ok : Agent → Bool
  | .core i => decide (i < 8)
  | .vault | .device => true
  | .seat n => decide (n < 64)

/-- Sixteen groups of ports and four quads (R101). -/
def Tier.ok : Tier → Bool
  | .port g => decide (g < 16)
  | .group q => decide (q < 4)
  | .ingress => true

/-- One PPS input, four tamper inputs, and a radio IRQ per port (R103). -/
def EdgeIn.ok : EdgeIn → Bool
  | .pps => true
  | .tamper k => decide (k < 4)
  | .irq p => decide (p < 256)

/-- The march test covers 256 banks (R304, R312), and the strap is sampled three times (R376). -/
def StartIn.ok (i : StartIn) : Bool := decide (i.strap.length = 3) && i.banks.all fun b => decide (b.bank < 256)

/-- Four deal links and two partner lanes (R326). -/
def LinkId.ok : LinkId → Bool
  | .deal k => decide (k < 4)
  | .lane l => decide (l < 2)

/-- A seat's turn on one of three paths, or a frame on one of two uplinks (R286, R287). -/
def UpSend.ok : UpSend → Bool
  | .records n path _ => decide (n < 64 ∧ path < 3)
  | .house k _ _ => decide (k < 2)

/-- An access of one of 64 requesters; a write stays inside one word of eight bytes (R304, R305). -/
def MemReq.ok (r : MemReq) : Bool :=
  decide (r.req < 64) && (match r.wdata with
    | some bs => decide (1 ≤ bs.length ∧ r.addr % 8 + bs.length ≤ 8)
    | none => true)

/-- Is a command well-formed? -/
def Instr.wf : Instr → Bool
  | .powerOn _ => true
  | .deviceStart start => start.ok
  | .ftlMapLoadDone => true
  | .ftlMapRebuildDone _ => true
  | .ledgerRestore bad badKeys _ => (bad.all fun b => decide (b.1 < 2 ^ 20 ∧ b.2 < 32)) && badKeys.all fun s => decide (s < 2 ^ 20)
  | .brownOut _ _ => true
  | .vinSurge vin => decide (vin < 2 ^ 16)
  | .vinLow vin => decide (vin < 2 ^ 16)
  | .vinReversal => true
  | .resetNAssert _ => true
  | .resetNRelease => true
  | .resetNStuck => true
  | .resetNUnstuck => true
  | .houseWdog _ => true
  | .tickWdog _ => true
  | .debugReset _ v _ => decide (v < 2 ^ 32)
  | .resetProper _ => true
  | .warmReturn => true
  | .l3Reset _ source => decide (source ≤ 10)
  | .thermSample temps => decide (temps ≠ [])
  | .thermalShutdown _ => true
  | .thermalRestart => true
  | .xtalStop _ => true
  | .regWrite ag off _ _ _ => ag.ok && decide (off % 4 = 0)
  | .regAccessMisaligned n off len _ => decide (n < 64 ∧ off < 2 ^ 24 ∧ (len = 1 ∨ len = 2 ∨ len = 4 ∨ len = 8))
  | .readClear ag off _ => ag.ok && decide (off % 4 = 0)
  | .timeNs32Read n _ => decide (n < 64)
  | .timeSecHiRead n => decide (n < 64)
  | .tickLoRead n _ _ => decide (n < 64)
  | .vaultCntLoRead n => decide (n < 64)
  | .rtcSecHiRead n => decide (n < 64)
  | .tickBoundary _ => true
  | .journalCommit => true
  | .fenceComplete n => decide (n < 64)
  | .uplinkFenceMarker n path => decide (n < 64 ∧ path < 3)
  | .decodeApdu _ _ _ => true
  | .apduUnpark e => decide (e < 16)
  | .applyRecord e _ bad _ => decide (e < 16) && bad.all fun b => decide (b < 32)
  | .sweepClose slot _ => decide (slot < 2 ^ 20)
  | .catchupClose e _ => decide (e < 16)
  | .slotRepairDone slot _ => decide (slot < 2 ^ 20)
  | .slotRepairTimeout slot => decide (slot < 2 ^ 20)
  | .ldgSlotReinit => true
  | .shadowExecute _ _ => true
  | .shadowCorrectionInstall slot => decide (slot < 2 ^ 20)
  | .ldgFence n v => decide (n < 64 ∧ v < 2 ^ 32)
  | .ldgRerateGo n => decide (n < 64)
  | .rerateOrderApply e _ => decide (e < 16)
  | .billingCloseAction n slot => decide (n < 64 ∧ slot < 2 ^ 20)
  | .billingOrderApply e _ => decide (e < 16)
  | .readoutRequest n => decide (n < 64)
  | .timeStep _ => true
  | .timeStepApply => true
  | .timeSlew _ ppm => decide (ppm < 2 ^ 16)
  | .slewDone _ => true
  | .timeDiscipline _ src => decide (src < 8)
  | .timeRateWrite _ v => decide (v < 2 ^ 32)
  | .holdoverExpire => true
  | .leapSecond _ => true
  | .ppsEdge _ => true
  | .ppsLoss _ => true
  | .trigArm i v => decide (i < 8 ∧ v < 2 ^ 32)
  | .trigTickWrite i v => decide (i < 8 ∧ v < 2 ^ 32)
  | .trigFire i => decide (i < 8)
  | .rtcCheck _ => true
  | .rtcCompensate _ _ _ => true
  | .rtcCapture _ => true
  | .rtcCurveSave => true
  | .operatingHour _ => true
  | .frameIngest p _ _ => decide (p < 256)
  | .arbiterRound t => t.ok
  | .frameToPool _ => true
  | .fifoPtrMismatch p => decide (p < 256)
  | .portShort p => decide (p.port < 256)
  | .portOpen p => decide (p < 256)
  | .rxPairReversed p => decide (p < 256)
  | .portRetry p => decide (p < 256)
  | .portFlush p => decide (p < 256)
  | .fieldlinkAutoneg p _ => decide (p < 256)
  | .pauseRx p _ opcode quanta => decide (p < 256 ∧ opcode < 2 ^ 16 ∧ quanta < 2 ^ 16)
  | .pauseRelease p => decide (p < 256)
  | .edgeInput e _ _ _ => e.ok
  | .edgeSettle e _ => e.ok
  | .irqStuck p _ => decide (p < 256)
  | .irqPoll p => decide (p < 256)
  | .irqUnstuck p _ => decide (p < 256)
  | .fpGrpRstWrite v => decide (v < 2 ^ 32)
  | .afeSampleBlock p chars _ => decide (p < 256 ∧ chars.length = 133)
  | .plcOverload p x => decide (p < 256 ∧ x.first < 2 ^ 32 ∧ x.second < 2 ^ 32)
  | .afeStatusBlock p chars => decide (p < 256 ∧ chars.length = 9)
  | .afeLockLoss p _ => decide (p < 256)
  | .plcFrameRx p sender _ _ => decide (p < 256 ∧ sender < 2 ^ 64)
  | .plcJoinRequest r => decide (r.port < 256 ∧ r.eui < 2 ^ 64)
  | .railFrameSend _ _ => true
  | .railFrameRx _ _ => true
  | .railAckTimeout => true
  | .railImpulse _ _ => true
  | .railPilot _ => true
  | .beacon p => decide (p < 256)
  | .radioFrameRx p _ _ _ _ _ => decide (p < 256)
  | .dataRequest p _ _ _ _ _ => decide (p < 256)
  | .indirectTx p _ => decide (p < 256)
  | .indirectExpire p => decide (p < 256)
  | .associationRequest p r => decide (p < 256 ∧ r.eui < 2 ^ 64)
  | .gtsRequest p r => decide (p < 256) && r.reqs.all fun x => decide (x.1.src < 2 ^ 16 ∧ x.2.len < 16)
  | .grantRaise _ => true
  | .grantPeerRise _ => true
  | .grantPeerFall _ => true
  | .partnerPsdu p _ _ _ => decide (p < 256)
  | .reassembleFragment _ => true
  | .reasmTimeout => true
  | .cipherDecrypt _ => true
  | .cipherEncrypt slot port sys _ => decide (slot < 2 ^ 20 ∧ port < 256 ∧ sys.length = 8)
  | .uplinkSend w => w.ok
  | .uplAck n tag path => decide (n < 64 ∧ tag < 2 ^ 16 ∧ path < 4)
  | .uplRetx n tag path => decide (n < 64 ∧ tag < 2 ^ 16 ∧ path < 4)
  | .uplRetxDone n => decide (n < 64)
  | .uplinkFrameRx uplink _ frame _ => decide (uplink < 2 ∧ 14 ≤ frame.length)
  | .regAccessDatagram n _ => decide (n < 64)
  | .ringHostPtrWrite n r v _ => decide (n < 64 ∧ r < 3 ∧ v < 2 ^ 32)
  | .adirInsert n => decide (n < 64)
  | .adirDelete n => decide (n < 64)
  | .adirLookup n => decide (n < 64)
  | .vfFlr n => decide (1 ≤ n ∧ n < 64)
  | .pfFlr => true
  | .seatL4 n => decide (n < 64)
  | .seatReopen n => decide (n < 64)
  | .mbxDoorbell ag m v => ag.ok && decide (m < 64 ∧ v < 2 ^ 32)
  | .doorbellNoticeVisible ag => ag.ok
  | .mbxLock ags m => ags.all Agent.ok && decide (m < 64)
  | .mbxUnlock ag m v => ag.ok && decide (m < 64 ∧ v < 2 ^ 32)
  | .doorbellAged m => decide (m < 64)
  | .lockTimeout m => decide (m < 64)
  | .sramAccess _ reqs _ => reqs.all MemReq.ok
  | .sramAtomic _ req addr n _ _ _ => decide (req < 64 ∧ (n = 4 ∨ n = 8) ∧ addr % n = 0)
  | .partialWrite _ addr bs _ => decide (1 ≤ bs.length ∧ addr % 8 + bs.length < 9 ∧ bs.length < 8)
  | .poisonRead _ => true
  | .patrolScrub _ _ => true
  | .dramScrub _ _ => true
  | .bankRetention _ bank => decide (bank < 256)
  | .memClrCollide v => decide (v < 2 ^ 32)
  | .checkpointPassDone => true
  | .fold => true
  | .garbageCollect stream => decide (stream < 4)
  | .wearLevelMove => true
  | .nandProgramFail _ => true
  | .nandRefresh _ _ => true
  | .canvasStage mode => decide (mode < 2)
  | .canvasFetchDone _ => true
  | .canvasCheckDone => true
  | .canvasStaged => true
  | .partnerCanvas _ => true
  | .partnerValidationReport code => decide (code < 2 ^ 16)
  | .canvasArm => true
  | .canvasApplyAbandon => true
  | .canvasApply => true
  | .canvasCommit => true
  | .canvasReload _ => true
  | .canvasCancel => true
  | .canvasCtlConflict v => decide (v < 2 ^ 32)
  | .campCreate n => decide (n < 64)
  | .campFetchDone _ _ => true
  | .campStart n _ => decide (n < 64)
  | .campPause n => decide (n < 64)
  | .campResume n => decide (n < 64)
  | .campAbort n => decide (n < 64)
  | .campRelease n => decide (n < 64)
  | .campTxSlot p sys _ _ _ => decide (p < 256 ∧ sys.length = 8)
  | .campResponse _ slot _ => decide (slot < 2 ^ 20)
  | .campAttemptTimeout _ slot => decide (slot < 2 ^ 20)
  | .vaultEnrol n _ => decide (n < 64)
  | .vaultZeroise n zkey => decide (n < 64 ∧ zkey < 2 ^ 16)
  | .vaultSubmit n => decide (n < 64)
  | .vaultMsgCheck _ => true
  | .vaultPut _ => true
  | .vaultReplace _ => true
  | .vaultDestroy _ => true
  | .vaultDerive _ => true
  | .meterKey _ => true
  | .orphanSweepDone => true
  | .vaultChal n => decide (n < 64)
  | .vaultExport n => decide (n < 64)
  | .linkHello l _ => l.ok
  | .linkDelayMeasure l _ => l.ok
  | .dealFrameForward k _ => decide (k < 4)
  | .discover x => decide (x.side < 2)
  | .elect pos side _ => decide (pos < 40 ∧ side < 2)
  | .dealer m => decide (m.pos < 40 ∧ m.side < 2)
  | .mgmt _ _ _ => true
  | .electionListenExpire _ => true
  | .discoverSend _ => true
  | .discoverEnd _ => true
  | .electWaitExpire _ => true
  | .dealerAnnounce _ => true
  | .sync k _ _ _ _ => decide (k < 6)
  | .syncLoss => true
  | .syncReelect _ => true
  | .alignFault => true
  | .casRenumber _ => true
  | .dir _ => true
  | .casDirQuery => true
  | .dirAnswer title _ => decide (title < 2 ^ 64)
  | .check m => decide (m.pos < 40 ∧ m.side < 2)
  | .checkAnswer code => decide (code < 2 ^ 16)
  | .partialIn _ => true
  | .spanEvalTimeout => true
  | .result _ => true
  | .nodeEvaluate x => decide (x.seat < 64)
  | .balRebase n => decide (n < 64)
  | .balResetTrack n => decide (n < 64)
  | .trackerOrderApply e _ => decide (e < 16)
  | .health m => decide (m.pos < 40 ∧ m.side < 2)
  | .healthSend => true
  | .positionLost p => decide (p < 40)
  | .pairing _ _ => true
  | .heartbeat _ => true
  | .takeover => true
  | .takeoverNotice k _ => decide (k < 6)
  | .roleRelinquish => true
  | .package _ => true
  | .shadowLeftover => true
  | .bulk _ _ => true
  | .resyncDone => true
  | .resyncTimeout => true
  | .casSwap => true
  | .roleSwap => true
  | .casReset _ _ => true
  | .updStage _ => true
  | .updStageDone _ => true
  | .engineMicrocodeSwap e => decide (e < 16)
  | .updRestart _ => true
  | .updRevert _ => true
  | .trialDeadline _ => true
  | .evtFetch n => decide (n < 64)
  | .evtFetchDone n _ => decide (n < 64)
  | .characterLock p => decide (p < 256)
  | .blockLockLoss l => l.ok
  | .dramPowerDown _ ch => decide (ch < 4)
  | .laneSleep lane _ _ => decide (lane < 16)
  | .updArm => true
  | .updActivate => true
  | .microcodeSwapDone => true
  | .updCancel => true
  | .updHealthy => true
  | .updConfirm => true
  | .eventFlush => true
  | .eventSummary => true
  | .evtInject => true

end Sys2Proof
end

