-- ==== Sys2Proof/Machine/Act.lean ====
section
/-!
DEFINITION. How a command acts on the state: an ill-formed one is refused; a well-formed one acts on the device, on the device
with its memories, or on the device with its memories to read.
-/

namespace Sys2Proof.Machine

/-! ### When the device takes a command -/

/-- Out of reset, the device acts; otherwise nothing happens (R370, R371, R378). -/
def Dev.whenUp (d : Dev) (g : Dev → Dev) : Dev := if d.sys.phase = .up then g d else d

/-- As `whenUp`; while the device quiesces only the lock of the RTC acts (R83). -/
def Dev.whenRtc (d : Dev) (off : Nat) (g : Dev → Dev) : Dev := if d.sys.phase = .up then g d else d.lockedWrite off

/-- Seats are open, so that the ledger engines work (R338, R340). -/
def Dev.whenOpen (d : Dev) (g : Dev → Dev) : Dev := if d.sys.phase = .up ∧ d.step = 0 then g d else d

/-- As `whenUp`, with the memories. -/
def Dev.arraysUp (g : Arrays × Dev → Arrays × Dev) (p : Arrays × Dev) : Arrays × Dev :=
  if p.2.sys.phase = .up then g p else p

/-! ### Commands on the state -/

/-- A command that acts on the device. -/
def act (s : State) (i : Instr) (g : Dev → Dev) : Host.Outcome State Fault Refusal :=
  if i.wf then .next { s with dev := g s.dev } else .refused .operandRange

/-- A command that acts on the device and reads the memories. -/
def actRead (s : State) (i : Instr) (g : Arrays → Dev → Dev) : Host.Outcome State Fault Refusal :=
  if i.wf then .next { s with dev := g s.arr s.dev } else .refused .operandRange

/-- A command that acts on the device and the memories. -/
def actArrays (s : State) (i : Instr) (g : Arrays × Dev → Arrays × Dev) : Host.Outcome State Fault Refusal :=
  if i.wf then .next { s with arr := (g (s.arr, s.dev)).1, dev := (g (s.arr, s.dev)).2 } else .refused .operandRange

/-- A command on an address of a memory: an address that does not exist is a fault. -/
def actMemory (s : State) (i : Instr) (f : Fault) (ok : Bool) (g : Arrays × Dev → Arrays × Dev) :
    Host.Outcome State Fault Refusal :=
  if ok then actArrays s i g else if i.wf then .fault f else .refused .operandRange

/-- The size of a memory in bytes (R304, R313). -/
def memBytes : MemSel → Nat
  | .sram => 2 ^ 27
  | .dram => 2 ^ 34

/-- The fault of an address outside a memory. -/
def memFault : MemSel → Fault
  | .sram => .sramRange
  | .dram => .dramRange

end Sys2Proof.Machine
end

