-- ==== Sys2Proof/Machine/ExecBalanceCmds.lean ====
section
/-!
DEFINITION. The meanings of the commands of the balance engine: each takes the state and answers the next one.
-/

namespace Sys2Proof.Machine

/-- PARTIAL (R244): The dealer collects a partial and evaluates the node when NPART partials have arrived. -/
def execPartialIn (bs : Bytes) (s : State) : Host.Outcome State Fault Refusal :=
  act s (.partialIn bs) fun d => d.whenUp fun d => d.partialIn bs

/-- SPAN_EVAL_TIMEOUT (R244): XWAIT passes after the first partial and the dealer evaluates INCOMPLETE. -/
def execSpanEvalTimeout (s : State) : Host.Outcome State Fault Refusal :=
  act s .spanEvalTimeout fun d => d.whenUp fun d => d.spanTimeout

/-- RESULT (R244): A position writes the dealer's spanning result into its history and applies the alarm rule. -/
def execResult (bs : Bytes) (s : State) : Host.Outcome State Fault Refusal :=
  act s (.result bs) fun d => d.whenUp fun d => d.result bs

/-- NODE_EVALUATE (R232): The balance engine evaluates a boundary's nodes, writes history entries and sends partials. -/
def execNodeEvaluate (x : NodeTurn) (s : State) : Host.Outcome State Fault Refusal :=
  act s (.nodeEvaluate x) fun d => d.whenUp fun d => d.nodeEvaluate x.seat x.cost

/-- BAL_REBASE (R242): REBASE admits a rebase order for the selected slot. -/
def execBalRebase (n : Nat) (s : State) : Host.Outcome State Fault Refusal :=
  act s (.balRebase n) fun d => d.whenUp fun d => d.balRebase n

/-- BAL_RESET_TRACK (R242): RESET_TRACK admits a tracker reset order for the selected slot. -/
def execBalResetTrack (n : Nat) (s : State) : Host.Outcome State Fault Refusal :=
  act s (.balResetTrack n) fun d => d.whenUp fun d => d.balReset n

/-- TRACKER_ORDER_APPLY (R242): A rebase or tracker reset order is applied in sequence. -/
def execTrackerOrderApply (e : Nat) (cost : Nat) (s : State) : Host.Outcome State Fault Refusal :=
  act s (.trackerOrderApply e cost) fun d => d.whenOpen fun d => d.trackerApply e cost

end Sys2Proof.Machine
end

