-- ==== Sys2Proof/Machine/ExecCampaignCmds.lean ====
section
/-!
DEFINITION. The meanings of the commands of campaigns: each takes the state and answers the next one.
-/

namespace Sys2Proof.Machine

/-- CAMP_CREATE (R248): CREATE fetches a campaign body into DRAM and NAND, or is refused. -/
def execCampCreate (n : Nat) (s : State) : Host.Outcome State Fault Refusal :=
  act s (.campCreate n) fun d => d.whenUp fun d => d.campCreate n

/-- CAMP_FETCH_DONE (R249): The campaign body is in place and the campaign is READY, or creation is refused with a reason. -/
def execCampFetchDone (i : Nat) (body : Option Bytes) (s : State) : Host.Outcome State Fault Refusal :=
  act s (.campFetchDone i body) fun d => d.whenUp fun d => d.campFetchDone i body

/-- CAMP_START (R256): START moves a READY campaign into its first phase. -/
def execCampStart (n : Nat) (seen : ImgSeen) (s : State) : Host.Outcome State Fault Refusal :=
  act s (.campStart n seen) fun d => d.whenUp fun d => d.campStart n seen

/-- CAMP_PAUSE (R256): PAUSE stops new campaign frames. -/
def execCampPause (n : Nat) (s : State) : Host.Outcome State Fault Refusal :=
  act s (.campPause n) fun d => d.whenUp fun d => d.campPause n

/-- CAMP_RESUME (R256): RESUME continues the paused phase at the step it reached. -/
def execCampResume (n : Nat) (s : State) : Host.Outcome State Fault Refusal :=
  act s (.campResume n) fun d => d.whenUp fun d => d.campResume n

/-- CAMP_ABORT (R256): ABORT makes the campaign ABORTED while its targets keep their records. -/
def execCampAbort (n : Nat) (s : State) : Host.Outcome State Fault Refusal :=
  act s (.campAbort n) fun d => d.whenUp fun d => d.campAbort n

/-- CAMP_RELEASE (R256): RELEASE frees a DONE or ABORTED campaign and its image area. -/
def execCampRelease (n : Nat) (s : State) : Host.Outcome State Fault Refusal :=
  act s (.campRelease n) fun d => d.whenUp fun d => d.campRelease n

/-- CAMP_TX_SLOT (R254): In a port's transmit slot, the engine starts one campaign frame if the gap and conditions allow. -/
def execCampTxSlot (p : Nat) (sys : Bytes) (airtime : Nat) (busy : Bool) (seen : ImgSeen)
    (s : State) : Host.Outcome State Fault Refusal :=
  act s (.campTxSlot p sys airtime busy seen) fun d => d.whenUp fun d => d.campTxSlot p sys airtime busy seen

/-- CAMP_RESPONSE (R251): A target's response advances its state or counts a failed attempt. -/
def execCampResponse (i : Nat) (slot : Nat) (answer : CampAnswer) (s : State) : Host.Outcome State Fault Refusal :=
  act s (.campResponse i slot answer) fun d => d.whenUp fun d => d.campResponse i slot answer

/-- CAMP_ATTEMPT_TIMEOUT (R251): No response within 30 s counts a failed attempt, and MAXTRY failures make the target FAILED. -/
def execCampAttemptTimeout (i : Nat) (slot : Nat) (s : State) : Host.Outcome State Fault Refusal :=
  act s (.campAttemptTimeout i slot) fun d => d.whenUp fun d => d.campTimeout i slot

end Sys2Proof.Machine
end

