-- ==== Sys2Proof/Machine/ExecCanvasCmds.lean ====
section
/-!
DEFINITION. The meanings of the commands of the canvas: each takes the state and answers the next one.
-/

namespace Sys2Proof.Machine

/-- CANVAS_STAGE (R49): STAGE starts a PCIe fetch of a canvas, or reports 0x001E. -/
def execCanvasStage (mode : Nat) (s : State) : Host.Outcome State Fault Refusal :=
  act s (.canvasStage mode) fun d => d.whenUp fun d => d.canvasStage mode

/-- CANVAS_FETCH_DONE (R46): The canvas fetch ends, successfully or with 0x0020, and validation starts. -/
def execCanvasFetchDone (bytes : Option Bytes) (s : State) : Host.Outcome State Fault Refusal :=
  act s (.canvasFetchDone bytes) fun d => d.whenUp fun d => d.canvasFetchDone bytes

/-- CANVAS_CHECK_DONE (R46): Validation ends with a pass or with a rejection code and its info. -/
def execCanvasCheckDone (s : State) : Host.Outcome State Fault Refusal :=
  act s .canvasCheckDone fun d => d.whenUp fun d => d.canvasCheckDone

/-- CANVAS_STAGED (R49): The valid canvas is written to the free store and sent to the standby, and STATE reads STAGED. -/
def execCanvasStaged (s : State) : Host.Outcome State Fault Refusal :=
  act s .canvasStaged fun d => d.whenUp fun d => d.canvasStaged

/-- PARTNER_CANVAS (R49): The standby receives a canvas over the partner link and validates it. -/
def execPartnerCanvas (m : CanvasMsg) (s : State) : Host.Outcome State Fault Refusal :=
  act s (.partnerCanvas m) fun d => d.whenUp fun d => d.partnerCanvas m

/-- PARTNER_VALIDATION_REPORT (R51): The partner reports its validation and PARTNER_OK is set. -/
def execPartnerValidationReport (code : Nat) (s : State) : Host.Outcome State Fault Refusal :=
  act s (.partnerValidationReport code) fun d => d.whenUp fun d => d.partnerReport code

/-- CANVAS_ARM (R51): ARM sets the apply tick for a staged MODE 0 canvas, or reports 0x001D. -/
def execCanvasArm (s : State) : Host.Outcome State Fault Refusal :=
  act s .canvasArm fun d => d.whenUp fun d => d.canvasArm

/-- CANVAS_APPLY_ABANDON (R51): The partner is not ready by the boundary T − 2/T − 1 and the application is abandoned. -/
def execCanvasApplyAbandon (s : State) : Host.Outcome State Fault Refusal :=
  act s .canvasApplyAbandon fun d => d.whenUp fun d => d.canvasAbandon

/-- CANVAS_APPLY (R52): At T, every run-time section replaces its counterpart, the serial updates and the commit is journalled.
-/
def execCanvasApply (s : State) : Host.Outcome State Fault Refusal :=
  act s .canvasApply fun d => d.whenUp fun d => d.canvasApply

/-- CANVAS_COMMIT (R50): COMMIT schedules a MODE 1 canvas's commit record for the next tick's journal. -/
def execCanvasCommit (s : State) : Host.Outcome State Fault Refusal :=
  act s .canvasCommit fun d => d.whenUp fun d => d.canvasCommit

/-- CANVAS_RELOAD (R50): RELOAD raises the canvas reload reset source. -/
def execCanvasReload (c : Nat) (s : State) : Host.Outcome State Fault Refusal :=
  act s (.canvasReload c) fun d => d.whenUp fun d => d.canvasReload c

/-- CANVAS_CANCEL (R53): CANCEL abandons a fetch, check, staging or arming before T. -/
def execCanvasCancel (s : State) : Host.Outcome State Fault Refusal :=
  act s .canvasCancel fun d => d.whenUp fun d => d.canvasCancel

/-- CANVAS_CTL_CONFLICT (R53): A CANVAS_CTL write setting more than one command is ignored. -/
def execCanvasCtlConflict (v : Nat) (s : State) : Host.Outcome State Fault Refusal :=
  act s (.canvasCtlConflict v) fun d => d.whenUp fun d => d.canvasCtl v

end Sys2Proof.Machine
end

