-- ==== Sys2Proof/Machine/ExecCascadeCmds.lean ====
section
/-!
DEFINITION. The meanings of the commands of the cascade: each takes the state and answers the next one.
-/

namespace Sys2Proof.Machine

/-- LINK_HELLO (R327): A HELLO on a deal or partner link brings the link up, or holds it down as miswired. -/
def execLinkHello (l : LinkId) (h : Hello) (s : State) : Host.Outcome State Fault Refusal :=
  act s (.linkHello l h) fun d => d.whenUp fun d => d.linkHello l h

/-- LINK_DELAY_MEASURE (R327): Every 100 ticks each link's delay is measured by two-way timestamps. -/
def execLinkDelayMeasure (l : LinkId) (ns : Nat) (s : State) : Host.Outcome State Fault Refusal :=
  act s (.linkDelayMeasure l ns) fun d => d.whenUp fun d => d.linkDelay l ns

/-- DEAL_FRAME_FORWARD (R328): A frame on a deal ring is forwarded toward its destination, dropped at TTL 0, or passed to the
partner. -/
def execDealFrameForward (k : Nat) (b : Bytes) (s : State) : Host.Outcome State Fault Refusal :=
  act s (.dealFrameForward k b) fun d => d.whenUp fun d => d.dealForward k b

/-- DISCOVER (R332): A DISCOVER frame is collected for election. -/
def execDiscover (x : Discover) (s : State) : Host.Outcome State Fault Refusal :=
  act s (.discover x) fun d => d.whenUp fun d => d.discover x

/-- ELECT (R333): An ELECT frame names a candidate dealer. -/
def execElect (pos : Nat) (side : Nat) (plan : Bytes) (s : State) : Host.Outcome State Fault Refusal :=
  act s (.elect pos side plan) fun d => d.whenUp fun d => d.elect pos side plan

/-- DEALER (R333): A DEALER frame makes the device join that dealer or withdraw. -/
def execDealer (m : DealerMsg) (s : State) : Host.Outcome State Fault Refusal :=
  act s (.dealer m) fun d => d.whenUp fun d => d.dealerFrame m

/-- MGMT (R331): An authenticated MGMT read, write or reset is performed and answered, or dropped. -/
def execMgmt (rail : Bool) (c : Nat) (b : Bytes) (s : State) : Host.Outcome State Fault Refusal :=
  actRead s (.mgmt rail c b) fun a d => d.whenUp fun d => d.mgmt a rail c b

/-- ELECTION_LISTEN_EXPIRE (R333): No DEALER is heard for 1 s, so the device starts sending DISCOVER. -/
def execElectionListenExpire (c : Nat) (s : State) : Host.Outcome State Fault Refusal :=
  act s (.electionListenExpire c) fun d => d.whenUp fun d => d.listenExpire c

/-- DISCOVER_SEND (R333): DISCOVER is sent every 200 ms with jitter during discovery. -/
def execDiscoverSend (c : Nat) (s : State) : Host.Outcome State Fault Refusal :=
  act s (.discoverSend c) fun d => d.whenUp fun d => d.discoverSend c

/-- DISCOVER_END (R333): After 1 s of DISCOVER, the device chooses its candidate and sends ELECT. -/
def execDiscoverEnd (c : Nat) (s : State) : Host.Outcome State Fault Refusal :=
  act s (.discoverEnd c) fun d => d.whenUp fun d => d.discoverEnd c

/-- ELECT_WAIT_EXPIRE (R333): With no lower DEALER within 200 ms, the candidate becomes dealer. -/
def execElectWaitExpire (c : Nat) (s : State) : Host.Outcome State Fault Refusal :=
  act s (.electWaitExpire c) fun d => d.whenUp fun d => d.electWaitExpire c

/-- DEALER_ANNOUNCE (R333): The dealer sends DEALER every 1 s. -/
def execDealerAnnounce (c : Nat) (s : State) : Host.Outcome State Fault Refusal :=
  act s (.dealerAnnounce c) fun d => d.whenUp fun d => d.dealerAnnounce c

/-- SYNC (R334): A SYNC is forwarded with residence time and accepted by dealer epoch, aligning the lattice and time. -/
def execSync (k : Nat) (b : Bytes) (at0 : Int) (resid : Nat) (c : Nat) (s : State) : Host.Outcome State Fault Refusal :=
  act s (.sync k b at0 resid c) fun d => d.whenUp fun d => d.sync k b at0 resid c

/-- SYNC_LOSS (R335): No SYNC for 10 ticks, so SYNC_LOST is set and the device runs its own lattice. -/
def execSyncLoss (s : State) : Host.Outcome State Fault Refusal :=
  act s .syncLoss fun d => d.whenUp fun d => d.syncLoss

/-- SYNC_REELECT (R335): No SYNC for 100 ticks, so the running positions re-elect. -/
def execSyncReelect (c : Nat) (s : State) : Host.Outcome State Fault Refusal :=
  act s (.syncReelect c) fun d => d.whenUp fun d => d.syncReelect c

/-- ALIGN_FAULT (R336): The residual exceeds 100 ns for 10 ticks, so ALIGN is set. -/
def execAlignFault (s : State) : Host.Outcome State Fault Refusal :=
  act s .alignFault fun d => d.whenUp fun d => d.alignFault

/-- CAS_RENUMBER (R341): RENUMBER shifts the device's journal tick numbers below the dealer's and continues start. -/
def execCasRenumber (c : Nat) (s : State) : Host.Outcome State Fault Refusal :=
  act s (.casRenumber c) fun d => d.whenUp fun d => d.casRenumber c

/-- DIR (R337): A directory update reaches the dealer and is forwarded, with duplicates flagged. -/
def execDir (m : DirMsg) (s : State) : Host.Outcome State Fault Refusal :=
  act s (.dir m) fun d => d.whenUp fun d => d.dirFrame m

/-- CAS_DIR_QUERY (R337): A house seat queries the slot directory. -/
def execCasDirQuery (s : State) : Host.Outcome State Fault Refusal :=
  act s .casDirQuery fun d => d.whenUp fun d => d.dirQuery

/-- DIR_ANSWER (R337): The directory answer arrives in CAS_DIR_RES. -/
def execDirAnswer (title : Nat) (r : Option (Nat × Nat)) (s : State) : Host.Outcome State Fault Refusal :=
  act s (.dirAnswer title r) fun d => d.whenUp fun d => d.dirAnswer title r

/-- CHECK (R339): The dealer checks a device's plan, position and digest, and accepts or rejects it with 0x001F. -/
def execCheck (m : CheckMsg) (s : State) : Host.Outcome State Fault Refusal :=
  act s (.check m) fun d => d.whenUp fun d => d.check m

/-- CHECK_ANSWER (R339): The device receives its check answer and proceeds, or stays at step 5. -/
def execCheckAnswer (code : Nat) (s : State) : Host.Outcome State Fault Refusal :=
  act s (.checkAnswer code) fun d => d.whenUp fun d => d.checkAnswer code

end Sys2Proof.Machine
end

