-- ==== Sys2Proof/Machine/ExecEventCmds.lean ====
section
/-!
DEFINITION. The meanings of the commands of the event recorder, receivers and power states: each takes the state and answers the
next one.
-/

namespace Sys2Proof.Machine

/-- EVENT_FLUSH (R395): Front-buffer entries are written to the NAND log at a boundary or when 256 are waiting. -/
def execEventFlush (s : State) : Host.Outcome State Fault Refusal :=
  act s .eventFlush fun d => d.whenUp fun d => d.eventFlush

/-- EVENT_SUMMARY (R397): 100 ticks after an uncarried suppression, a summary entry with SUPP is recorded. -/
def execEventSummary (s : State) : Host.Outcome State Fault Refusal :=
  act s .eventSummary fun d => d.whenUp fun d => d.eventSummary

/-- EVT_FETCH (R399): FETCH starts a fetch of the entry at or above the requested ESEQ in the selected view. -/
def execEvtFetch (n : Nat) (s : State) : Host.Outcome State Fault Refusal :=
  act s (.evtFetch n) fun d => d.whenUp fun d => d.evtFetch n

/-- EVT_FETCH_DONE (R399): The fetched entry is loaded into EVT_DATA with GAP, NONE or SEAL as needed. -/
def execEvtFetchDone (n : Nat) (asRead : Option Bytes) (s : State) : Host.Outcome State Fault Refusal :=
  act s (.evtFetchDone n asRead) fun d => d.whenUp fun d => d.evtFetchDone n asRead

/-- EVT_INJECT (R400): INJECT records EVT_INJ's code with seat 0. -/
def execEvtInject (s : State) : Host.Outcome State Fault Refusal :=
  act s .evtInject fun d => d.whenUp fun d => d.evtInject

/-- CHARACTER_LOCK (R89): A PLC_AFE or FIELDLINK receiver gains character lock on its receive pair, so RX_LOCK is set and the
link leaves the down state. -/
def execCharacterLock (p : Nat) (s : State) : Host.Outcome State Fault Refusal :=
  act s (.characterLock p) fun d => d.whenUp fun d => d.characterLock p

/-- BLOCK_LOCK_LOSS (R327): A deal link or partner lane loses block lock and goes down, clearing its LINKS bit or PARTNER_UP. -/
def execBlockLockLoss (l : LinkId) (s : State) : Host.Outcome State Fault Refusal :=
  act s (.blockLockLoss l) fun d => d.whenUp fun d => d.blockLockLoss l

/-- DRAM_POWER_DOWN (R382): A DRAM channel idle for DRAM_PD enters power-down. -/
def execDramPowerDown (c : Nat) (ch : Nat) (s : State) : Host.Outcome State Fault Refusal :=
  actArrays s (.dramPowerDown c ch) <| Dev.arraysUp fun p => dramPowerDown p c ch

/-- LANE_SLEEP (R382): An idle SerDes lane sleeps after 1 ms without traffic and wakes within 5 µs when traffic returns. -/
def execLaneSleep (lane : Nat) (c : Nat) (traffic : Bool) (s : State) : Host.Outcome State Fault Refusal :=
  act s (.laneSleep lane c traffic) fun d => d.whenUp fun d => d.laneSleep lane c traffic

end Sys2Proof.Machine
end

