-- ==== Sys2Proof/Machine/ExecFieldCmds.lean ====
section
/-!
DEFINITION. The meanings of the commands of PLC, the rail carrier and the radio: each takes the state and answers the next one.
-/

namespace Sys2Proof.Machine

/-- AFE_SAMPLE_BLOCK (R111): An upstream sample block is checked, decimated, blanked and demodulated, or it is discarded. -/
def execAfeSampleBlock (p : Nat) (chars : Bytes) (marks : List (Nat × PlcMark))
    (s : State) : Host.Outcome State Fault Refusal :=
  act s (.afeSampleBlock p chars marks) fun d => d.whenUp fun d => d.afeSampleBlock p chars marks

/-- PLC_OVERLOAD (R115): An overload inside a frame forces a 6 dB gain step and marks erasures, aborting on the third. -/
def execPlcOverload (p : Nat) (sym : NextSymbols) (s : State) : Host.Outcome State Fault Refusal :=
  act s (.plcOverload p sym) fun d => d.whenUp fun d => d.plcOverload p sym.first sym.second

/-- AFE_STATUS_BLOCK (R118): A status block reports a zero crossing and the period is measured. -/
def execAfeStatusBlock (p : Nat) (chars : Bytes) (s : State) : Host.Outcome State Fault Refusal :=
  act s (.afeStatusBlock p chars) fun d => d.whenUp fun d => d.afeStatusBlock p chars

/-- AFE_LOCK_LOSS (R111): Lock is lost on pair A or at the AFE, and the frame being received is abandoned. -/
def execAfeLockLoss (p : Nat) (atAfe : Bool) (s : State) : Host.Outcome State Fault Refusal :=
  act s (.afeLockLoss p atAfe) fun d => d.whenUp fun d => d.afeLockLoss p atAfe

/-- PLC_FRAME_RX (R116): A received MAC frame enters the port's receive queue, or is discarded when the queue is full. -/
def execPlcFrameRx (p : Nat) (sender : Nat) (frame : Bytes) (zc : Option (Nat × Nat))
    (s : State) : Host.Outcome State Fault Refusal :=
  act s (.plcFrameRx p sender frame zc) fun d => d.whenUp fun d => d.plcFrameRx p sender frame zc

/-- PLC_JOIN_REQUEST (R117): A join or registration request is answered within JOIN_RATE, or deferred. -/
def execPlcJoinRequest (r : JoinReq) (s : State) : Host.Outcome State Fault Refusal :=
  act s (.plcJoinRequest r) fun d => d.whenUp fun d => d.plcJoinRequest r.port r.eui

/-- RAIL_FRAME_SEND (R122): The device listens, backs off and sends a rail carrier frame. -/
def execRailFrameSend (c : Nat) (busy : Bool) (s : State) : Host.Outcome State Fault Refusal :=
  act s (.railFrameSend c busy) fun d => d.whenUp fun d => d.railFrameSend c busy

/-- RAIL_FRAME_RX (R122): A rail frame is accepted on a good seal and acknowledged if requested. -/
def execRailFrameRx (c : Nat) (bs : Bytes) (s : State) : Host.Outcome State Fault Refusal :=
  act s (.railFrameRx c bs) fun d => d.whenUp fun d => d.railFrameRx c bs

/-- RAIL_ACK_TIMEOUT (R122): No ACK arrives within 9 ms, so the frame is retried and abandoned after 3 retries. -/
def execRailAckTimeout (s : State) : Host.Outcome State Fault Refusal :=
  act s .railAckTimeout fun d => d.whenUp fun d => d.railAckTimeout

/-- RAIL_IMPULSE (R123): A detected impulse is blanked, and regular impulses lock or unlock predictive blanking. -/
def execRailImpulse (t : Nat) (above : Option Nat) (s : State) : Host.Outcome State Fault Refusal :=
  act s (.railImpulse t above) fun d => d.whenUp fun d => d.railImpulse t above

/-- RAIL_PILOT (R124): Every idle second a pilot is sent and measured, and the coupling is declared open or closed. -/
def execRailPilot (level : Int) (s : State) : Host.Outcome State Fault Refusal :=
  act s (.railPilot level) fun d => d.whenUp fun d => d.railPilot level

/-- BEACON (R132): A beacon is sent at its instant with the pending addresses and the hint element, and the window is updated.
-/
def execBeacon (p : Nat) (s : State) : Host.Outcome State Fault Refusal :=
  act s (.beacon p) fun d => d.whenUp fun d => d.beacon p

/-- RADIO_FRAME_RX (R135): A received PSDU is checked, acknowledged, duplicate-filtered and queued. -/
def execRadioFrameRx (p : Nat) (c : Nat) (f : RadioFrame) (fcsOk : Bool) (endSet : Bool) (late : Bool)
    (s : State) : Host.Outcome State Fault Refusal :=
  act s (.radioFrameRx p c f fcsOk endSet late) fun d => d.whenUp fun d => d.radioFrameRx p c f fcsOk endSet late

/-- DATA_REQUEST (R134): A neighbour's Data Request is acknowledged with Frame Pending from its indirect queue. -/
def execDataRequest (p : Nat) (c : Nat) (f : RadioFrame) (fcsOk : Bool) (endSet : Bool) (late : Bool)
    (s : State) : Host.Outcome State Fault Refusal :=
  act s (.dataRequest p c f fcsOk endSet late) fun d => d.whenUp fun d => d.dataRequest p c f fcsOk endSet late

/-- INDIRECT_TX (R134): The oldest indirect frame is sent by slotted CSMA-CA with up to 3 retries. -/
def execIndirectTx (p : Nat) (fails : Nat) (s : State) : Host.Outcome State Fault Refusal :=
  act s (.indirectTx p fails) fun d => d.whenUp fun d => d.indirectTx p fails

/-- INDIRECT_EXPIRE (R134): An indirect frame not polled within the persistence is dropped and counted. -/
def execIndirectExpire (p : Nat) (s : State) : Host.Outcome State Fault Refusal :=
  act s (.indirectExpire p) fun d => d.whenUp fun d => d.indirectExpire p

/-- ASSOCIATION_REQUEST (R141): An association request is accepted within the quota, or answered PAN at capacity. -/
def execAssociationRequest (p : Nat) (r : AssocReq) (s : State) : Host.Outcome State Fault Refusal :=
  act s (.associationRequest p r) fun d => d.whenUp fun d =>
    d.associationRequest p r.c r.frame r.eui r.fcsOk r.endSet r.late

/-- GTS_REQUEST (R133): A GTS request is granted or denied. -/
def execGtsRequest (p : Nat) (r : GtsReqs) (s : State) : Host.Outcome State Fault Refusal :=
  act s (.gtsRequest p r) fun d => d.whenUp fun d => d.gtsRequest p r.c r.reqs r.fcsOk r.endSet r.late

/-- GRANT_RAISE (R143): An active device raises TXGRANT after TXGRANT_PEER has been low for 1 tick. -/
def execGrantRaise (c : Nat) (s : State) : Host.Outcome State Fault Refusal :=
  act s (.grantRaise c) fun d => d.whenUp fun d => d.grantRaise c

/-- GRANT_PEER_RISE (R143): TXGRANT_PEER rises, so the holder yields the grant within 1 tick. -/
def execGrantPeerRise (c : Nat) (s : State) : Host.Outcome State Fault Refusal :=
  act s (.grantPeerRise c) fun d => d.whenUp fun d => d.grantPeerRise c

/-- GRANT_PEER_FALL (R145): TXGRANT_PEER falls while the grant is held: INIT runs and the shadow beacon is sent. -/
def execGrantPeerFall (c : Nat) (s : State) : Host.Outcome State Fault Refusal :=
  act s (.grantPeerFall c) fun d => d.whenUp fun d => d.grantPeerFall c

/-- PARTNER_PSDU (R145): The shadow side takes a forwarded PSDU with its T0 and verdict into its shadow MAC. -/
def execPartnerPsdu (p : Nat) (t0 : Nat) (dup : Bool) (f : ShadowPsdu) (s : State) : Host.Outcome State Fault Refusal :=
  act s (.partnerPsdu p t0 dup f) fun d => d.whenUp fun d => d.partnerPsdu p t0 dup f.frame f.kind

end Sys2Proof.Machine
end

