-- ==== Sys2Proof/Machine/ExecIngestCmds.lean ====
section
/-!
DEFINITION. The meanings of the commands of reassembly and the cipher farm: each takes the state and answers the next one.
-/

namespace Sys2Proof.Machine

/-- REASSEMBLE_FRAGMENT (R152): A fragment joins its reassembly context, completing or discarding the APDU. -/
def execReassembleFragment (g : Fragment) (s : State) : Host.Outcome State Fault Refusal :=
  act s (.reassembleFragment g) fun d => d.whenUp fun d => d.reassemble g

/-- REASM_TIMEOUT (R153): A context idle for 200 ticks is discarded with its buffers. -/
def execReasmTimeout (s : State) : Host.Outcome State Fault Refusal :=
  act s .reasmTimeout fun d => d.whenUp fun d => d.reasmTimeout

/-- CIPHER_DECRYPT (R156): The cipher farm looks up keys, checks policy, decrypts and verifies the tag, and makes the plaintext
seal. -/
def execCipherDecrypt (is : List Nat) (s : State) : Host.Outcome State Fault Refusal :=
  act s (.cipherDecrypt is) fun d => d.whenUp fun d => d.cipherDecrypt is

/-- CIPHER_ENCRYPT (R160): An outbound APDU is encrypted with IC_TX, or refused when it is exhausted. -/
def execCipherEncrypt (slot : Nat) (port : Nat) (sys : Bytes) (pt : Bytes) (s : State) : Host.Outcome State Fault Refusal :=
  act s (.cipherEncrypt slot port sys pt) fun d => d.whenUp fun d => d.cipherEncrypt slot port sys pt

end Sys2Proof.Machine
end

