-- ==== Sys2Proof/Machine/ExecLedgers.lean ====
section
/-!
DEFINITION. The meanings of the commands of the ledger engines: each takes the state and answers the next one.
-/

namespace Sys2Proof.Machine

/-- DECODE_APDU (R164): A decoder lane turns an APDU into sealed canonical records, admits them and frees the buffers. -/
def execDecodeApdu (its : List DlmsItem) (push : Bool) (asRead : Option Bytes) (s : State) : Host.Outcome State Fault Refusal :=
  act s (.decodeApdu its push asRead) fun d => d.whenOpen fun d => d.decodeApdu its push asRead

/-- APDU_UNPARK (R166): Admission for an engine resumes and its parked APDUs continue decoding. -/
def execApduUnpark (e : Nat) (s : State) : Host.Outcome State Fault Refusal :=
  act s (.apduUnpark e) fun d => d.whenOpen fun d => d.apduUnpark e

/-- APPLY_RECORD (R176): A ledger engine verifies seals, runs VEE, updates and reseals the blocks, journals, writes history and
hands the uplink record on. -/
def execApplyRecord (e : Nat) (cost : Nat) (bad : List Nat) (asRead : Option Bytes)
    (s : State) : Host.Outcome State Fault Refusal :=
  act s (.applyRecord e cost bad asRead) fun d => d.whenOpen fun d => d.applyRecord e cost bad asRead

/-- SWEEP_CLOSE (R65): In the slot's offset tick, the engine closes every interval that ended at the boundary, as mandatory
work; a heartbeat that waited for the work of an ended tick follows (R35). -/
def execSweepClose (slot : Nat) (cost : Nat) (s : State) : Host.Outcome State Fault Refusal :=
  act s (.sweepClose slot cost) fun d => d.whenOpen fun d => (d.sweepClose slot cost).beatNow

/-- CATCHUP_CLOSE (R67): An engine runs a slot's pending boundary close after a forward step, ahead of records. -/
def execCatchupClose (e : Nat) (cost : Nat) (s : State) : Host.Outcome State Fault Refusal :=
  act s (.catchupClose e cost) fun d => d.whenOpen fun d => d.catchupClose e cost

/-- SLOT_REPAIR_DONE (R201): Restoration completes, held records are applied and the slot returns to ACTIVE with cause-5
records. -/
def execSlotRepairDone (slot : Nat) (partner : Option Machine.Ledger) (s : State) : Host.Outcome State Fault Refusal :=
  act s (.slotRepairDone slot partner) fun d => d.whenOpen fun d => d.repairDone slot partner

/-- SLOT_REPAIR_TIMEOUT (R202): Restoration has not completed within 100 ticks, or a 1,025th record arrives, and the slot goes
to FAILED. -/
def execSlotRepairTimeout (slot : Nat) (s : State) : Host.Outcome State Fault Refusal :=
  act s (.slotRepairTimeout slot) fun d => d.whenOpen fun d => d.repairTimeout slot

/-- LDG_SLOT_REINIT (R202): REINIT puts the selected FAILED slot into EMPTY. -/
def execLdgSlotReinit (s : State) : Host.Outcome State Fault Refusal :=
  act s .ldgSlotReinit fun d => d.whenOpen fun d => d.slotReinit

/-- SHADOW_EXECUTE (R203): The shadow engine re-executes the sampled engine's records and compares derivation seals. -/
def execShadowExecute (cost : Nat) (cmp : Machine.ShadowCmp) (s : State) : Host.Outcome State Fault Refusal :=
  act s (.shadowExecute cost cmp) fun d => d.whenOpen fun d => d.shadowExecute cost cmp

/-- SHADOW_CORRECTION_INSTALL (R204): The agreed shadow result is installed at the next boundary with CORRECTED records. -/
def execShadowCorrectionInstall (slot : Nat) (s : State) : Host.Outcome State Fault Refusal :=
  act s (.shadowCorrectionInstall slot) fun d => d.whenOpen fun d => d.shadowInstall slot

/-- LDG_FENCE (R25): A seat writes LDG_FENCE, cutting its admission sequence, or the fence is rejected. -/
def execLdgFence (n : Nat) (v : Nat) (s : State) : Host.Outcome State Fault Refusal :=
  act s (.ldgFence n v) fun d => d.whenUp fun d => d.ldgFence n v

/-- LDG_RERATE_GO (R193): GO admits one re-rate order per slot of the range, or is refused. -/
def execLdgRerateGo (n : Nat) (s : State) : Host.Outcome State Fault Refusal :=
  act s (.ldgRerateGo n) fun d => d.whenUp fun d => d.rerateGo n

/-- RERATE_ORDER_APPLY (R193): An engine moves every DEF delta of the slot to its rate under the current palettes and emits
RERATED records. -/
def execRerateOrderApply (e : Nat) (cost : Nat) (s : State) : Host.Outcome State Fault Refusal :=
  act s (.rerateOrderApply e cost) fun d => d.whenOpen fun d => d.rerateApply e cost

/-- BILLING_CLOSE_ACTION (R212): Method 1 of the billing close object admits a billing order, or answers temporary-failure. -/
def execBillingCloseAction (n : Nat) (slot : Nat) (s : State) : Host.Outcome State Fault Refusal :=
  act s (.billingCloseAction n slot)
    fun d => d.whenUp fun d => (d.billingAction n slot).1.emit (.actionResult n slot (d.billingAction n slot).2)

/-- BILLING_ORDER_APPLY (R212): The order makes a billing close at the latest boundary not after corrected time. -/
def execBillingOrderApply (e : Nat) (cost : Nat) (s : State) : Host.Outcome State Fault Refusal :=
  act s (.billingOrderApply e cost) fun d => d.whenOpen fun d => d.billingApply e cost

/-- READOUT_REQUEST (R291): A readout entry is served as a get or action request, checked against role rights. -/
def execReadoutRequest (n : Nat) (s : State) : Host.Outcome State Fault Refusal :=
  act s (.readoutRequest n) fun d => d.whenUp fun d => d.readoutRequest n

end Sys2Proof.Machine
end

