-- ==== Sys2Proof/Machine/ExecMemoryCmds.lean ====
section
/-!
DEFINITION. The meanings of the commands of SRAM, DRAM and NAND: each takes the state and answers the next one.
-/

namespace Sys2Proof.Machine

/-- SRAM_ACCESS (R305): A bank serves up to two requesters per cycle with ageing, resolving same-word collisions. -/
def execSramAccess (c : Nat) (reqs : List MemReq) (ups : List Upset) (s : State) : Host.Outcome State Fault Refusal :=
  actMemory s (.sramAccess c reqs ups) .sramRange (reqs.all fun r => decide (r.addr < 2 ^ 27)) <|
    Dev.arraysUp fun p => sramAccess p c reqs ups

/-- SRAM_ATOMIC (R307): A bank performs an atomic add or swap and returns the old value. -/
def execSramAtomic (c : Nat) (req : Nat) (addr : Nat) (n : Nat) (op : AtomicOp) (v : Nat) (ups : List Upset)
    (s : State) : Host.Outcome State Fault Refusal :=
  actMemory s (.sramAtomic c req addr n op v ups) .sramRange (decide (addr < 2 ^ 27)) <|
    Dev.arraysUp fun p => sramAtomic p c req addr n op v ups

/-- PARTIAL_WRITE (R308): A sub-word write is merged, corrected, or refused on a poisoned word. -/
def execPartialWrite (sel : MemSel) (addr : Nat) (bs : Bytes) (ups : List Upset)
    (s : State) : Host.Outcome State Fault Refusal :=
  actMemory s (.partialWrite sel addr bs ups) (memFault sel) (decide (addr < memBytes sel)) <|
    Dev.arraysUp fun p => partialWrite p sel addr bs ups

/-- POISON_READ (R309): A read of a poisoned word is handled by its reader as a seal failure, miss, fault or EP completion. -/
def execPoisonRead (r : PoisonReader) (s : State) : Host.Outcome State Fault Refusal :=
  act s (.poisonRead r) fun d => d.whenUp fun d => d.poisonRead r

/-- PATROL_SCRUB (R304): In an idle cycle the scrubber reads a word and writes back any correction. -/
def execPatrolScrub (w : Nat) (ups : List Upset) (s : State) : Host.Outcome State Fault Refusal :=
  actMemory s (.patrolScrub w ups) .sramRange (decide (w < 2 ^ 24)) <|
    Dev.arraysUp fun p => patrolScrub p w ups

/-- DRAM_SCRUB (R313): The DRAM patrol scrubber reads a word and corrects it, covering 16 GiB each day. -/
def execDramScrub (w : Nat) (ups : List Upset) (s : State) : Host.Outcome State Fault Refusal :=
  actMemory s (.dramScrub w ups) .dramRange (decide (w < 2 ^ 31)) <|
    Dev.arraysUp fun p => dramScrub p w ups

/-- BANK_RETENTION (R310): A bank idle for its group's idle time enters retention. -/
def execBankRetention (c : Nat) (bank : Nat) (s : State) : Host.Outcome State Fault Refusal :=
  actArrays s (.bankRetention c bank) <| Dev.arraysUp fun p => bankRetention p c bank

/-- MEM_CLR_COLLIDE (R306): CLR_COLLIDE sets MEM_COLLIDE to 0. -/
def execMemClrCollide (v : Nat) (s : State) : Host.Outcome State Fault Refusal :=
  act s (.memClrCollide v) fun d => d.whenUp fun d => d.clrCollide v

/-- CHECKPOINT_PASS_DONE (R319): A checkpoint pass completes and older journal pages are trimmed. -/
def execCheckpointPassDone (s : State) : Host.Outcome State Fault Refusal :=
  act s .checkpointPassDone fun d => d.whenUp fun d => d.checkpointPass

/-- FOLD (R318): With fewer than 256 free one-bit blocks, the oldest is folded into TLC and then erased. -/
def execFold (s : State) : Host.Outcome State Fault Refusal :=
  act s .fold fun d => d.whenUp fun d => d.fold

/-- GARBAGE_COLLECT (R322): The closed block with the fewest valid pages is rewritten within its stream. -/
def execGarbageCollect (stream : Nat) (s : State) : Host.Outcome State Fault Refusal :=
  act s (.garbageCollect stream) fun d => d.whenUp fun d => d.garbageCollect stream

/-- WEAR_LEVEL_MOVE (R323): With an erase spread above 200, COLD data moves from the least-erased block. -/
def execWearLevelMove (s : State) : Host.Outcome State Fault Refusal :=
  act s .wearLevelMove fun d => d.whenUp fun d => d.wearLevelMove

/-- NAND_PROGRAM_FAIL (R324): A failed program or erase retires the block as grown bad and rewrites its pages. -/
def execNandProgramFail (id : Nat) (s : State) : Host.Outcome State Fault Refusal :=
  act s (.nandProgramFail id) fun d => d.whenUp fun d => d.nandProgramFail id

/-- NAND_REFRESH (R324): A block with many reads, or with high sampled bit errors, is rewritten. -/
def execNandRefresh (id : Nat) (highErrors : Bool) (s : State) : Host.Outcome State Fault Refusal :=
  act s (.nandRefresh id highErrors) fun d => d.whenUp fun d => d.nandRefresh id highErrors

end Sys2Proof.Machine
end

