-- ==== Sys2Proof/Machine/ExecPartnerCmds.lean ====
section
/-!
DEFINITION. The meanings of the commands of health, the partner pair and command resets: each takes the state and answers the
next one.
-/

namespace Sys2Proof.Machine

/-- HEALTH (R352): The dealer records a position's HEALTH report. -/
def execHealth (m : HealthMsg) (s : State) : Host.Outcome State Fault Refusal :=
  act s (.health m) fun d => d.whenUp fun d => d.health m

/-- HEALTH_SEND (R352): An active side sends HEALTH every 100 ticks. -/
def execHealthSend (s : State) : Host.Outcome State Fault Refusal :=
  act s .healthSend fun d => d.whenUp fun d => d.healthSend

/-- POSITION_LOST (R352): A position not heard from for 300 ticks reads LOST. -/
def execPositionLost (p : Nat) (s : State) : Host.Outcome State Fault Refusal :=
  act s (.positionLost p) fun d => d.whenUp fun d => d.positionLost p

/-- PAIRING (R342): Partner HELLOs decide the active side by journal tick and strap preference. -/
def execPairing (jtick : Nat) (pref : Bool) (s : State) : Host.Outcome State Fault Refusal :=
  act s (.pairing jtick pref) fun d => d.whenUp fun d => d.pairing jtick pref

/-- HEARTBEAT (R345): A partner heartbeat is received and recorded. -/
def execHeartbeat (h : Beat) (s : State) : Host.Outcome State Fault Refusal :=
  act s (.heartbeat h) fun d => d.whenUp fun d => d.heartbeat h

/-- TAKEOVER (R346): A standby missing two heartbeats takes over: it raises the epoch and grant, admits shadow records and
resends. -/
def execTakeover (s : State) : Host.Outcome State Fault Refusal :=
  act s .takeover fun d => d.whenUp fun d => d.takeover

/-- TAKEOVER_NOTICE (R346): The dealer receives TAKEOVER and marks the position's active side. -/
def execTakeoverNotice (k : Nat) (b : Bytes) (s : State) : Host.Outcome State Fault Refusal :=
  act s (.takeoverNotice k b) fun d => d.whenUp fun d => d.takeoverNotice k b

/-- ROLE_RELINQUISH (R347): An active side told of the partner's takeover gives up the role and becomes DETACHED. -/
def execRoleRelinquish (s : State) : Host.Outcome State Fault Refusal :=
  act s .roleRelinquish fun d => d.whenUp fun d => d.relinquish

/-- PACKAGE (R344): The standby compares and installs the package's records and deltas and journals them. -/
def execPackage (pk : Machine.Package) (s : State) : Host.Outcome State Fault Refusal :=
  act s (.package pk) fun d => d.whenUp fun d => d.package pk

/-- SHADOW_LEFTOVER (R344): A shadow record unlisted for 8 ticks is discarded and counted. -/
def execShadowLeftover (s : State) : Host.Outcome State Fault Refusal :=
  act s .shadowLeftover fun d => d.whenUp fun d => d.shadowLeftover

/-- BULK (R350): The standby takes a bulk item, keeping the later image. -/
def execBulk (item : Machine.BulkItem) (tick : Nat) (s : State) : Host.Outcome State Fault Refusal :=
  act s (.bulk item tick) fun d => d.whenUp fun d => d.bulk item tick

/-- RESYNC_DONE (R350): The bulk copy completes and RESYNCED is set. -/
def execResyncDone (s : State) : Host.Outcome State Fault Refusal :=
  act s .resyncDone fun d => d.whenUp fun d => d.resyncDone

/-- RESYNC_TIMEOUT (R350): The copy is not complete in 300 ticks, so RESYNC_FAIL is set and the copy restarts. -/
def execResyncTimeout (s : State) : Host.Outcome State Fault Refusal :=
  act s .resyncTimeout fun d => d.whenUp fun d => d.resyncTimeout

/-- CAS_SWAP (R351): SWAP schedules a role swap at tick T, or sets SWAP_REJ. -/
def execCasSwap (s : State) : Host.Outcome State Fault Refusal :=
  act s .casSwap fun d => d.whenUp fun d => d.casSwap

/-- ROLE_SWAP (R351): At T the old active yields the grant and the new active takes EPOCH + 1 and continues USEQ. -/
def execRoleSwap (s : State) : Host.Outcome State Fault Refusal :=
  act s .roleSwap fun d => d.whenUp fun d => d.roleSwap

/-- CAS_RESET (R353): A partner or dealer command reset is taken at the deeper of LEVEL and the mapped level. -/
def execCasReset (c : Nat) (r : ResetCmd) (s : State) : Host.Outcome State Fault Refusal :=
  act s (.casReset c r) fun d => d.whenUp fun d => d.casReset c r

end Sys2Proof.Machine
end

