-- ==== Sys2Proof/Machine/ExecPortCmds.lean ====
section
/-!
DEFINITION. The meanings of the commands of field ports, arbitration and edge inputs: each takes the state and answers the next
one.
-/

namespace Sys2Proof.Machine

/-- FRAME_INGEST (R95): A frame from the link layer is written into the filling bank with its seal, or is dropped. -/
def execFrameIngest (p : Nat) (bytes : Bytes) (err : Bool) (s : State) : Host.Outcome State Fault Refusal :=
  act s (.frameIngest p bytes err) fun d => d.whenUp fun d => d.frameIngest p bytes err

/-- ARBITER_ROUND (R101): A tier runs one deficit round-robin round and grants whole frames. -/
def execArbiterRound (t : Tier) (s : State) : Host.Outcome State Fault Refusal :=
  act s (.arbiterRound t) fun d => d.whenUp fun d => d.arbiterRound t

/-- FRAME_TO_POOL (R150): A granted frame's buffers are allocated from the pool and its words pass to the pool. -/
def execFrameToPool (how : FifoRead) (s : State) : Host.Outcome State Fault Refusal :=
  act s (.frameToPool how) fun d => d.whenUp fun d => d.frameToPool how

/-- FIFO_PTR_MISMATCH (R98): A pointer mismatch or parity error flushes the port. -/
def execFifoPtrMismatch (p : Nat) (s : State) : Host.Outcome State Fault Refusal :=
  act s (.fifoPtrMismatch p) fun d => d.whenUp fun d => d.fifoPtrMismatch p

/-- PORT_SHORT (R90): A driver current limit trips or a transmit pair is shorted, and the port is isolated. -/
def execPortShort (p : PortAt) (s : State) : Host.Outcome State Fault Refusal :=
  act s (.portShort p) fun d => d.whenUp fun d => d.portShort p.port p.c

/-- PORT_OPEN (R89): An open receive pair or RXD is reported and the link is held down. -/
def execPortOpen (p : Nat) (s : State) : Host.Outcome State Fault Refusal :=
  act s (.portOpen p) fun d => d.whenUp fun d => d.portOpen p

/-- RX_PAIR_REVERSED (R91): A reversed receive pair is corrected in the cell and REV_RX is set. -/
def execRxPairReversed (p : Nat) (s : State) : Host.Outcome State Fault Refusal :=
  act s (.rxPairReversed p) fun d => d.whenUp fun d => d.rxReversed p

/-- PORT_RETRY (R90): RETRY makes an isolated port drive again, at most once per tick. -/
def execPortRetry (p : Nat) (s : State) : Host.Outcome State Fault Refusal :=
  act s (.portRetry p) fun d => d.whenUp fun d => d.portRetry p

/-- PORT_FLUSH (R99): FLUSH empties both banks at once and aborts any frame being drained. -/
def execPortFlush (p : Nat) (s : State) : Host.Outcome State Fault Refusal :=
  act s (.portFlush p) fun d => d.whenUp fun d => d.portFlush p

/-- FIELDLINK_AUTONEG (R88): SGMII auto-negotiation brings the link up only at 1000 Mbit/s full duplex. -/
def execFieldlinkAutoneg (p : Nat) (gigFull : Bool) (s : State) : Host.Outcome State Fault Refusal :=
  act s (.fieldlinkAutoneg p gigFull) fun d => d.whenUp fun d => d.fieldlinkAutoneg p gigFull

/-- PAUSE_RX (R88): A received MAC Control PAUSE is honoured; other MAC Control frames are dropped as errors. -/
def execPauseRx (p : Nat) (c : Nat) (opcode : Nat) (quanta : Nat) (s : State) : Host.Outcome State Fault Refusal :=
  act s (.pauseRx p c opcode quanta) fun d => d.whenUp fun d => d.pauseRx p c opcode quanta

/-- PAUSE_RELEASE (R97): A FIELDLINK port sends PAUSE with quanta 0 once a MAXFRAME frame would fit. -/
def execPauseRelease (p : Nat) (s : State) : Host.Outcome State Fault Refusal :=
  act s (.pauseRelease p) fun d => d.whenUp fun d => d.pauseRelease p

/-- EDGE_INPUT (R103): An edge on PPS_IN, a tamper input or a radio IRQ is accepted or filtered and counted; out of operation the ball
only keeps its level (R12, R106). -/
def execEdgeInput (e : EdgeIn) (level : Bool) (glitch : Bool) (c : Nat) (s : State) : Host.Outcome State Fault Refusal :=
  act s (.edgeInput e level glitch c) fun d =>
    if d.sys.phase = .up then d.edgeInput e level glitch c else if glitch then d else d.edgeBall e level

/-- EDGE_SETTLE (R103): An input quiet for 1 ms whose settled level differs from the last accepted level takes an edge. -/
def execEdgeSettle (e : EdgeIn) (c : Nat) (s : State) : Host.Outcome State Fault Refusal :=
  act s (.edgeSettle e c) fun d => d.whenUp fun d => d.edgeSettle e c

/-- IRQ_STUCK (R104): A radio IRQ high for 1 tick after service is declared stuck and the MAC polls. -/
def execIrqStuck (p : Nat) (c : Nat) (s : State) : Host.Outcome State Fault Refusal :=
  act s (.irqStuck p c) fun d => d.whenUp fun d => d.irqStuck p c

/-- IRQ_POLL (R104): While the IRQ is stuck, the MAC polls the transceiver status every 1 ms. -/
def execIrqPoll (p : Nat) (s : State) : Host.Outcome State Fault Refusal :=
  act s (.irqPoll p) fun d => d.whenUp fun d => d.irqPoll p

/-- IRQ_UNSTUCK (R104): The IRQ ball is low for 100 ms and the MAC returns to it. -/
def execIrqUnstuck (p : Nat) (c : Nat) (s : State) : Host.Outcome State Fault Refusal :=
  act s (.irqUnstuck p c) fun d => d.whenUp fun d => d.irqUnstuck p c

/-- FP_GRP_RST_WRITE (R87): Writing FP_GRP_RST drives or releases the radio reset balls and runs the INIT writes. -/
def execFpGrpRstWrite (v : Nat) (s : State) : Host.Outcome State Fault Refusal :=
  act s (.fpGrpRstWrite v) fun d => d.whenUp fun d => d.fpGrpRstWrite v

end Sys2Proof.Machine
end

