-- ==== Sys2Proof/Machine/ExecRegs.lean ====
section
/-!
DEFINITION. The meanings of the commands of register accesses: each takes the state and answers the next one.
-/

namespace Sys2Proof.Machine

/-- REG_WRITE (R9): A register write with no row of its own acts by its field access types. -/
def execRegWrite (ag : Agent) (off : Nat) (v : Word) (c : Nat) (items : List Bytes)
    (s : State) : Host.Outcome State Fault Refusal :=
  act s (.regWrite ag off v c items) fun d => d.whenRtc off fun d => d.agentWrite ag off v c items

/-- REG_ACCESS_MISALIGNED (R11): An access that is not 32 bits wide and aligned completes without effect and sets its block's
ACCESS bit. -/
def execRegAccessMisaligned (n : Nat) (off : Nat) (len : Nat) (wdata : Option Nat)
    (s : State) : Host.Outcome State Fault Refusal :=
  act s (.regAccessMisaligned n off len wdata) fun d => d.whenUp fun d => d.misaligned n off len wdata

/-- READ_CLEAR (R9): A read of an RC field returns it and then clears it, for a permitted reader. -/
def execReadClear (ag : Agent) (off : Nat) (c : Nat) (s : State) : Host.Outcome State Fault Refusal :=
  actRead s (.readClear ag off c) fun a d => d.whenUp fun d => d.agentRead a ag off c

/-- TIME_NS32_READ (R71): Reading TIME_NS32 latches the seat's subsecond and second registers. -/
def execTimeNs32Read (n : Nat) (c : Nat) (s : State) : Host.Outcome State Fault Refusal :=
  act s (.timeNs32Read n c) fun d => d.whenUp fun d => d.timeNs32Read n c

/-- TIME_SEC_HI_READ (R71): Reading TIME_SEC_HI releases the seat's time latch. -/
def execTimeSecHiRead (n : Nat) (s : State) : Host.Outcome State Fault Refusal :=
  act s (.timeSecHiRead n) fun d => d.whenUp fun d => d.timeSecHiRead n

/-- TICK_LO_READ (R84): Reading TICK_LO or TB_CNT_LO latches the matching high word. -/
def execTickLoRead (n : Nat) (c : Nat) (cnt : Bool) (s : State) : Host.Outcome State Fault Refusal :=
  act s (.tickLoRead n c cnt) fun d => d.whenUp fun d => d.tickLoRead n c cnt

/-- VAULT_CNT_LO_READ (R282): Reading VAULT_CNT_LO latches VAULT_CNT_HI. -/
def execVaultCntLoRead (n : Nat) (s : State) : Host.Outcome State Fault Refusal :=
  act s (.vaultCntLoRead n) fun d => d.whenUp fun d => d.vaultCntLoRead n

/-- RTC_SEC_HI_READ (R82): A read of RTC_SEC_HI by the house seat ends the RTC freeze. -/
def execRtcSecHiRead (n : Nat) (s : State) : Host.Outcome State Fault Refusal :=
  act s (.rtcSecHiRead n) fun d => d.whenUp fun d => d.rtcSecHiRead n

end Sys2Proof.Machine
end

