-- ==== Sys2Proof/Machine/ExecReset.lean ====
section
/-!
DEFINITION. The meanings of the commands of power, start, reset and temperature: each takes the state and answers the next one.
-/

namespace Sys2Proof.Machine

/-- POWER_ON (R366): VIN rises through the power-on threshold and the device takes an L0 reset and starts. -/
def execPowerOn (away : Nat) (s : State) : Host.Outcome State Fault Refusal :=
  actArrays s (.powerOn away) <| fun p => powerOn p away

/-- DEVICE_START (R338): The device runs the start sequence after L0 or L1, from the strap read to opening the seats. -/
def execDeviceStart (start : StartIn) (s : State) : Host.Outcome State Fault Refusal :=
  actArrays s (.deviceStart start) <| fun p => deviceStart p start

/-- FTL_MAP_LOAD_DONE (R320): The FTL finishes loading the map from the newest valid map checkpoint. -/
def execFtlMapLoadDone (s : State) : Host.Outcome State Fault Refusal :=
  act s .ftlMapLoadDone fun d => d.whenUp fun d => d.mapLoaded

/-- FTL_MAP_REBUILD_DONE (R321): After an unclean stop, the full scan rebuilds the map from the page metadata and sets
FULL_SCAN. -/
def execFtlMapRebuildDone (bad : List (Nat × Nat)) (s : State) : Host.Outcome State Fault Refusal :=
  act s (.ftlMapRebuildDone bad) fun d => d.whenUp fun d => d.mapRebuilt bad

/-- LEDGER_RESTORE (R340): Ledgers, key records, directory, campaign state and ceilings are restored from checkpoint and
journal, and restore completes. -/
def execLedgerRestore (bad : List (Nat × Nat)) (badKeys : List Nat) (same : Bool)
    (s : State) : Host.Outcome State Fault Refusal :=
  act s (.ledgerRestore bad badKeys same) fun d => d.whenUp fun d => d.ledgerRestore bad badKeys same

/-- BROWN_OUT (R379): VIN falls below the brown-out threshold: the RTC locks, the device quiesces, finishes pulses and turns off
its rails. -/
def execBrownOut (c : Nat) (clean : Bool) (s : State) : Host.Outcome State Fault Refusal :=
  act s (.brownOut c clean) fun d => d.brownOut c clean

/-- VIN_SURGE (R381): VIN rises above 60 V, so VIN_OV is set and a major event is recorded. -/
def execVinSurge (vin : Nat) (s : State) : Host.Outcome State Fault Refusal :=
  act s (.vinSurge vin) fun d => d.vinSurge vin

/-- VIN_LOW (R408): VIN enters the band between the brown-out threshold and 4.5 V, and VIN_LOW is set. -/
def execVinLow (vin : Nat) (s : State) : Host.Outcome State Fault Refusal :=
  act s (.vinLow vin) fun d => d.vinLow vin

/-- VIN_REVERSAL (R381): VIN is reversed: the device draws under 1 mA and keeps the RTC on VBAT. -/
def execVinReversal (s : State) : Host.Outcome State Fault Refusal :=
  act s .vinReversal fun d => d.vinReversal

/-- RESET_N_ASSERT (R374): A RESET_N low lasting 1 µs is accepted as the RESET_N reset source. -/
def execResetNAssert (c : Nat) (s : State) : Host.Outcome State Fault Refusal :=
  act s (.resetNAssert c) fun d => d.resetNAssert c

/-- RESET_N_RELEASE (R374): A RESET_N high lasting 1 µs releases the reset. -/
def execResetNRelease (s : State) : Host.Outcome State Fault Refusal :=
  act s .resetNRelease fun d => d.resetNRelease

/-- RESET_N_STUCK (R375): RESET_N is held low for 10 s and is declared stuck; the device leaves reset and ignores the ball. -/
def execResetNStuck (s : State) : Host.Outcome State Fault Refusal :=
  act s .resetNStuck fun d => d.resetNStuck

/-- RESET_N_UNSTUCK (R375): The ball is seen high for 100 ms, IGNORED clears and the ball acts again. -/
def execResetNUnstuck (s : State) : Host.Outcome State Fault Refusal :=
  act s .resetNUnstuck fun d => d.resetNUnstuck

/-- HOUSE_WDOG (R366): A house core watchdog goes unserviced for 200 ticks and raises its reset source. -/
def execHouseWdog (c : Nat) (s : State) : Host.Outcome State Fault Refusal :=
  act s (.houseWdog c) fun d => d.houseWdog c

/-- TICK_WDOG (R60): Mandatory work of tick t is unfinished at the end of t+2, and the tick watchdog reset source is raised. -/
def execTickWdog (c : Nat) (s : State) : Host.Outcome State Fault Refusal :=
  act s (.tickWdog c) fun d => d.tickWdog c

/-- DEBUG_RESET (R366): A write to GLB_DEBUG_RST with the correct key, or the debug port, raises the DEBUG reset source. -/
def execDebugReset (c : Nat) (v : Nat) (port : Bool) (s : State) : Host.Outcome State Fault Refusal :=
  act s (.debugReset c v port) fun d => d.debugReset c v port

/-- RESET_PROPER (R371): Once pending NAND or vault pulses end and the quiesce is done, the reset proper begins. -/
def execResetProper (c : Nat) (s : State) : Host.Outcome State Fault Refusal :=
  actArrays s (.resetProper c) <| fun p => resetProper p c

/-- WARM_RETURN (R373): After L2 release, SRAM is cleared, DRAM resumes, the canvas reloads and seats reopen with missed
boundaries swept. -/
def execWarmReturn (s : State) : Host.Outcome State Fault Refusal :=
  actArrays s .warmReturn <| fun p => warmReturn p

/-- L3_RESET (R205): The ledger engines and the shadow engine are restarted, and queues and ledgers are kept. -/
def execL3Reset (c : Nat) (source : Nat) (s : State) : Host.Outcome State Fault Refusal :=
  act s (.l3Reset c source) fun d => d.accept c source 3

/-- THERM_SAMPLE (R383): The die sensors are read every 100 µs and TJ is updated. -/
def execThermSample (temps : List Int) (s : State) : Host.Outcome State Fault Refusal :=
  act s (.thermSample temps) fun d => d.thermSample temps

/-- THERMAL_SHUTDOWN (R385): TJ stays at or above 125 °C for three readings; the device quiesces and turns off its rails. -/
def execThermalShutdown (c : Nat) (s : State) : Host.Outcome State Fault Refusal :=
  act s (.thermalShutdown c) fun d => d.thermalShutdown c

/-- THERMAL_RESTART (R385): TJ stays below 100 °C for 10 s and the device raises THERMAL and starts as L1. -/
def execThermalRestart (s : State) : Host.Outcome State Fault Refusal :=
  act s .thermalRestart fun d => d.thermalRestart

/-- XTAL_STOP (R83): The 32 kHz crystal stops, or VBAT loses retention, and RTC_STAT.VALID clears. -/
def execXtalStop (vbatLost : Bool) (s : State) : Host.Outcome State Fault Refusal :=
  act s (.xtalStop vbatLost) fun d => d.xtalStop vbatLost

end Sys2Proof.Machine
end

