-- ==== Sys2Proof/Machine/ExecSeatCmds.lean ====
section
/-!
DEFINITION. The meanings of the commands of uplinks, seats and mailboxes: each takes the state and answers the next one.
-/

namespace Sys2Proof.Machine

/-- UPLINK_SEND (R287): Staged uplink records are packed into datagrams or ring 0 by share and sent on one path. -/
def execUplinkSend (w : UpSend) (s : State) : Host.Outcome State Fault Refusal :=
  act s (.uplinkSend w) fun d => d.whenUp fun d => d.uplinkSend w

/-- UPL_ACK (R173): UPL_ACK frees staging up to the named marker on that path. -/
def execUplAck (n : Nat) (tag : Nat) (path : Nat) (s : State) : Host.Outcome State Fault Refusal :=
  act s (.uplAck n tag path) fun d => d.whenUp fun d => d.uplAck n tag path

/-- UPL_RETX (R173): UPL_RETX starts resending a marker's span with RESENT, or sets NOTAG. -/
def execUplRetx (n : Nat) (tag : Nat) (path : Nat) (s : State) : Host.Outcome State Fault Refusal :=
  act s (.uplRetx n tag path) fun d => d.whenUp fun d => d.uplRetx n tag path

/-- UPL_RETX_DONE (R173): A retransmission ends with its marker, and RETX_BUSY clears. -/
def execUplRetxDone (n : Nat) (s : State) : Host.Outcome State Fault Refusal :=
  act s (.uplRetxDone n) fun d => d.whenUp fun d => d.uplRetxDone n

/-- UPLINK_FRAME_RX (R286): An uplink frame is sorted by VLAN, MACsec-checked and delivered with its receive descriptor. -/
def execUplinkFrameRx (uplink : Nat) (c : Nat) (frame : Bytes) (mac : Option Bytes)
    (s : State) : Host.Outcome State Fault Refusal :=
  act s (.uplinkFrameRx uplink c frame mac) fun d => d.whenUp fun d => d.uplinkFrameRx uplink c frame mac

/-- REG_ACCESS_DATAGRAM (R289): A register access datagram is performed as seat accesses and answered, or repeated or refused.
-/
def execRegAccessDatagram (n : Nat) (c : Nat) (s : State) : Host.Outcome State Fault Refusal :=
  actRead s (.regAccessDatagram n c) fun a d => d.whenUp fun d => d.regDatagram a n c

/-- RING_HOST_PTR_WRITE (R290): The host advances its ring pointer, and readout requests are taken within 1 tick. -/
def execRingHostPtrWrite (n : Nat) (r : Nat) (v : Nat) (items : List Bytes) (s : State) : Host.Outcome State Fault Refusal :=
  act s (.ringHostPtrWrite n r v items) fun d => d.whenUp fun d => d.ringHostWrite n r v items

/-- ADIR_INSERT (R292): INSERT adds or replaces a directory key for the seat. -/
def execAdirInsert (n : Nat) (s : State) : Host.Outcome State Fault Refusal :=
  act s (.adirInsert n) fun d => d.whenUp fun d => d.adirInsert n

/-- ADIR_DELETE (R292): DELETE removes a directory key. -/
def execAdirDelete (n : Nat) (s : State) : Host.Outcome State Fault Refusal :=
  act s (.adirDelete n) fun d => d.whenUp fun d => d.adirDelete n

/-- ADIR_LOOKUP (R292): LOOKUP writes the slot of a key to ADIR_ARG. -/
def execAdirLookup (n : Nat) (s : State) : Host.Outcome State Fault Refusal :=
  act s (.adirLookup n) fun d => d.whenUp fun d => d.adirLookup n

/-- VF_FLR (R285): An FLR of VF n performs L4 of seat n. -/
def execVfFlr (n : Nat) (s : State) : Host.Outcome State Fault Refusal :=
  act s (.vfFlr n) fun d => d.whenUp fun d => d.vfFlr n

/-- PF_FLR (R285): An FLR of the PF clears VF Enable and performs L4 of seat 0 and every PCIe seat. -/
def execPfFlr (s : State) : Host.Outcome State Fault Refusal :=
  act s .pfFlr fun d => d.whenUp fun d => d.pfFlr

/-- SEAT_L4 (R295): SEAT_CTL.L4 starts an L4 reset of the seat. -/
def execSeatL4 (n : Nat) (s : State) : Host.Outcome State Fault Refusal :=
  act s (.seatL4 n) fun d => d.whenUp fun d => d.l4 n

/-- SEAT_REOPEN (R295): The seat reopens with sequence 0, sets L4_SEEN and rings bit 28. -/
def execSeatReopen (n : Nat) (s : State) : Host.Outcome State Fault Refusal :=
  act s (.seatReopen n) fun d => d.whenUp fun d => d.seatReopen n

/-- MBX_DOORBELL (R297): A doorbell write sets a pending bit or merges, subject to ring rights. -/
def execMbxDoorbell (ag : Agent) (m : Nat) (v : Nat) (s : State) : Host.Outcome State Fault Refusal :=
  act s (.mbxDoorbell ag m v) fun d => d.whenUp fun d => d.mbxDoorbell ag m v

/-- DOORBELL_NOTICE_VISIBLE (R33): A FENCE doorbell's notice becomes visible once the writer's posted writes have drained. -/
def execDoorbellNoticeVisible (ag : Agent) (s : State) : Host.Outcome State Fault Refusal :=
  act s (.doorbellNoticeVisible ag) fun d => d.whenUp fun d => d.doorbellVisible ag

/-- MBX_LOCK (R299): A read of MBX_LOCK requests the lock and returns the winner. -/
def execMbxLock (ags : List Agent) (m : Nat) (s : State) : Host.Outcome State Fault Refusal :=
  act s (.mbxLock ags m) fun d => d.whenUp fun d => d.mbxLock ags m

/-- MBX_UNLOCK (R299): A REL write releases the lock, if it comes from a permitted releaser. -/
def execMbxUnlock (ag : Agent) (m : Nat) (v : Nat) (s : State) : Host.Outcome State Fault Refusal :=
  act s (.mbxUnlock ag m v) fun d => d.whenUp fun d => d.mbxUnlock ag m v

/-- DOORBELL_AGED (R300): A bit pending for 1,000 ticks sets AGED and records a notice event. -/
def execDoorbellAged (m : Nat) (s : State) : Host.Outcome State Fault Refusal :=
  act s (.doorbellAged m) fun d => d.whenUp fun d => d.doorbellAged m

/-- LOCK_TIMEOUT (R300): A lock held for 100 ticks is released by the device and counted. -/
def execLockTimeout (m : Nat) (s : State) : Host.Outcome State Fault Refusal :=
  act s (.lockTimeout m) fun d => d.whenUp fun d => d.lockTimeout m

end Sys2Proof.Machine
end

