-- ==== Sys2Proof/Machine/ExecTicks.lean ====
section
/-!
DEFINITION. The meanings of the commands of ticks, journal and fences: each takes the state and answers the next one.
-/

namespace Sys2Proof.Machine

/-- TICK_BOUNDARY (R56): At each tick boundary every block closes the ending tick's work and opens the next under its budget. -/
def execTickBoundary (power : PowerIn) (s : State) : Host.Outcome State Fault Refusal :=
  act s (.tickBoundary power) fun d => d.tickBoundary power

/-- JOURNAL_COMMIT (R26): The tick's journal deltas, including commit records, are committed to the NAND one-bit region. -/
def execJournalCommit (s : State) : Host.Outcome State Fault Refusal :=
  act s .journalCommit fun d => d.whenUp fun d => d.journalCommit.beatNow

/-- FENCE_COMPLETE (R26): A ledger fence completes at the first boundary where pre-fence records are applied and journalled, and
it rings its doorbell. -/
def execFenceComplete (n : Nat) (s : State) : Host.Outcome State Fault Refusal :=
  act s (.fenceComplete n) fun d => d.whenUp fun d => d.fenceComplete n

/-- UPLINK_FENCE_MARKER (R31): After the pre-fence uplink records, a fence marker with its count is emitted on every path of the
stream. -/
def execUplinkFenceMarker (n : Nat) (path : Nat) (s : State) : Host.Outcome State Fault Refusal :=
  act s (.uplinkFenceMarker n path) fun d => d.whenUp fun d => d.fenceMarker n path

end Sys2Proof.Machine
end

