-- ==== Sys2Proof/Machine/ExecTimes.lean ====
section
/-!
DEFINITION. The meanings of the commands of time, triggers and the real-time clock: each takes the state and answers the next
one.
-/

namespace Sys2Proof.Machine

/-- TIME_STEP (R73): A STEP command adds the amount within 1 µs, or makes it the pending step, and cancels any slew. -/
def execTimeStep (c : Nat) (s : State) : Host.Outcome State Fault Refusal :=
  act s (.timeStep c) fun d => d.whenUp fun d => d.timeStep c

/-- TIME_STEP_APPLY (R73): A pending step larger than 1 ms is added to OFS at the next boundary. -/
def execTimeStepApply (s : State) : Host.Outcome State Fault Refusal :=
  act s .timeStepApply fun d => d.whenUp fun d => d.timeStepApply

/-- TIME_SLEW (R74): A SLEW command starts or replaces a slew, or is refused with ADJ_REJ. -/
def execTimeSlew (c : Nat) (ppm : Nat) (s : State) : Host.Outcome State Fault Refusal :=
  act s (.timeSlew c ppm) fun d => d.whenUp fun d => d.timeSlew c ppm

/-- SLEW_DONE (R74): The slew amount is used up and SLEW_ACT clears. -/
def execSlewDone (c : Nat) (s : State) : Host.Outcome State Fault Refusal :=
  act s (.slewDone c) fun d => d.whenUp fun d => d.slewDone c

/-- TIME_DISCIPLINE (R75): DISC with a source sets VALID and the source, and zeroes TIME_HOLD. -/
def execTimeDiscipline (c : Nat) (src : Nat) (s : State) : Host.Outcome State Fault Refusal :=
  act s (.timeDiscipline c src) fun d => d.whenUp fun d => d.timeDiscipline c src

/-- TIME_RATE_WRITE (R69): Writing TIME_RATE folds the accrued term into OFS and takes the new rate. -/
def execTimeRateWrite (c : Nat) (v : Nat) (s : State) : Host.Outcome State Fault Refusal :=
  act s (.timeRateWrite c v) fun d => d.whenUp fun d => d.timeRateWrite c v

/-- HOLDOVER_EXPIRE (R75): TIME_HOLD exceeds the holdover limit, so VALID clears and a major event is recorded. -/
def execHoldoverExpire (s : State) : Host.Outcome State Fault Refusal :=
  act s .holdoverExpire fun d => d.whenUp fun d => d.holdoverExpire

/-- LEAP_SECOND (R70): At the UTC midnight after PEND, UTC_OFS changes by one and the change is swept as a step. -/
def execLeapSecond (c : Nat) (s : State) : Host.Outcome State Fault Refusal :=
  act s (.leapSecond c) fun d => d.whenUp fun d => d.leapSecond c

/-- PPS_EDGE (R76): An accepted PPS edge is timestamped into PPS_TS and clears PPS_LOST. -/
def execPpsEdge (c : Nat) (s : State) : Host.Outcome State Fault Refusal :=
  act s (.ppsEdge c) fun d => d.whenUp fun d => d.ppsEdge c

/-- PPS_LOSS (R76): No PPS edge is accepted for 1.5 s, so PPS is declared lost. -/
def execPpsLoss (c : Nat) (s : State) : Host.Outcome State Fault Refusal :=
  act s (.ppsLoss c) fun d => d.whenUp fun d => d.ppsLoss c

/-- TRIG_ARM (R79): A TRIG_CTL write with ARM 1 arms the trigger, or refuses it and sets MISSED. -/
def execTrigArm (i : Nat) (v : Nat) (s : State) : Host.Outcome State Fault Refusal :=
  act s (.trigArm i v) fun d => d.whenUp fun d => d.trigCtlWrite i v

/-- TRIG_TICK_WRITE (R79): A write of TRIG_TICK while armed re-arms the trigger from the new value. -/
def execTrigTickWrite (i : Nat) (v : Nat) (s : State) : Host.Outcome State Fault Refusal :=
  act s (.trigTickWrite i v) fun d => d.whenUp fun d => d.trigTickWrite i v

/-- TRIG_FIRE (R79): A trigger fires at its boundary, starting a sample sync or ringing a control doorbell, and rearms under
PERIOD. -/
def execTrigFire (i : Nat) (s : State) : Host.Outcome State Fault Refusal :=
  act s (.trigFire i) fun d => d.whenUp fun d => d.trigFire i

/-- RTC_CHECK (R80): Every 60 s with an outside source, the RTC is checked, aligned if needed, and LASTSYNC is written. -/
def execRtcCheck (c : Nat) (s : State) : Host.Outcome State Fault Refusal :=
  act s (.rtcCheck c) fun d => d.whenUp fun d => d.rtcCheck c

/-- RTC_COMPENSATE (R81): The RTC reads the sensor and corrects its rate by the curve. -/
def execRtcCompensate (c : Nat) (t10 : Int) (onVbat : Bool) (s : State) : Host.Outcome State Fault Refusal :=
  act s (.rtcCompensate c t10 onVbat) fun d => d.rtcCompensate c t10 onVbat

/-- RTC_CAPTURE (R82): CAPTURE copies the live RTC count into the shadows and freezes them. -/
def execRtcCapture (c : Nat) (s : State) : Host.Outcome State Fault Refusal :=
  act s (.rtcCapture c) fun d => d.whenRtc Reg.RTC_CTL.CAPTURE.off fun d => d.rtcCapture c

/-- RTC_CURVE_SAVE (R81): CURVE_SAVE writes RTC_CURVE to the vault NV array. -/
def execRtcCurveSave (s : State) : Host.Outcome State Fault Refusal :=
  act s .rtcCurveSave fun d => d.whenRtc Reg.RTC_CTL.CURVE_SAVE.off fun d => d.rtcCurveSave

/-- OPERATING_HOUR (R277): Vault counter 4 advances at each completed hour of running. -/
def execOperatingHour (c : Nat) (s : State) : Host.Outcome State Fault Refusal :=
  act s (.operatingHour c) fun d => d.whenUp fun d => d.operatingHour c

end Sys2Proof.Machine
end

