-- ==== Sys2Proof/Machine/ExecUpdateCmds.lean ====
section
/-!
DEFINITION. The meanings of the commands of own-firmware update: each takes the state and answers the next one.
-/

namespace Sys2Proof.Machine

/-- UPD_STAGE (R356): STAGE starts the fetch of an own-firmware image. -/
def execUpdStage (downgrade : Bool) (s : State) : Host.Outcome State Fault Refusal :=
  act s (.updStage downgrade) fun d => d.whenUp fun d => d.updStage downgrade

/-- UPD_STAGE_DONE (R356): The image is checked and written to the free store as STAGED, or rejected. -/
def execUpdStageDone (img : Option Bytes) (s : State) : Host.Outcome State Fault Refusal :=
  act s (.updStageDone img) fun d => d.whenUp fun d => d.updStageDone img

/-- UPD_ARM (R357): ARM schedules hitless activation at tick T, or reports 0x08. -/
def execUpdArm (s : State) : Host.Outcome State Fault Refusal :=
  act s .updArm fun d => d.whenUp fun d => d.updArm

/-- UPD_ACTIVATE (R357): At T the house cores hand over to the new image and the shadow loads the new microcode. -/
def execUpdActivate (s : State) : Host.Outcome State Fault Refusal :=
  act s .updActivate fun d => d.whenUp fun d => d.updActivate

/-- ENGINE_MICROCODE_SWAP (R358): In tick T + 1 + e, engine e loads new microcode while the shadow runs its work. -/
def execEngineMicrocodeSwap (e : Nat) (s : State) : Host.Outcome State Fault Refusal :=
  act s (.engineMicrocodeSwap e) fun d => d.whenUp fun d => d.engineSwap e

/-- MICROCODE_SWAP_DONE (R358): At T + 17 the shadow returns to sampling and SWAP_DONE is set. -/
def execMicrocodeSwapDone (s : State) : Host.Outcome State Fault Refusal :=
  act s .microcodeSwapDone fun d => d.whenUp fun d => d.swapDone

/-- UPD_RESTART (R359): RESTART raises the canvas reload source to activate a RESTART image. -/
def execUpdRestart (c : Nat) (s : State) : Host.Outcome State Fault Refusal :=
  act s (.updRestart c) fun d => d.whenUp fun d => d.updRestart c

/-- UPD_CANCEL (R356): CANCEL frees a STAGED or ARMED image. -/
def execUpdCancel (s : State) : Host.Outcome State Fault Refusal :=
  act s .updCancel fun d => d.whenUp fun d => d.updCancel

/-- UPD_HEALTHY (R361): The house firmware reports health by writing HEALTHY. -/
def execUpdHealthy (s : State) : Host.Outcome State Fault Refusal :=
  act s .updHealthy fun d => d.whenUp fun d => d.updHealthy

/-- UPD_CONFIRM (R361): At a boundary with WIN clean ticks and fresh health, the image is confirmed. -/
def execUpdConfirm (s : State) : Host.Outcome State Fault Refusal :=
  act s .updConfirm fun d => d.whenUp fun d => d.updConfirm

/-- UPD_REVERT (R362): REVERT during TRIAL falls back to the previous image. -/
def execUpdRevert (c : Nat) (s : State) : Host.Outcome State Fault Refusal :=
  act s (.updRevert c) fun d => d.whenUp fun d => d.updRevert c

/-- TRIAL_DEADLINE (R362): TRIAL lasts 3 × WIN ticks unconfirmed and the device falls back. -/
def execTrialDeadline (c : Nat) (s : State) : Host.Outcome State Fault Refusal :=
  act s (.trialDeadline c) fun d => d.whenUp fun d => d.trialDeadline c

end Sys2Proof.Machine
end

