-- ==== Sys2Proof/Machine/ExecVaultCmds.lean ====
section
/-!
DEFINITION. The meanings of the commands of the vault: each takes the state and answers the next one.
-/

namespace Sys2Proof.Machine

/-- VAULT_ENROL (R263): ENROL derives the owner secret into slot 1 and publishes dpub, bind and conf, or is refused. -/
def execVaultEnrol (n : Nat) (ps : Pulses) (s : State) : Host.Outcome State Fault Refusal :=
  act s (.vaultEnrol n ps) fun d => d.whenUp fun d => d.vaultEnrol n ps

/-- VAULT_ZEROISE (R262): ZEROISE with its key erases the root, enrolment, slots and vault store. -/
def execVaultZeroise (n : Nat) (zkey : Nat) (s : State) : Host.Outcome State Fault Refusal :=
  act s (.vaultZeroise n zkey) fun d => d.whenUp fun d => d.vaultZeroise n zkey

/-- VAULT_SUBMIT (R271): SUBMIT queues the seat's update message for fetch, or answers busy. -/
def execVaultSubmit (n : Nat) (s : State) : Host.Outcome State Fault Refusal :=
  act s (.vaultSubmit n) fun d => d.whenUp fun d => d.vaultSubmit n

/-- VAULT_MSG_CHECK (R271): The fetched message is checked in order and refused at the first failure. -/
def execVaultMsgCheck (m : Option Bytes) (s : State) : Host.Outcome State Fault Refusal :=
  act s (.vaultMsgCheck m) fun d => d.whenUp fun d => d.vaultMsgCheck m

/-- VAULT_PUT (R270): PUT unwraps a key into an EMPTY slot and commits it. -/
def execVaultPut (ps : Pulses) (s : State) : Host.Outcome State Fault Refusal :=
  act s (.vaultPut ps) fun d => d.whenUp fun d => d.vaultPut ps

/-- VAULT_REPLACE (R270): REPLACE writes a new key into the slot with the same ATTR and parent. -/
def execVaultReplace (ps : Pulses) (s : State) : Host.Outcome State Fault Refusal :=
  act s (.vaultReplace ps) fun d => d.whenUp fun d => d.vaultReplace ps

/-- VAULT_DESTROY (R269): DESTROY empties a slot and starts the orphan sweep of its descendants. -/
def execVaultDestroy (ps : Pulses) (s : State) : Host.Outcome State Fault Refusal :=
  act s (.vaultDestroy ps) fun d => d.whenUp fun d => d.vaultDestroy ps

/-- VAULT_DERIVE (R270): DERIVE writes an EMPTY slot with an HKDF child of a derivation base. -/
def execVaultDerive (ps : Pulses) (s : State) : Host.Outcome State Fault Refusal :=
  act s (.vaultDerive ps) fun d => d.whenUp fun d => d.vaultDerive ps

/-- METER_KEY (R275): METER_KEY advances the counter and stages a meter key record for the journal. -/
def execMeterKey (ps : Pulses) (s : State) : Host.Outcome State Fault Refusal :=
  act s (.meterKey ps) fun d => d.whenUp fun d => d.meterKey ps

/-- ORPHAN_SWEEP_DONE (R269): The sweep has written ORPHAN into every descendant, and SWEEP clears. -/
def execOrphanSweepDone (s : State) : Host.Outcome State Fault Refusal :=
  act s .orphanSweepDone fun d => d.whenUp fun d => d.orphanSweepDone

/-- VAULT_CHAL (R276): CHAL computes the HMAC challenge response for a permitted slot. -/
def execVaultChal (n : Nat) (s : State) : Host.Outcome State Fault Refusal :=
  act s (.vaultChal n) fun d => d.whenUp fun d => d.vaultChal n

/-- VAULT_EXPORT (R274): EXPORT writes the selected slot's key, wrapped under its parent's K_tx, to host memory. -/
def execVaultExport (n : Nat) (s : State) : Host.Outcome State Fault Refusal :=
  act s (.vaultExport n) fun d => d.whenUp fun d => d.vaultExport n

end Sys2Proof.Machine
end

