-- ==== Sys2Proof/Machine/Dispatch.lean ====
section
/-!
DEFINITION. The effect of a command on everything but the queue: one arm for each command.
-/

namespace Sys2Proof.Machine

def exec (i : Instr) (s : State) : Host.Outcome State Fault Refusal :=
  match i with
  | .powerOn away => Sys2Proof.Machine.execPowerOn away s
  | .deviceStart start => Sys2Proof.Machine.execDeviceStart start s
  | .ftlMapLoadDone => Sys2Proof.Machine.execFtlMapLoadDone s
  | .ftlMapRebuildDone bad => Sys2Proof.Machine.execFtlMapRebuildDone bad s
  | .ledgerRestore bad badKeys same => Sys2Proof.Machine.execLedgerRestore bad badKeys same s
  | .brownOut c clean => Sys2Proof.Machine.execBrownOut c clean s
  | .vinSurge vin => Sys2Proof.Machine.execVinSurge vin s
  | .vinLow vin => Sys2Proof.Machine.execVinLow vin s
  | .vinReversal => Sys2Proof.Machine.execVinReversal s
  | .resetNAssert c => Sys2Proof.Machine.execResetNAssert c s
  | .resetNRelease => Sys2Proof.Machine.execResetNRelease s
  | .resetNStuck => Sys2Proof.Machine.execResetNStuck s
  | .resetNUnstuck => Sys2Proof.Machine.execResetNUnstuck s
  | .houseWdog c => Sys2Proof.Machine.execHouseWdog c s
  | .tickWdog c => Sys2Proof.Machine.execTickWdog c s
  | .debugReset c v port => Sys2Proof.Machine.execDebugReset c v port s
  | .resetProper c => Sys2Proof.Machine.execResetProper c s
  | .warmReturn => Sys2Proof.Machine.execWarmReturn s
  | .l3Reset c source => Sys2Proof.Machine.execL3Reset c source s
  | .thermSample temps => Sys2Proof.Machine.execThermSample temps s
  | .thermalShutdown c => Sys2Proof.Machine.execThermalShutdown c s
  | .thermalRestart => Sys2Proof.Machine.execThermalRestart s
  | .xtalStop vbatLost => Sys2Proof.Machine.execXtalStop vbatLost s
  | .regWrite ag off v c items => Sys2Proof.Machine.execRegWrite ag off v c items s
  | .regAccessMisaligned n off len wdata => Sys2Proof.Machine.execRegAccessMisaligned n off len wdata s
  | .readClear ag off c => Sys2Proof.Machine.execReadClear ag off c s
  | .timeNs32Read n c => Sys2Proof.Machine.execTimeNs32Read n c s
  | .timeSecHiRead n => Sys2Proof.Machine.execTimeSecHiRead n s
  | .tickLoRead n c cnt => Sys2Proof.Machine.execTickLoRead n c cnt s
  | .vaultCntLoRead n => Sys2Proof.Machine.execVaultCntLoRead n s
  | .rtcSecHiRead n => Sys2Proof.Machine.execRtcSecHiRead n s
  | .tickBoundary power => Sys2Proof.Machine.execTickBoundary power s
  | .journalCommit => Sys2Proof.Machine.execJournalCommit s
  | .fenceComplete n => Sys2Proof.Machine.execFenceComplete n s
  | .uplinkFenceMarker n path => Sys2Proof.Machine.execUplinkFenceMarker n path s
  | .decodeApdu its push asRead => Sys2Proof.Machine.execDecodeApdu its push asRead s
  | .apduUnpark e => Sys2Proof.Machine.execApduUnpark e s
  | .applyRecord e cost bad asRead => Sys2Proof.Machine.execApplyRecord e cost bad asRead s
  | .sweepClose slot cost => Sys2Proof.Machine.execSweepClose slot cost s
  | .catchupClose e cost => Sys2Proof.Machine.execCatchupClose e cost s
  | .slotRepairDone slot partner => Sys2Proof.Machine.execSlotRepairDone slot partner s
  | .slotRepairTimeout slot => Sys2Proof.Machine.execSlotRepairTimeout slot s
  | .ldgSlotReinit => Sys2Proof.Machine.execLdgSlotReinit s
  | .shadowExecute cost cmp => Sys2Proof.Machine.execShadowExecute cost cmp s
  | .shadowCorrectionInstall slot => Sys2Proof.Machine.execShadowCorrectionInstall slot s
  | .ldgFence n v => Sys2Proof.Machine.execLdgFence n v s
  | .ldgRerateGo n => Sys2Proof.Machine.execLdgRerateGo n s
  | .rerateOrderApply e cost => Sys2Proof.Machine.execRerateOrderApply e cost s
  | .billingCloseAction n slot => Sys2Proof.Machine.execBillingCloseAction n slot s
  | .billingOrderApply e cost => Sys2Proof.Machine.execBillingOrderApply e cost s
  | .readoutRequest n => Sys2Proof.Machine.execReadoutRequest n s
  | .timeStep c => Sys2Proof.Machine.execTimeStep c s
  | .timeStepApply => Sys2Proof.Machine.execTimeStepApply s
  | .timeSlew c ppm => Sys2Proof.Machine.execTimeSlew c ppm s
  | .slewDone c => Sys2Proof.Machine.execSlewDone c s
  | .timeDiscipline c src => Sys2Proof.Machine.execTimeDiscipline c src s
  | .timeRateWrite c v => Sys2Proof.Machine.execTimeRateWrite c v s
  | .holdoverExpire => Sys2Proof.Machine.execHoldoverExpire s
  | .leapSecond c => Sys2Proof.Machine.execLeapSecond c s
  | .ppsEdge c => Sys2Proof.Machine.execPpsEdge c s
  | .ppsLoss c => Sys2Proof.Machine.execPpsLoss c s
  | .trigArm k v => Sys2Proof.Machine.execTrigArm k v s
  | .trigTickWrite k v => Sys2Proof.Machine.execTrigTickWrite k v s
  | .trigFire k => Sys2Proof.Machine.execTrigFire k s
  | .rtcCheck c => Sys2Proof.Machine.execRtcCheck c s
  | .rtcCompensate c t10 onVbat => Sys2Proof.Machine.execRtcCompensate c t10 onVbat s
  | .rtcCapture c => Sys2Proof.Machine.execRtcCapture c s
  | .rtcCurveSave => Sys2Proof.Machine.execRtcCurveSave s
  | .operatingHour c => Sys2Proof.Machine.execOperatingHour c s
  | .frameIngest p bytes err => Sys2Proof.Machine.execFrameIngest p bytes err s
  | .arbiterRound t => Sys2Proof.Machine.execArbiterRound t s
  | .frameToPool how => Sys2Proof.Machine.execFrameToPool how s
  | .fifoPtrMismatch p => Sys2Proof.Machine.execFifoPtrMismatch p s
  | .portShort p => Sys2Proof.Machine.execPortShort p s
  | .portOpen p => Sys2Proof.Machine.execPortOpen p s
  | .rxPairReversed p => Sys2Proof.Machine.execRxPairReversed p s
  | .portRetry p => Sys2Proof.Machine.execPortRetry p s
  | .portFlush p => Sys2Proof.Machine.execPortFlush p s
  | .fieldlinkAutoneg p gigFull => Sys2Proof.Machine.execFieldlinkAutoneg p gigFull s
  | .pauseRx p c opcode quanta => Sys2Proof.Machine.execPauseRx p c opcode quanta s
  | .pauseRelease p => Sys2Proof.Machine.execPauseRelease p s
  | .edgeInput e level glitch c => Sys2Proof.Machine.execEdgeInput e level glitch c s
  | .edgeSettle e c => Sys2Proof.Machine.execEdgeSettle e c s
  | .irqStuck p c => Sys2Proof.Machine.execIrqStuck p c s
  | .irqPoll p => Sys2Proof.Machine.execIrqPoll p s
  | .irqUnstuck p c => Sys2Proof.Machine.execIrqUnstuck p c s
  | .fpGrpRstWrite v => Sys2Proof.Machine.execFpGrpRstWrite v s
  | .afeSampleBlock p chars marks => Sys2Proof.Machine.execAfeSampleBlock p chars marks s
  | .plcOverload p sym => Sys2Proof.Machine.execPlcOverload p sym s
  | .afeStatusBlock p chars => Sys2Proof.Machine.execAfeStatusBlock p chars s
  | .afeLockLoss p atAfe => Sys2Proof.Machine.execAfeLockLoss p atAfe s
  | .plcFrameRx p sender frame zc => Sys2Proof.Machine.execPlcFrameRx p sender frame zc s
  | .plcJoinRequest r => Sys2Proof.Machine.execPlcJoinRequest r s
  | .railFrameSend c busy => Sys2Proof.Machine.execRailFrameSend c busy s
  | .railFrameRx c bs => Sys2Proof.Machine.execRailFrameRx c bs s
  | .railAckTimeout => Sys2Proof.Machine.execRailAckTimeout s
  | .railImpulse t above => Sys2Proof.Machine.execRailImpulse t above s
  | .railPilot level => Sys2Proof.Machine.execRailPilot level s
  | .beacon p => Sys2Proof.Machine.execBeacon p s
  | .radioFrameRx p c f fcsOk endSet late => Sys2Proof.Machine.execRadioFrameRx p c f fcsOk endSet late s
  | .dataRequest p c f fcsOk endSet late => Sys2Proof.Machine.execDataRequest p c f fcsOk endSet late s
  | .indirectTx p fails => Sys2Proof.Machine.execIndirectTx p fails s
  | .indirectExpire p => Sys2Proof.Machine.execIndirectExpire p s
  | .associationRequest p r => Sys2Proof.Machine.execAssociationRequest p r s
  | .gtsRequest p r => Sys2Proof.Machine.execGtsRequest p r s
  | .grantRaise c => Sys2Proof.Machine.execGrantRaise c s
  | .grantPeerRise c => Sys2Proof.Machine.execGrantPeerRise c s
  | .grantPeerFall c => Sys2Proof.Machine.execGrantPeerFall c s
  | .partnerPsdu p t0 dup f => Sys2Proof.Machine.execPartnerPsdu p t0 dup f s
  | .reassembleFragment g => Sys2Proof.Machine.execReassembleFragment g s
  | .reasmTimeout => Sys2Proof.Machine.execReasmTimeout s
  | .cipherDecrypt k => Sys2Proof.Machine.execCipherDecrypt k s
  | .cipherEncrypt slot port sys pt => Sys2Proof.Machine.execCipherEncrypt slot port sys pt s
  | .uplinkSend w => Sys2Proof.Machine.execUplinkSend w s
  | .uplAck n tag path => Sys2Proof.Machine.execUplAck n tag path s
  | .uplRetx n tag path => Sys2Proof.Machine.execUplRetx n tag path s
  | .uplRetxDone n => Sys2Proof.Machine.execUplRetxDone n s
  | .uplinkFrameRx uplink c frame mac => Sys2Proof.Machine.execUplinkFrameRx uplink c frame mac s
  | .regAccessDatagram n c => Sys2Proof.Machine.execRegAccessDatagram n c s
  | .ringHostPtrWrite n r v items => Sys2Proof.Machine.execRingHostPtrWrite n r v items s
  | .adirInsert n => Sys2Proof.Machine.execAdirInsert n s
  | .adirDelete n => Sys2Proof.Machine.execAdirDelete n s
  | .adirLookup n => Sys2Proof.Machine.execAdirLookup n s
  | .vfFlr n => Sys2Proof.Machine.execVfFlr n s
  | .pfFlr => Sys2Proof.Machine.execPfFlr s
  | .seatL4 n => Sys2Proof.Machine.execSeatL4 n s
  | .seatReopen n => Sys2Proof.Machine.execSeatReopen n s
  | .mbxDoorbell ag m v => Sys2Proof.Machine.execMbxDoorbell ag m v s
  | .doorbellNoticeVisible ag => Sys2Proof.Machine.execDoorbellNoticeVisible ag s
  | .mbxLock ags m => Sys2Proof.Machine.execMbxLock ags m s
  | .mbxUnlock ag m v => Sys2Proof.Machine.execMbxUnlock ag m v s
  | .doorbellAged m => Sys2Proof.Machine.execDoorbellAged m s
  | .lockTimeout m => Sys2Proof.Machine.execLockTimeout m s
  | .sramAccess c reqs ups => Sys2Proof.Machine.execSramAccess c reqs ups s
  | .sramAtomic c req addr n op v ups => Sys2Proof.Machine.execSramAtomic c req addr n op v ups s
  | .partialWrite sel addr bs ups => Sys2Proof.Machine.execPartialWrite sel addr bs ups s
  | .poisonRead r => Sys2Proof.Machine.execPoisonRead r s
  | .patrolScrub w ups => Sys2Proof.Machine.execPatrolScrub w ups s
  | .dramScrub w ups => Sys2Proof.Machine.execDramScrub w ups s
  | .bankRetention c bank => Sys2Proof.Machine.execBankRetention c bank s
  | .memClrCollide v => Sys2Proof.Machine.execMemClrCollide v s
  | .checkpointPassDone => Sys2Proof.Machine.execCheckpointPassDone s
  | .fold => Sys2Proof.Machine.execFold s
  | .garbageCollect stream => Sys2Proof.Machine.execGarbageCollect stream s
  | .wearLevelMove => Sys2Proof.Machine.execWearLevelMove s
  | .nandProgramFail id => Sys2Proof.Machine.execNandProgramFail id s
  | .nandRefresh id highErrors => Sys2Proof.Machine.execNandRefresh id highErrors s
  | .canvasStage mode => Sys2Proof.Machine.execCanvasStage mode s
  | .canvasFetchDone bytes => Sys2Proof.Machine.execCanvasFetchDone bytes s
  | .canvasCheckDone => Sys2Proof.Machine.execCanvasCheckDone s
  | .canvasStaged => Sys2Proof.Machine.execCanvasStaged s
  | .partnerCanvas m => Sys2Proof.Machine.execPartnerCanvas m s
  | .partnerValidationReport code => Sys2Proof.Machine.execPartnerValidationReport code s
  | .canvasArm => Sys2Proof.Machine.execCanvasArm s
  | .canvasApplyAbandon => Sys2Proof.Machine.execCanvasApplyAbandon s
  | .canvasApply => Sys2Proof.Machine.execCanvasApply s
  | .canvasCommit => Sys2Proof.Machine.execCanvasCommit s
  | .canvasReload c => Sys2Proof.Machine.execCanvasReload c s
  | .canvasCancel => Sys2Proof.Machine.execCanvasCancel s
  | .canvasCtlConflict v => Sys2Proof.Machine.execCanvasCtlConflict v s
  | .campCreate n => Sys2Proof.Machine.execCampCreate n s
  | .campFetchDone k body => Sys2Proof.Machine.execCampFetchDone k body s
  | .campStart n seen => Sys2Proof.Machine.execCampStart n seen s
  | .campPause n => Sys2Proof.Machine.execCampPause n s
  | .campResume n => Sys2Proof.Machine.execCampResume n s
  | .campAbort n => Sys2Proof.Machine.execCampAbort n s
  | .campRelease n => Sys2Proof.Machine.execCampRelease n s
  | .campTxSlot p sys airtime busy seen => Sys2Proof.Machine.execCampTxSlot p sys airtime busy seen s
  | .campResponse k slot answer => Sys2Proof.Machine.execCampResponse k slot answer s
  | .campAttemptTimeout k slot => Sys2Proof.Machine.execCampAttemptTimeout k slot s
  | .vaultEnrol n ps => Sys2Proof.Machine.execVaultEnrol n ps s
  | .vaultZeroise n zkey => Sys2Proof.Machine.execVaultZeroise n zkey s
  | .vaultSubmit n => Sys2Proof.Machine.execVaultSubmit n s
  | .vaultMsgCheck m => Sys2Proof.Machine.execVaultMsgCheck m s
  | .vaultPut ps => Sys2Proof.Machine.execVaultPut ps s
  | .vaultReplace ps => Sys2Proof.Machine.execVaultReplace ps s
  | .vaultDestroy ps => Sys2Proof.Machine.execVaultDestroy ps s
  | .vaultDerive ps => Sys2Proof.Machine.execVaultDerive ps s
  | .meterKey ps => Sys2Proof.Machine.execMeterKey ps s
  | .orphanSweepDone => Sys2Proof.Machine.execOrphanSweepDone s
  | .vaultChal n => Sys2Proof.Machine.execVaultChal n s
  | .vaultExport n => Sys2Proof.Machine.execVaultExport n s
  | .linkHello l h => Sys2Proof.Machine.execLinkHello l h s
  | .linkDelayMeasure l ns => Sys2Proof.Machine.execLinkDelayMeasure l ns s
  | .dealFrameForward k b => Sys2Proof.Machine.execDealFrameForward k b s
  | .discover x => Sys2Proof.Machine.execDiscover x s
  | .elect pos side plan => Sys2Proof.Machine.execElect pos side plan s
  | .dealer m => Sys2Proof.Machine.execDealer m s
  | .mgmt rail c b => Sys2Proof.Machine.execMgmt rail c b s
  | .electionListenExpire c => Sys2Proof.Machine.execElectionListenExpire c s
  | .discoverSend c => Sys2Proof.Machine.execDiscoverSend c s
  | .discoverEnd c => Sys2Proof.Machine.execDiscoverEnd c s
  | .electWaitExpire c => Sys2Proof.Machine.execElectWaitExpire c s
  | .dealerAnnounce c => Sys2Proof.Machine.execDealerAnnounce c s
  | .sync k b at0 resid c => Sys2Proof.Machine.execSync k b at0 resid c s
  | .syncLoss => Sys2Proof.Machine.execSyncLoss s
  | .syncReelect c => Sys2Proof.Machine.execSyncReelect c s
  | .alignFault => Sys2Proof.Machine.execAlignFault s
  | .casRenumber c => Sys2Proof.Machine.execCasRenumber c s
  | .dir m => Sys2Proof.Machine.execDir m s
  | .casDirQuery => Sys2Proof.Machine.execCasDirQuery s
  | .dirAnswer title r => Sys2Proof.Machine.execDirAnswer title r s
  | .check m => Sys2Proof.Machine.execCheck m s
  | .checkAnswer code => Sys2Proof.Machine.execCheckAnswer code s
  | .partialIn bs => Sys2Proof.Machine.execPartialIn bs s
  | .spanEvalTimeout => Sys2Proof.Machine.execSpanEvalTimeout s
  | .result bs => Sys2Proof.Machine.execResult bs s
  | .nodeEvaluate x => Sys2Proof.Machine.execNodeEvaluate x s
  | .balRebase n => Sys2Proof.Machine.execBalRebase n s
  | .balResetTrack n => Sys2Proof.Machine.execBalResetTrack n s
  | .trackerOrderApply e cost => Sys2Proof.Machine.execTrackerOrderApply e cost s
  | .health m => Sys2Proof.Machine.execHealth m s
  | .healthSend => Sys2Proof.Machine.execHealthSend s
  | .positionLost p => Sys2Proof.Machine.execPositionLost p s
  | .pairing jtick pref => Sys2Proof.Machine.execPairing jtick pref s
  | .heartbeat h => Sys2Proof.Machine.execHeartbeat h s
  | .takeover => Sys2Proof.Machine.execTakeover s
  | .takeoverNotice k b => Sys2Proof.Machine.execTakeoverNotice k b s
  | .roleRelinquish => Sys2Proof.Machine.execRoleRelinquish s
  | .package pk => Sys2Proof.Machine.execPackage pk s
  | .shadowLeftover => Sys2Proof.Machine.execShadowLeftover s
  | .bulk item tick => Sys2Proof.Machine.execBulk item tick s
  | .resyncDone => Sys2Proof.Machine.execResyncDone s
  | .resyncTimeout => Sys2Proof.Machine.execResyncTimeout s
  | .casSwap => Sys2Proof.Machine.execCasSwap s
  | .roleSwap => Sys2Proof.Machine.execRoleSwap s
  | .casReset c r => Sys2Proof.Machine.execCasReset c r s
  | .updStage downgrade => Sys2Proof.Machine.execUpdStage downgrade s
  | .updStageDone img => Sys2Proof.Machine.execUpdStageDone img s
  | .engineMicrocodeSwap e => Sys2Proof.Machine.execEngineMicrocodeSwap e s
  | .updRestart c => Sys2Proof.Machine.execUpdRestart c s
  | .updRevert c => Sys2Proof.Machine.execUpdRevert c s
  | .trialDeadline c => Sys2Proof.Machine.execTrialDeadline c s
  | .evtFetch n => Sys2Proof.Machine.execEvtFetch n s
  | .evtFetchDone n asRead => Sys2Proof.Machine.execEvtFetchDone n asRead s
  | .characterLock p => Sys2Proof.Machine.execCharacterLock p s
  | .blockLockLoss l => Sys2Proof.Machine.execBlockLockLoss l s
  | .dramPowerDown c ch => Sys2Proof.Machine.execDramPowerDown c ch s
  | .laneSleep lane c traffic => Sys2Proof.Machine.execLaneSleep lane c traffic s
  | .updArm => Sys2Proof.Machine.execUpdArm s
  | .updActivate => Sys2Proof.Machine.execUpdActivate s
  | .microcodeSwapDone => Sys2Proof.Machine.execMicrocodeSwapDone s
  | .updCancel => Sys2Proof.Machine.execUpdCancel s
  | .updHealthy => Sys2Proof.Machine.execUpdHealthy s
  | .updConfirm => Sys2Proof.Machine.execUpdConfirm s
  | .eventFlush => Sys2Proof.Machine.execEventFlush s
  | .eventSummary => Sys2Proof.Machine.execEventSummary s
  | .evtInject => Sys2Proof.Machine.execEvtInject s

end Sys2Proof.Machine
end

