-- ==== Sys2Proof/Safety.lean ====
section
/-!
DEFINITION. What counts as a good run: when a command completes and with what it leaves, the canonical form of the memories, and
the parts of the device that reporting something to firmware does not touch.
-/

namespace Sys2Proof.Machine

/-- Command `i` completes on every state whose device is `d`: the next state's device is `e`, and the memories and the waiting
commands are as they were. -/
def Runs (i : Instr) (d e : Dev) : Prop :=
  ∀ (q : List Instr) (a : Arrays), exec i ⟨q, a, d⟩ = .next ⟨q, a, e⟩

/-- Command `i` completes on memories and device `p` and leaves `r`, whatever waits. -/
def RunsOn (i : Instr) (p r : Arrays × Dev) : Prop :=
  ∀ q : List Instr, exec i ⟨q, p.1, p.2⟩ = .next ⟨q, r.1, r.2⟩

/-- The device's other parts change: command `i` answers a next state from `s` only with a device that `P` relates to the one
before. -/
def Leaves (i : Instr) (P : Dev → Dev → Prop) : Prop :=
  ∀ s s' : State, exec i s = .next s' → s'.pending = s.pending ∧ s'.arr = s.arr ∧ P s.dev s'.dev

/-- The canonical form of everything the memory commands keep as sparse lists. -/
def Memory.wf (a : Arrays) : Bool :=
  a.sram.wf && a.dram.wf && SMap.wf (fun _ => 0) a.refused && SMap.wf (fun _ => 0) a.bankUse &&
    SMap.wf (fun _ => 0) a.chanUse && SMap.wf (fun _ => 0) a.fused && SMap.wf (fun _ => 0) a.soft

/-- The device without the parts that a report to firmware changes: registers, events, mailboxes, the seats' interrupt vectors,
and what the device has sent out. -/
def Dev.inner (d : Dev) : Dev := { d with regs := [], evt := {}, mbx := [], seats := [], out := [] }

/-- The device without its clock, and without what `inner` leaves out. -/
def Dev.timeless (d : Dev) : Dev := { d.inner with time := {} }

/-- The commands that may change the addressed memories (R304 to R314), among them those that start or reset the device. -/
def usesMemory : Instr → Bool
  | .powerOn _ | .deviceStart _ | .resetProper _ | .warmReturn | .sramAccess _ _ _ | .sramAtomic _ _ _ _ _ _ _
  | .partialWrite _ _ _ _ | .patrolScrub _ _ | .dramScrub _ _ | .bankRetention _ _ | .dramPowerDown _ _ => true
  | _ => false

/-- The commands that act also while the device is off, quiesced or in reset: reset, supply and temperature, the tick, the
compensation of the real-time clock, which runs on VBAT, and the levels of the edge balls (R81, R106, R366 to R385). -/
def actsAlways : Instr → Bool
  | .powerOn _ | .deviceStart _ | .brownOut _ _ | .vinSurge _ | .vinLow _ | .vinReversal | .resetNAssert _
  | .resetNRelease | .resetNStuck | .resetNUnstuck | .houseWdog _ | .tickWdog _ | .debugReset _ _ _ | .resetProper _
  | .warmReturn | .l3Reset _ _ | .thermSample _ | .thermalShutdown _ | .thermalRestart | .xtalStop _ | .tickBoundary _
  | .rtcCompensate _ _ _ | .edgeInput _ _ _ _ => true
  | _ => false

/-- The commands that can write a register of the real-time clock, whose lock answers them while the device quiesces (R83). -/
def writesRtc : Instr → Bool
  | .regWrite _ _ _ _ _ | .rtcCapture _ | .rtcCurveSave => true
  | _ => false

/-- The invocation counters that the replay unit accepts of those offered to it in turn, from an IC_RX and WIN (R161). -/
def acceptedCounters : Nat → Nat → List Nat → List Nat
  | _, _, [] => []
  | rx, win, ic :: rest =>
    match replayCheck rx win ic with
    | some r => ic :: acceptedCounters r.1 r.2 rest
    | none => acceptedCounters rx win rest

/-- Does a request of SRAM_ACCESS store to an address? -/
def storesTo (r : MemReq) (x : Nat) : Prop := ∃ bs, r.wdata = some bs ∧ r.addr ≤ x ∧ x < r.addr + bs.length

/-- An offset of the register space outside the blocks EVENTS and MAILBOX (0x30000 to 0x4FFFF). -/
def quietOff (o : Nat) : Prop := o < 0x30000 ∨ (0x50000 ≤ o ∧ o < 2 ^ 24)

end Sys2Proof.Machine
end

