-- ==== Sys2Proof/Certificates/Slice0/Obligations.lean ====
section
/-!
DEFINITION. The statements for the provers. Those named …Complete say of each command that it completes, on every device and
operands that meet the conditions named, and with what next state: the memories, the queue and every part of the device that the
next state does not name are as they were. The others state rules of the spec over whole families or over all commands.
-/

open Sys2Proof Sys2Proof.Machine

/-- A step runs the command at the front of the queue on the state with the queue's rest. The queue is the model's (note 3).
-/
def Obligations.StepRunsTheFront : Prop :=
  ∀ (c : Instr) (q : List Instr) (a : Arrays) (d : Dev), step ⟨c :: q, a, d⟩ = exec c ⟨q, a, d⟩

/-- With no command waiting a step changes nothing (the model's choice, note 3). -/
def Obligations.StepIdlesOnEmptyQueue : Prop :=
  ∀ (a : Arrays) (d : Dev), step ⟨[], a, d⟩ = .next ⟨[], a, d⟩

/-- A command whose operands name nothing the device has is refused by name, whatever the state (note 1). -/
def Obligations.IllFormedCommandsAreRefused : Prop :=
  ∀ (c : Instr) (s : State), c.wf = false → exec c s = .refused .operandRange

/-- The five commands that take a memory address fault where it lies outside the 128 MiB of SRAM or the 16 GiB of DRAM (R304,
R313). -/
def Obligations.AddressesOutsideMemoryFault : Prop :=
  ∀ s : State,
    (∀ (c : Nat) (reqs : List MemReq) (ups : List Upset), (Instr.sramAccess c reqs ups).wf = true →
      (∃ r ∈ reqs, 2 ^ 27 ≤ r.addr) → exec (.sramAccess c reqs ups) s = .fault .sramRange) ∧
    (∀ (c req addr n : Nat) (op : AtomicOp) (v : Nat) (ups : List Upset), (Instr.sramAtomic c req addr n op v ups).wf = true →
      2 ^ 27 ≤ addr → exec (.sramAtomic c req addr n op v ups) s = .fault .sramRange) ∧
    (∀ (addr : Nat) (bs : Bytes) (ups : List Upset), (Instr.partialWrite .sram addr bs ups).wf = true → 2 ^ 27 ≤ addr →
      exec (.partialWrite .sram addr bs ups) s = .fault .sramRange) ∧
    (∀ (addr : Nat) (bs : Bytes) (ups : List Upset), (Instr.partialWrite .dram addr bs ups).wf = true → 2 ^ 34 ≤ addr →
      exec (.partialWrite .dram addr bs ups) s = .fault .dramRange) ∧
    (∀ (w : Nat) (ups : List Upset), 2 ^ 24 ≤ w → exec (.patrolScrub w ups) s = .fault .sramRange) ∧
    (∀ (w : Nat) (ups : List Upset), 2 ^ 31 ≤ w → exec (.dramScrub w ups) s = .fault .dramRange)

/-- The machine right after the power-on reset: no command waits, memory is as nothing has written it, the device is in reset
with no canvas, and every register but the effective reset map holds its L0 value (R12, R365, R367). -/
def Obligations.ResetState : Prop :=
  State.reset.pending = [] ∧ State.reset.arr = {} ∧ State.reset.dev.sys.phase = .inReset ∧ State.reset.dev.sys.cold = true ∧
  State.reset.dev.cv.run = none ∧ State.reset.dev.evt = {} ∧ State.reset.dev.pool = {} ∧ State.reset.dev.ports = [] ∧
  State.reset.dev.out = [] ∧
  (∀ off cp : Nat, off < 2 ^ 24 → ¬ (cp = 0 ∧ 0x44 ≤ off ∧ off < 0x6C) →
    State.reset.dev.word off cp = regDefault (cp * 2 ^ 24 + off)) ∧
  State.reset.dev.counter 3 = 1

/-- Power, start and supply commands: where each command completes and what it leaves (R366, R338, R320, R321, R340, R379,
R381, R369).
Covers POWER_ON, DEVICE_START, FTL_MAP_LOAD_DONE, FTL_MAP_REBUILD_DONE, LEDGER_RESTORE, BROWN_OUT, VIN_SURGE, VIN_LOW,
VIN_REVERSAL. -/
def Obligations.PowerAndStartComplete : Prop :=
  (∀ (a : Arrays) (d : Dev) (away : Nat), d.sys.phase = .quiesced → RunsOn (.powerOn away) (a, d) (a,
      { d with sys := { d.sys with vinBack := true } })) ∧
  (∀ (a : Arrays) (d : Dev) (away : Nat), d.sys.phase ≠ .quiesced → RunsOn (.powerOn away) (a, d) ({ fused := a.fused }, d.l0
      away)) ∧
  (∀ (a : Arrays) (d : Dev) (start : StartIn), (Instr.deviceStart start).wf = true → d.sys.phase = .inReset → d.sys.cold =
      true → d.heldByBall = false → RunsOn (.deviceStart start) (a, d) (deviceStart (a, d) start)) ∧
  (∀ (d : Dev), d.sys.phase = .up → d.rd Reg.MEM_FTL_STAT.STATE = 1 → Runs .ftlMapLoadDone d d.ftlMapLoadDone.startOn) ∧
  (∀ (d : Dev) (bad : List (Nat × Nat)), d.sys.phase = .up → d.rd Reg.MEM_FTL_STAT.STATE = 2 → Runs (.ftlMapRebuildDone bad)
      d ((d.ftlMapRebuildDone bad).startOn)) ∧
  (∀ (d : Dev) (bad : List (Nat × Nat)) (badKeys : List Nat) (same : Bool), (Instr.ledgerRestore bad badKeys same).wf = true
      → d.sys.phase = .up → d.step = 6 → Runs (.ledgerRestore bad badKeys same) d (d.ledgerRestore bad badKeys same)) ∧
  (∀ (d : Dev) (c : Nat) (clean : Bool), d.sys.phase ≠ .off → Runs (.brownOut c clean) d (((((if clean then d.ftlCleanStop
      else d).rtcLock).raise Stk.GLB.BROWNOUT).acceptMapped c 1))) ∧
  (∀ (d : Dev) (vin : Nat), (Instr.vinSurge vin).wf = true → Runs (.vinSurge vin) d (if 6000 < vin ∧ d.on Reg.PWR_STAT.VIN_OV
      = false then (d.setVin vin).raise Stk.PWR.VIN_OV else d.setVin vin)) ∧
  (∀ (d : Dev) (vin : Nat), (Instr.vinLow vin).wf = true → Runs (.vinLow vin) d (if vin < 450 ∧ d.on Reg.PWR_STAT.VIN_LOW =
      false then (d.setVin vin).raise Stk.PWR.VIN_LOW else d.setVin vin)) ∧
  (∀ (d : Dev), Runs .vinReversal d ({ d.rtcLock.l1.showBallsOf d.livePorts with sys := { (d.rtcLock.l1.showBallsOf d.livePorts).sys with phase := .off } }))

/-- Reset pins, watchdogs, reset levels and temperature: where each command completes and what it leaves
(17_reset_power_thermal.md, R373, R384, R385).
Covers RESET_N_ASSERT, RESET_N_RELEASE, RESET_N_STUCK, RESET_N_UNSTUCK, HOUSE_WDOG, TICK_WDOG, DEBUG_RESET, RESET_PROPER,
WARM_RETURN, L3_RESET, THERM_SAMPLE, THERMAL_SHUTDOWN, THERMAL_RESTART, XTAL_STOP. -/
def Obligations.ResetAndThermalComplete : Prop :=
  (∀ (d : Dev) (c : Nat), Runs (.resetNAssert c) d (if d.sys.ballStuck then d.wr Reg.GLB_RSTN.LEVEL 0 else (d.wr Reg.GLB_RSTN.LEVEL 0).acceptMapped c 2)) ∧
  (∀ (d : Dev), Runs .resetNRelease d (d.wr Reg.GLB_RSTN.LEVEL 1)) ∧
  (∀ (d : Dev), d.on Reg.GLB_RSTN.LEVEL = false → d.sys.ballStuck = false → Runs .resetNStuck d
      ({ (d.wr Reg.GLB_RSTN.IGNORED 1).wr Reg.GLB_ERR_STICKY.RSTN_STUCK 1 with sys := { d.sys with stuckEvt := true, ballStuck := true } })) ∧
  (∀ (d : Dev), d.on Reg.GLB_RSTN.LEVEL = true → Runs .resetNUnstuck d
      (({ d with sys := { d.sys with ballStuck := false } } : Dev).wr Reg.GLB_RSTN.IGNORED 0)) ∧
  (∀ (d : Dev) (c : Nat), Runs (.houseWdog c) d (if d.sys.phase = .up then (d.raise Stk.GLB.HOUSE_WDOG).acceptMapped c 3 else
      d.acceptMapped c 3)) ∧
  (∀ (d : Dev) (c : Nat), d.mandStuck = true → Runs (.tickWdog c) d ((d.raise
      Stk.TIME.TICK_WDOG).acceptMapped c 4)) ∧
  (∀ (d : Dev) (c : Nat) (v : Nat) (port : Bool), (Instr.debugReset c v port).wf = true → (port = true ∨ bitsOf v 31 16 =
      0xDB61) → Runs (.debugReset c v port) d (d.accept c 10 (min (bitsOf v 2 0) (d.mapped 10)))) ∧
  (∀ (a : Arrays) (d : Dev) (c : Nat), d.sys.phase = .quiesced → RunsOn (.resetProper c) (a, d) (if (d.resetProper
      c).sys.cold = true then { fused := a.fused } else a, d.resetProper c)) ∧
  (∀ (a : Arrays) (d : Dev), d.sys.phase = .inReset → d.sys.cold = false → d.heldByBall = false → RunsOn .warmReturn (a, d)
      (a.clearSram, (((d.wake.wr Reg.MEM_DRAM_STAT.SR_L2 1).updStart.startEvents).ftlResume).wr Reg.CANVAS_STAT.STATE 5)) ∧
  (∀ (d : Dev) (c : Nat) (source : Nat), (Instr.l3Reset c source).wf = true → d.sys.phase = .up → Runs (.l3Reset c source) d
      ((d.advance c).l3 source)) ∧
  (∀ (d : Dev) (temps : List Int), (Instr.thermSample temps).wf = true → Runs (.thermSample temps) d (d.thermSample temps)) ∧
  (∀ (d : Dev) (c : Nat), 3 ≤ d.sys.hot → d.sys.phase = .up → Runs (.thermalShutdown c) d
        (let d1 := ((d.advance c).wr Reg.THERM_STAT.SHUT_PEND 1).quiesce 1
         { d1 with sys := { d1.sys with phase := .quiesced, thermal := true, cool := 0 } })) ∧
  (∀ (d : Dev), d.sys.thermal = true → d.sys.phase = .off → 100000 ≤ d.sys.cool → Runs .thermalRestart d ((mapCompact
      d.l1).resetCause 5 1 false false)) ∧
  (∀ (d : Dev) (vbatLost : Bool), Runs (.xtalStop vbatLost) d (d.xtalStop vbatLost))

/-- Register accesses: where each command completes and what it leaves (R9, R11, R21, R71, R82, R84, R282).
Covers REG_WRITE, REG_ACCESS_MISALIGNED, READ_CLEAR, TIME_NS32_READ, TIME_SEC_HI_READ, TICK_LO_READ, VAULT_CNT_LO_READ,
RTC_SEC_HI_READ. -/
def Obligations.RegisterAccessesComplete : Prop :=
  (∀ (d : Dev) (off : Nat) (v : Word) (c : Nat) (items : List Bytes) (n : Nat), (Instr.regWrite (.seat n) off v c items).wf =
      true → d.sys.phase = .up → d.hasFunction n = true → off < msixTable → (d.advance c).spot n off = .hidden → Runs
      (.regWrite (.seat n) off v c items) d ((d.advance c).violate n)) ∧
  (∀ (d : Dev) (off : Nat) (v : Word) (c : Nat) (items : List Bytes) (n : Nat) (r : RegRow) (i cp : Nat), (Instr.regWrite
      (.seat n) off v c items).wf = true → d.sys.phase = .up → d.hasFunction n = true → off < msixTable → (d.advance c).spot n
      off = .reach r i cp → Runs (.regWrite (.seat n) off v c items) d ((d.advance c).writeReg n r ((off - r.off) / r.stride)
      i cp v c items)) ∧
  (∀ (d : Dev) (n : Nat) (off : Nat) (len : Nat) (wdata : Option Nat), (Instr.regAccessMisaligned n off len wdata).wf = true
      → d.sys.phase = .up → ¬ (inMsix off = true ∧ len = 8 ∧ off % 8 = 0) → ¬ (len = 4 ∧ off % 4 = 0) → Runs
      (.regAccessMisaligned n off len wdata) d
        (let d1 := d.raise (accessSticky (if off < 0x200000 then off else 0x70000))
         if wdata.isSome then d1 else d1.answer 0xFFFFFFFF)) ∧
  (∀ (q : List Instr) (a : Arrays) (d : Dev) (off : Nat) (c : Nat) (n : Nat) (r : RegRow) (i cp : Nat), (Instr.readClear
      (.seat n) off c).wf = true → d.sys.phase = .up → d.hasFunction n = true → off < msixTable → ((d.advance c).spot n off =
      .reach r i cp ∨ (d.advance c).spot n off = .look r i cp) → exec (.readClear (.seat n) off c) ⟨q, a, d⟩ = .next ⟨q, a,
      (d.advance c).readReg a n r i cp c⟩) ∧
  (∀ (d : Dev) (n : Nat) (c : Nat), (Instr.timeNs32Read n c).wf = true → d.sys.phase = .up → Runs (.timeNs32Read n c) d
        (let d1 := d.advance c
         let sec := wrapI 48 (Int.fdiv d1.ct 1000000000)
         let l : Latch := { held := true, subsec := (Int.fmod d1.ct 1000000000).toNat, secLo := sec % 2 ^ 32, secHi := sec / 2 ^ 32 }
         ({ d1 with time := { d1.time with latches := SMap.set (fun _ => {}) d1.time.latches n l } } : Dev).answer (wrapI 32 d1.ct))) ∧
  (∀ (d : Dev) (n : Nat), (Instr.timeSecHiRead n).wf = true → d.sys.phase = .up → Runs (.timeSecHiRead n) d ((d.answer
      (d.latch n).secHi).unlatch n)) ∧
  (∀ (d : Dev) (n : Nat) (c : Nat) (cnt : Bool), (Instr.tickLoRead n c cnt).wf = true → d.sys.phase = .up → Runs (.tickLoRead
      n c cnt) d (d.tickLoRead n c cnt)) ∧
  (∀ (d : Dev) (n : Nat), (Instr.vaultCntLoRead n).wf = true → d.sys.phase = .up → Runs (.vaultCntLoRead n) d
      (d.vaultCntLoRead n)) ∧
  (∀ (d : Dev) (n : Nat), (Instr.rtcSecHiRead n).wf = true → d.sys.phase = .up → Runs (.rtcSecHiRead n) d (if n = 0 then
      (d.answer (d.rd Reg.RTC_SEC_HI.SEC_HI)).wr Reg.RTC_STAT.FROZEN 0 else d.answer (d.rd Reg.RTC_SEC_HI.SEC_HI)))

/-- Ticks, the journal and fences: where each command completes and what it leaves (R55, R317, R26, R27, R29, R31).
Covers TICK_BOUNDARY, JOURNAL_COMMIT, FENCE_COMPLETE, UPLINK_FENCE_MARKER. -/
def Obligations.TicksComplete : Prop :=
  (∀ (d : Dev) (power : PowerIn), d.sys.phase = .up → Runs (.tickBoundary power) d ((((d.closeTick d.time.tick power.pkgLate).openTick).openWork).measured power)) ∧
  (∀ (d : Dev) (j : JTick) (js : List JTick), d.sys.phase = .up → d.ftlReady = true → d.ldg.jwait = j :: js → Runs .journalCommit d ((({ d with ldg := { d.ldg with jwait := js } } : Dev).commitTick j).beatNow)) ∧
  (∀ (d : Dev) (n : Nat) (f : Fence) (fs : List Fence), (Instr.fenceComplete n).wf = true → d.sys.phase = .up → (d.seat n).fences = f :: fs → 0 < (d.seat n).fencesDue → Runs
      (.fenceComplete n) d
        (let due : MarkDue := { tag := f.tag, opening := (d.seat n).opening, cut := f.cut, tick := d.time.tick - 1, paths := d.cfg.seatPaths n }
         let d1 := ((d.onSeat n fun s => { s with fences := fs, fencesDue := s.fencesDue - 1, marks := if f.mark then s.marks ++ [due] else s.marks }).wr Reg.LDG_FENCE_STAT.DONE_TAG f.tag 0 n).wr Reg.LDG_FENCE_STAT.OUTSTANDING fs.length 0 n
         if f.notify then d1.ringSeat n f.db else d1)) ∧
  (∀ (d : Dev) (n : Nat) (path : Nat) (m : MarkDue) (e : Dev) (count : Nat) (bs : Bytes), (Instr.uplinkFenceMarker n path).wf
      = true → d.sys.phase = .up → (d.seat n).marks.find? (fun m => m.paths.contains path) = some m → d.isActive = true →
      (d.seat n).allSent m = true → count = SMap.get (fun _ => 0) (d.seat n).since path → bs = d.upHeader upFENCE 0 16 n
      (d.seat n).useq m.tick ++ fenceBody m.tag path count (SMap.get (fun _ => 0) (d.seat n).lastTag path) (SMap.get (fun _ =>
      0) (d.seat n).ords path == 0) → d.onPath n path bs = some e → Runs (.uplinkFenceMarker n path) d (e.onSeat n fun s =>
      { s.marked path m.tag count bs with marks := dropPath path m s.marks }))

/-- Steps, slews, sources and PPS: where each command completes and what it leaves (R69, R70, R73, R74, R75, R76).
Covers TIME_STEP, TIME_STEP_APPLY, TIME_SLEW, SLEW_DONE, TIME_DISCIPLINE, TIME_RATE_WRITE, HOLDOVER_EXPIRE, LEAP_SECOND,
PPS_EDGE, PPS_LOSS. -/
def Obligations.TimeAdjustmentsComplete : Prop :=
  (∀ (d : Dev) (c : Nat), d.sys.phase = .up → (((d.advance c).endSlew).stepAmount).natAbs ≤ 1000000 → Runs (.timeStep c) d
      (((d.advance c).endSlew).addStep ((d.advance c).endSlew).stepAmount)) ∧
  (∀ (d : Dev) (c : Nat), d.sys.phase = .up → 1000000 < (((d.advance c).endSlew).stepAmount).natAbs → Runs (.timeStep c) d
        (let d1 := (d.advance c).endSlew
         ({ d1 with time := { d1.time with stepPend := some d1.stepAmount, stepTick := d1.time.tick } } : Dev).wr Reg.TIME_STAT.STEP_PEND 1)) ∧
  (∀ (d : Dev) (amt : Int), d.sys.phase = .up → d.time.stepPend = some amt → d.time.stepTick < d.time.tick → Runs
      .timeStepApply d (d.addStep amt)) ∧
  (∀ (d : Dev) (c : Nat) (ppm : Nat), (Instr.timeSlew c ppm).wf = true → d.sys.phase = .up → ((d.advance
      c).stepAmount).natAbs ≤ 2 ^ 31 → 1 ≤ ppm → ppm ≤ 1000 → Runs (.timeSlew c ppm) d
        (let d1 := (d.advance c).endSlew
         ({ d1 with time := { d1.time with slew := some { start := d1.time.cnt, amount := (d.advance c).stepAmount, ppm } } } : Dev).wr Reg.TIME_STAT.SLEW_ACT 1)) ∧
  (∀ (d : Dev) (c : Nat) (w : Slew), d.sys.phase = .up → (d.advance c).time.slew = some w → w.done (d.advance c).time.cnt =
      w.amount → Runs (.slewDone c) d ((d.advance c).endSlew)) ∧
  (∀ (d : Dev) (c : Nat) (src : Nat), (Instr.timeDiscipline c src).wf = true → d.sys.phase = .up → 2 ≤ src → src ≤ 4 → Runs
      (.timeDiscipline c src) d
      ({ ((d.advance c).wr Reg.TIME_STAT.VALID 1).wr Reg.TIME_STAT.SRC src with time := { (d.advance c).time with holdBase := 0, holdAt := (d.advance c).time.cnt } })) ∧
  (∀ (d : Dev) (c : Nat) (v : Nat), (Instr.timeRateWrite c v).wf = true → d.sys.phase = .up → Runs (.timeRateWrite c v) d
        (let d1 := d.advance c
         ({ d1 with time := { d1.time with ofs := wrap64 (d1.time.ofs + d1.accrued d1.time.cnt), ca := d1.time.cnt } } : Dev).wr Reg.TIME_RATE.RATE v)) ∧
  (∀ (d : Dev), d.sys.phase = .up → d.on Reg.TIME_STAT.VALID = true → d.holdLimit < d.timeHold → Runs .holdoverExpire d
      ((d.wr Reg.TIME_STAT.VALID 0).raise Stk.TIME.HOLDOVER_EXP)) ∧
  (∀ (d : Dev) (c : Nat), d.sys.phase = .up → (d.advance c).on Reg.TIME_UTC_OFS.PEND = true → Int.fdiv (d.advance
      c).time.leapFrom dayNs < Int.fdiv ((d.advance c).cU (d.advance c).time.cnt) dayNs → Runs (.leapSecond c) d (d.leapSecond
      c)) ∧
  (∀ (d : Dev) (c : Nat), d.sys.phase = .up → Runs (.ppsEdge c) d
      ({ ((d.advance c).wr Reg.PPS_TS.NS (wrapI 32 (d.advance c).ct)).wr Reg.TIME_STAT.PPS_LOST 0 with time := { (d.advance c).time with ppsAt := (d.advance c).time.cnt } })) ∧
  (∀ (d : Dev) (c : Nat), d.sys.phase = .up → (d.advance c).on Reg.TIME_STAT.PPS_LOST = false → (d.advance c).time.ppsAt +
      1500000000 ≤ (d.advance c).time.cnt → Runs (.ppsLoss c) d (((d.advance c).wr Reg.TIME_STAT.PPS_LOST 1).raise
      Stk.TIME.PPS_LOST))

/-- Triggers, the real-time clock and the operating hour: where each command completes and what it leaves (R79, R80, R81, R82,
R83, R280).
Covers TRIG_ARM, TRIG_TICK_WRITE, TRIG_FIRE, RTC_CHECK, RTC_COMPENSATE, RTC_CAPTURE, RTC_CURVE_SAVE, OPERATING_HOUR. -/
def Obligations.TriggersAndClockComplete : Prop :=
  (∀ (d : Dev) (i : Nat) (v : Nat), (Instr.trigArm i v).wf = true → d.sys.phase = .up → Runs (.trigArm i v) d (d.trigCtlWrite
      i v)) ∧
  (∀ (d : Dev) (i : Nat) (v : Nat), (Instr.trigTickWrite i v).wf = true → d.sys.phase = .up → Runs (.trigTickWrite i v) d (if
      (d.wr Reg.TRIG_TICK.TICK v i).on Reg.TRIG_CTL.ARM i then (d.wr Reg.TRIG_TICK.TICK v i).trigArmNow i else d.wr
      Reg.TRIG_TICK.TICK v i)) ∧
  (∀ (d : Dev) (i : Nat) (T : Nat), (Instr.trigFire i).wf = true → d.sys.phase = .up → SMap.find d.time.trigT i = some T → T
      ≤ d.time.tick → Runs (.trigFire i) d
        (let d1 := d.trigAct i
         let per := d1.rd Reg.TRIG_CTL.PERIOD i
         if per = 0 then ({ d1 with time := { d1.time with trigT := d1.time.trigT.erase i } } : Dev).wr Reg.TRIG_CTL.ARM 0 i else  ({ d1 with time := { d1.time with trigT := d1.time.trigT.put i (T + per) } } : Dev).wr Reg.TRIG_TICK.TICK (T + per) i)) ∧
  (∀ (d : Dev) (c : Nat), d.sys.phase = .up → (d.advance c).on Reg.TIME_STAT.VALID = true → 2 ≤ (d.advance c).rd
      Reg.TIME_STAT.SRC → (d.advance c).rd Reg.TIME_STAT.SRC ≤ 4 → Runs (.rtcCheck c) d (d.rtcCheck c)) ∧
  (∀ (d : Dev) (c : Nat) (t10 : Int) (onVbat : Bool), Runs (.rtcCompensate c t10 onVbat) d (d.rtcCompensate c t10 onVbat)) ∧
  (∀ (d : Dev) (c : Nat), d.sys.phase = .up → (d.advance c).on Reg.RTC_STAT.LOCKED = false → (d.advance c).on
      Reg.RTC_STAT.FROZEN = false → Runs (.rtcCapture c) d
        (let d1 := d.advance c
         let q := d1.rtcUnits
         (((d1.wr Reg.RTC_SUB.SUB (q % 32768)).wr Reg.RTC_SEC_LO.SEC (q / 32768)).wr Reg.RTC_SEC_HI.SEC_HI (q / 32768 / 2 ^ 32)).wr Reg.RTC_STAT.FROZEN 1)) ∧
  (∀ (d : Dev), d.sys.phase = .up → d.on Reg.RTC_STAT.LOCKED = false → Runs .rtcCurveSave d
      ({ d with vault := { d.vault with curve := d.vault.curve.write ((List.range 16).flatMap fun i => leBytes 2 (d.rd (Reg.RTC_CURVE.PPM.nth i))) } })) ∧
  (∀ (d : Dev) (c : Nat), d.sys.phase = .up → (d.advance c).time.hourAt + 3600 * 1000000000 ≤ (d.advance c).time.cnt → Runs
      (.operatingHour c) d
        (let d1 := d.advance c
         { d1.counterTo 4 (d1.counter 4 + 1) with time := { d1.time with hourAt := d1.time.hourAt + 3600 * 1000000000 } }))

/-- Frames from the ports into the pool: where each command completes and what it leaves (04_field_ports.md, R90).
Covers FRAME_INGEST, ARBITER_ROUND, FRAME_TO_POOL, FIFO_PTR_MISMATCH, PORT_SHORT, PORT_OPEN. -/
def Obligations.FramePathComplete : Prop :=
  (∀ (d : Dev) (p : Nat) (bytes : Bytes) (err : Bool) (f : Bytes) (fs : List Bytes), (Instr.frameIngest p bytes err).wf =
      true → d.sys.phase = .up → (d.mode p = Canvas.mPLC ∨ d.mode p = Canvas.mRADIO) → d.isolated p = false → f.length ≤ d.cfg.maxFrame p → (d.port p).rxq = f :: fs →
      (d.startOfFrame p).fifoTakes p = true → Runs (.frameIngest p bytes err) d (((d.startOfFrame p).onPort p fun s =>
      { s with rxq := fs }).fifoPut p { bytes := f, chk := sealOf f })) ∧
  (∀ (d : Dev) (p : Nat) (bytes : Bytes) (err : Bool), (Instr.frameIngest p bytes err).wf = true → d.sys.phase = .up →
      (d.mode p = Canvas.mFIELDLINK ∨ d.mode p = Canvas.mSERIAL) → d.isolated p = false → d.rd Reg.FP_STAT.LINK p = 1 → Runs (.frameIngest p bytes
      err) d (d.linkFrame p bytes err)) ∧
  (∀ (d : Dev) (t : Tier), (Instr.arbiterRound t).wf = true → d.sys.phase = .up → Runs (.arbiterRound t) d
      ((match t with | .port g => d.portRound g | .group q => d.groupRound q | .ingress => d.ingressRound))) ∧
  (∀ (d : Dev) (how : FifoRead) (g : PoolGrant) (gs : List PoolGrant) (f : Frame) (fs : List Frame), d.sys.phase = .up →
      d.arb.toPool = g :: gs → d.draining g.port = f :: fs → Runs (.frameToPool how) d (d.passFrame g f how)) ∧
  (∀ (d : Dev) (p : Nat), (Instr.fifoPtrMismatch p).wf = true → d.sys.phase = .up → d.mode p ≠ Canvas.mOFF → Runs
      (.fifoPtrMismatch p) d ((d.portFlush p).raisePort Stk.FP.PTR_MISMATCH p)) ∧
  (∀ (d : Dev) (x : PortAt), (Instr.portShort x).wf = true → d.sys.phase = .up → (d.advance x.c).mode x.port ≠ Canvas.mOFF →
      (d.advance x.c).isolated x.port = false → Runs (.portShort x) d
        (let d1 := d.advance x.c
         if d1.stillShort x.port then ((d1.isolate x.port).wr Reg.FP_ERR_STICKY.SHORT 1 x.port).record 0x0840 4 (d1.cfg.homeSeat x.port) x.port [] else (d1.isolate x.port).raisePort Stk.FP.SHORT x.port)) ∧
  (∀ (d : Dev) (p : Nat), (Instr.portOpen p).wf = true → d.sys.phase = .up → (d.mode p = Canvas.mPLC ∨ d.mode p =
      Canvas.mFIELDLINK) → d.isolated p = false → Runs (.portOpen p) d (((((if d.on Reg.PLC_STAT.RX_LOCK p then (d.plcAbort p).raisePort Stk.PLC.LOCK_LOST p else d).wr Reg.FP_STAT.LINK 2
      p).onPort p fun s =>
      { s with charLock := false, autoneg := false }).wr Reg.PLC_STAT.RX_LOCK 0 p).raisePort Stk.FP.OPEN p)) ∧
  (∀ (d : Dev) (p : Nat), (Instr.portOpen p).wf = true → d.sys.phase = .up → d.mode p = Canvas.mSERIAL → d.isolated p = false
      → Runs (.portOpen p) d (d.raisePort Stk.FP.OPEN p))

/-- Port faults, pauses, edge inputs and group resets: where each command completes and what it leaves (04_field_ports.md,
R103).
Covers RX_PAIR_REVERSED, PORT_RETRY, PORT_FLUSH, FIELDLINK_AUTONEG, PAUSE_RX, PAUSE_RELEASE, EDGE_INPUT, EDGE_SETTLE,
IRQ_STUCK, IRQ_POLL, IRQ_UNSTUCK, FP_GRP_RST_WRITE. -/
def Obligations.PortFaultsAndEdgesComplete : Prop :=
  (∀ (d : Dev) (p : Nat), (Instr.rxPairReversed p).wf = true → d.sys.phase = .up → (d.mode p = Canvas.mPLC ∨ d.mode p =
      Canvas.mFIELDLINK) → d.isolated p = false → Runs (.rxPairReversed p) d ((d.wr Reg.FP_STAT.REV_RX 1 p).raisePort
      Stk.FP.REVERSED p)) ∧
  (∀ (d : Dev) (p : Nat), (Instr.portRetry p).wf = true → d.sys.phase = .up → (d.port p).retryTick ≠ some d.time.tick →
      d.isolated p = true → Runs (.portRetry p) d ((d.onPort p fun s => { s with retryTick := some d.time.tick }).driveAgain p)) ∧
  (∀ (d : Dev) (p : Nat), (Instr.portFlush p).wf = true → d.sys.phase = .up → Runs (.portFlush p) d
        (let d0 := (d.setBank p 0 []).setBank p 1 []
         let d1 := ({ d0 with arb := d0.arb.forget p } : Dev).bump Reg.FP_DROP_B.FLUSH ((d.port p).bank0.length + (d.port p).bank1.length) p
         let cut := d.arb.toPool.filter (·.port == p)
         if cut.isEmpty then d1.wr Reg.FP_STAT.FLUSHING 1 p else (cut.foldl (fun d g => d.poolGive (d.cfg.homeSeat p) g.bufs) (d1.wr Reg.FP_STAT.FLUSHING 1 p)).raisePort Stk.FP.FLUSH_ABORT p)) ∧
  (∀ (d : Dev) (p : Nat) (gigFull : Bool), (Instr.fieldlinkAutoneg p gigFull).wf = true → d.sys.phase = .up → d.mode p =
      Canvas.mFIELDLINK → d.isolated p = false → Runs (.fieldlinkAutoneg p gigFull) d ((d.onPort p fun s =>
      { s with autoneg := gigFull }).fieldlinkUp p)) ∧
  (∀ (d : Dev) (p : Nat) (c : Nat) (opcode : Nat) (quanta : Nat), (Instr.pauseRx p c opcode quanta).wf = true → d.sys.phase =
      .up → (d.advance c).mode p = Canvas.mFIELDLINK → (d.advance c).isolated p = false → Runs (.pauseRx p c opcode quanta) d
      (if opcode = 1 then ((d.advance c).onPort p fun s => { s with pausedTo := (d.advance c).time.cnt + 512 * quanta }).txDrain p else
      (d.advance c).bump Reg.FP_DROP_B.ERR 1 p)) ∧
  (∀ (d : Dev) (p : Nat), (Instr.pauseRelease p).wf = true → d.sys.phase = .up → d.on Reg.FP_STAT.PAUSE_TX p = true →
      d.fifoTakes p = true → d.on Reg.ING_STAT.HOLD = false → Runs (.pauseRelease p) d ((d.emit (.pause p 0)).wr
      Reg.FP_STAT.PAUSE_TX 0 p)) ∧
  (∀ (d : Dev) (e : EdgeIn) (level : Bool) (glitch : Bool) (c : Nat), (Instr.edgeInput e level glitch c).wf = true →
      d.sys.phase = .up → glitch = false → Runs (.edgeInput e level glitch c) d (d.edgeInput e level false c)) ∧
  (∀ (d : Dev) (e : EdgeIn) (c : Nat), (Instr.edgeSettle e c).wf = true → d.sys.phase = .up → ((d.advance c).edge e).lastEdge
      + 1000000 ≤ c → Runs (.edgeSettle e c) d (d.edgeSettle e c)) ∧
  (∀ (d : Dev) (p : Nat) (c : Nat), (Instr.irqStuck p c).wf = true → d.sys.phase = .up → (d.advance c).isRadio p = true → (d.advance c).irqHeld p c = true →
      (d.advance c).on Reg.FP_STAT.IRQ_POLL p = false → Runs (.irqStuck p c) d (((d.advance c).wr Reg.FP_STAT.IRQ_POLL 1
      p).raisePort Stk.FP.IRQ_STUCK p)) ∧
  (∀ (d : Dev) (p : Nat), (Instr.irqPoll p).wf = true → d.sys.phase = .up → d.on Reg.FP_STAT.IRQ_POLL p = true → d.isRadio p = true → d.granted = true → Runs (.irqPoll p) d
      (d.emit (.radioPoll p))) ∧
  (∀ (d : Dev) (p : Nat) (c : Nat), (Instr.irqUnstuck p c).wf = true → d.sys.phase = .up → ((d.advance c).edge (.irq p)).raw
      = false → ((d.advance c).edge (.irq p)).lastEdge + 100000000 ≤ c → Runs (.irqUnstuck p c) d ((d.advance c).wr
      Reg.FP_STAT.IRQ_POLL 0 p)) ∧
  (∀ (d : Dev) (v : Nat), (Instr.fpGrpRstWrite v).wf = true → d.sys.phase = .up → Runs (.fpGrpRstWrite v) d (d.fpGrpRstWrite
      v))

/-- The PLC front end and the rail carrier: where each command completes and what it leaves (05_power_line.md).
Covers AFE_SAMPLE_BLOCK, PLC_OVERLOAD, AFE_STATUS_BLOCK, AFE_LOCK_LOSS, PLC_FRAME_RX, PLC_JOIN_REQUEST, RAIL_FRAME_SEND,
RAIL_FRAME_RX, RAIL_ACK_TIMEOUT, RAIL_IMPULSE, RAIL_PILOT. -/
def Obligations.PowerLineComplete : Prop :=
  (∀ (d : Dev) (p : Nat) (chars : Bytes) (marks : List (Nat × PlcMark)), (Instr.afeSampleBlock p chars marks).wf = true →
      d.sys.phase = .up → d.isPlc p = true → crcAfe (slice chars 0 131) = u chars 131 2 → (d.plcSt p).seq = none → Runs
      (.afeSampleBlock p chars marks) d (d.afeSampleBlock p chars marks)) ∧
  (∀ (d : Dev) (p : Nat) (x : NextSymbols), (Instr.plcOverload p x).wf = true → d.sys.phase = .up → d.isPlc p = true →
      (d.plcSt p).overload = true → d.on Reg.PLC_STAT.IN_FRAME p = true → Runs (.plcOverload p x) d (d.plcOverload p x.first
      x.second)) ∧
  (∀ (d : Dev) (p : Nat) (chars : Bytes), (Instr.afeStatusBlock p chars).wf = true → d.sys.phase = .up → d.isPlc p = true →
      crcAfe (slice chars 0 7) = u chars 7 2 → Runs (.afeStatusBlock p chars) d (d.afeStatusBlock p chars)) ∧
  (∀ (d : Dev) (p : Nat) (atAfe : Bool), (Instr.afeLockLoss p atAfe).wf = true → d.sys.phase = .up → d.isPlc p = true → Runs
      (.afeLockLoss p atAfe) d (if atAfe then ((d.plcAbort p).raisePort Stk.PLC.LOCK_LOST p).wr Reg.PLC_STAT.TXON 0 p else
      ((((d.plcAbort p).raisePort Stk.PLC.LOCK_LOST p).wr Reg.PLC_STAT.TXON 0 p).wr Reg.PLC_STAT.RX_LOCK 0 p).wr
      Reg.FP_STAT.LINK 2 p |>.onPort p fun s => { s with charLock := false })) ∧
  (∀ (d : Dev) (p : Nat) (sender : Nat) (frame : Bytes) (zc : Option (Nat × Nat)), (Instr.plcFrameRx p sender frame zc).wf =
      true → d.sys.phase = .up → d.isPlc p = true → zc = none → (d.count Reg.PLC_RXCNT.FRAMES 1 p).rxqRoom p frame.length =
      true → Runs (.plcFrameRx p sender frame zc) d ((d.count Reg.PLC_RXCNT.FRAMES 1 p).rxqPut p frame)) ∧
  (∀ (d : Dev) (p : Nat) (sender : Nat) (frame : Bytes) (zc : Option (Nat × Nat)) (start delay : Nat), (Instr.plcFrameRx p
      sender frame zc).wf = true → d.sys.phase = .up → d.isPlc p = true → zc = some (start, delay) → ((d.count
      Reg.PLC_RXCNT.FRAMES 1 p).neighbourPhase p sender start delay).rxqRoom p frame.length = true → Runs (.plcFrameRx p
      sender frame zc) d (((d.count Reg.PLC_RXCNT.FRAMES 1 p).neighbourPhase p sender start delay).rxqPut p frame)) ∧
  (∀ (d : Dev) (r : JoinReq), (Instr.plcJoinRequest r).wf = true → d.sys.phase = .up → d.isPlc r.port = true → d.granted =
      true → d.joinDeferred r.port = false → Runs (.plcJoinRequest r) d (((((d.joinPsk r.port r.eui).1.bump
      Reg.PLC_JOIN.ANSWERED 1 r.port).onPlc r.port fun s =>
      { s with joins := d.recentJoins r.port ++ [d.time.tick] }).emit (.joinAnswer r.port r.eui (d.joinPsk r.port r.eui).2)))) ∧
  (∀ (d : Dev) (c : Nat) (busy : Bool) (f : RailTx) (rest : List RailTx), d.sys.phase = .up → (d.advance c).on
      Reg.RAIL_CFG.ENABLED = true → d.rail.holdTo ≤ (d.advance c).time.cnt → d.rail.waiting = none → d.rail.queue = f :: rest
      → busy = false → Runs (.railFrameSend c busy) d
        (let d1 := (d.advance c).wr Reg.RAIL_STAT.BUSY 0
         ({ d1 with rail := { d1.rail with queue := rest, waiting := if f.ackReq then some f else none } } : Dev).railOut f.bytes)) ∧
  (∀ (d : Dev) (c : Nat) (bs : Bytes), d.sys.phase = .up → (d.advance c).on Reg.RAIL_CFG.ENABLED = true → bs.length = 16 + u
      bs 1 1 → sealOf (slice bs 0 (12 + u bs 1 1)) = u bs (12 + u bs 1 1) 4 → u bs 0 1 / 16 = 1 → Runs (.railFrameRx c bs) d
      (d.railFrameRx c bs)) ∧
  (∀ (d : Dev) (f : RailTx), d.sys.phase = .up → d.rail.waiting = some f → Runs .railAckTimeout d (if f.tries ≥ 3 then
      (({ d with rail := { d.rail with waiting := none } } : Dev).bump Reg.RAIL_ERRCNT.RETRY).raise Stk.RAIL.RETRY_EXH else
      { d with rail := { d.rail with waiting := none, queue := { f with tries := f.tries + 1 } :: d.rail.queue } })) ∧
  (∀ (d : Dev) (t : Nat) (above : Option Nat), d.sys.phase = .up → Runs (.railImpulse t above) d (d.railImpulse t above)) ∧
  (∀ (d : Dev) (level : Int), d.sys.phase = .up → d.on Reg.RAIL_CFG.ENABLED = true → Runs (.railPilot level) d (d.railPilot
      level))

/-- The radio and the transmit grant: where each command completes and what it leaves (06_radio_mac.md).
Covers BEACON, RADIO_FRAME_RX, DATA_REQUEST, INDIRECT_TX, INDIRECT_EXPIRE, ASSOCIATION_REQUEST, GTS_REQUEST, GRANT_RAISE,
GRANT_PEER_RISE, GRANT_PEER_FALL, PARTNER_PSDU. -/
def Obligations.RadioAndGrantComplete : Prop :=
  (∀ (d : Dev) (p : Nat), (Instr.beacon p).wf = true → d.sys.phase = .up → d.isRadio p = true → (d.beaconAt p (d.rad
      p).k).toNat < d.nextB → Runs (.beacon p) d (d.beacon p)) ∧
  (∀ (d : Dev) (p : Nat) (c : Nat) (f : RadioFrame) (fcsOk : Bool) (endSet : Bool) (late : Bool), (Instr.radioFrameRx p c f
      fcsOk endSet late).wf = true → d.sys.phase = .up → d.isRadio p = true → d.granted = true → endSet = true → fcsOk = true
      → f.secured = false → f.toUs = true → Runs (.radioFrameRx p c f fcsOk endSet late) d (d.radioFrameRx p c f true true
      late)) ∧
  (∀ (d : Dev) (p : Nat) (c : Nat) (f : RadioFrame) (fcsOk : Bool) (endSet : Bool) (late : Bool), (Instr.dataRequest p c f
      fcsOk endSet late).wf = true → d.sys.phase = .up → d.isRadio p = true → d.granted = true → endSet = true → fcsOk = true
      → f.secured = false → f.toUs = true → Runs (.dataRequest p c f fcsOk endSet late) d (d.dataRequest p c f true true late)) ∧
  (∀ (d : Dev) (p : Nat) (fails : Nat) (f : Indirect), (Instr.indirectTx p fails).wf = true → d.sys.phase = .up → d.isRadio p
      = true → d.granted = true → d.indirectHead p = some f → Runs (.indirectTx p fails) d (if fails > 3 then (d.indirectSend
      p fails).campExpired f else d.indirectSend p fails)) ∧
  (∀ (d : Dev) (p : Nat), (Instr.indirectExpire p).wf = true → d.sys.phase = .up → d.isRadio p = true → Runs (.indirectExpire
      p) d ((d.indirectExpired p).foldl Dev.campExpired (d.indirectDrop p))) ∧
  (∀ (d : Dev) (p : Nat) (r : AssocReq), (Instr.associationRequest p r).wf = true → d.sys.phase = .up → d.isRadio p = true →
      d.granted = true → r.endSet = true → r.fcsOk = true → r.frame.secured = false → r.frame.toUs = true → Runs
      (.associationRequest p r) d (d.associationRequest p r.c r.frame r.eui true true r.late)) ∧
  (∀ (d : Dev) (p : Nat) (r : GtsReqs), (Instr.gtsRequest p r).wf = true → d.sys.phase = .up → d.isRadio p = true → d.granted
      = true → r.endSet = true → r.fcsOk = true → Runs (.gtsRequest p r) d ((r.reqs.foldl (fun a x => insertReq x a) []).foldl
      (fun d x => d.radioTake p r.c x.1 true true r.late (fun _ => false) fun d => d.gtsOne p x.1.src x.2) d)) ∧
  (∀ (d : Dev) (c : Nat), d.sys.phase = .up → (d.advance c).mayGrant = true → Runs (.grantRaise c) d ((d.advance c).grantOn)) ∧
  (∀ (d : Dev) (c : Nat), d.sys.phase = .up → Runs (.grantPeerRise c) d (d.grantPeerRise c)) ∧
  (∀ (d : Dev) (c : Nat), d.sys.phase = .up → Runs (.grantPeerFall c) d (d.grantPeerFall c)) ∧
  (∀ (d : Dev) (p : Nat) (t0 : Nat) (dup : Bool) (f : ShadowPsdu), (Instr.partnerPsdu p t0 dup f).wf = true → d.sys.phase =
      .up → d.isRadio p = true → d.granted = false → Runs (.partnerPsdu p t0 dup f) d (d.partnerPsdu p t0 dup f.frame f.kind))

/-- Reassembly and the cipher farm: where each command completes and what it leaves (R152, R153, R156, R158).
Covers REASSEMBLE_FRAGMENT, REASM_TIMEOUT, CIPHER_DECRYPT, CIPHER_ENCRYPT. -/
def Obligations.IngestComplete : Prop :=
  (∀ (d : Dev) (g : Fragment) (f : PoolFrame), d.sys.phase = .up → d.pool.frames[g.frame]? = some f → Runs
      (.reassembleFragment g) d (d.reassemble g)) ∧
  (∀ (d : Dev), d.sys.phase = .up → Runs .reasmTimeout d ((d.pool.ctxs.filter fun c => c.lastTick + 200 < d.time.tick).foldl
      (fun d c => d.reasmDrop c.port c.frames) (d.setCtxs (d.pool.ctxs.filter fun c => d.time.tick ≤ c.lastTick + 200)))) ∧
  (∀ (d : Dev) (is : List Nat), d.sys.phase = .up → Runs (.cipherDecrypt is) d
        (let due := is.eraseDups.filterMap fun i => d.pool.apdus[i]?
         let left := (d.pool.apdus.zipIdx.filter fun e => !is.contains e.2).map (·.1)
         (byBuffer due).foldl Dev.decryptOne { d with pool := { d.pool with apdus := left } })) ∧
  (∀ (d : Dev) (slot : Nat) (port : Nat) (sys : Bytes) (pt : Bytes) (bs : Bytes), (Instr.cipherEncrypt slot port sys pt).wf =
      true → d.sys.phase = .up → (d.cipherTo slot sys pt).2 = some bs → Runs (.cipherEncrypt slot port sys pt) d ((d.cipherTo slot sys pt).1.sendTo slot port bs))

/-- The ledger engines: where each command completes and what it leaves (08_ledger_and_billing.md,
09_validation_estimation.md, R25, R28).
Covers DECODE_APDU, APDU_UNPARK, APPLY_RECORD, SWEEP_CLOSE, CATCHUP_CLOSE, SLOT_REPAIR_DONE, SLOT_REPAIR_TIMEOUT,
LDG_SLOT_REINIT, SHADOW_EXECUTE, SHADOW_CORRECTION_INSTALL, LDG_FENCE, LDG_RERATE_GO, RERATE_ORDER_APPLY,
BILLING_CLOSE_ACTION, BILLING_ORDER_APPLY, READOUT_REQUEST. -/
def Obligations.LedgersComplete : Prop :=
  (∀ (d : Dev) (its : List DlmsItem) (push : Bool) (asRead : Option Bytes) (p : Plain), d.sys.phase = .up → d.step = 0 →
      d.stalledLanes < 8 → d.pool.plains.find? (fun p => !(d.pool.parked.any fun k => k.stalled && k.plain.slot == p.slot)) =
      some p → Runs (.decodeApdu its push asRead) d (d.decodeApdu its push asRead)) ∧
  (∀ (d : Dev) (e : Nat), (Instr.apduUnpark e).wf = true → d.sys.phase = .up → d.step = 0 → (d.eng e).stopped = false → Runs
      (.apduUnpark e) d ((((d.pool.parked.filter fun k => d.engOf k.plain.slot == e).foldl (fun (d : Dev) (k : Parked) =>
      d.admitAll k.plain k.recs)
      { d with pool := { d.pool with parked := d.pool.parked.filter fun k => d.engOf k.plain.slot != e } })).parkedReg)) ∧
  (∀ (d : Dev) (e : Nat) (cost : Nat) (bad : List Nat) (asRead : Option Bytes) (q : QItem) (d1 : Dev) (rb : Bytes) (chk :
      Nat), (Instr.applyRecord e cost bad asRead).wf = true → d.sys.phase = .up → d.step = 0 → d.mayDispatch e 2000 = true →
      d.catchSlots e = [] → cost ≤ 2000 → d.nextItem e = some (q, d1) → q.work = .record rb chk → Runs (.applyRecord e cost bad asRead) d (((d1.onEng e fun s => { s with used := s.used + cost }).applyItem q bad
      asRead).carryWatch e)) ∧
  (∀ (d : Dev) (slot : Nat) (cost : Nat) (b : Bound), (Instr.sweepClose slot cost).wf = true → d.sys.phase = .up → d.step = 0
      → d.isActive = true → (d.ledger slot).catching = false → cost ≤ 4000 → (d.eng (d.engOf slot)).used + cost ≤ d.budget →
      d.lateWork = false → d.dueBound slot = some b → Runs (.sweepClose slot cost) d
        (let d1 := d.onEng (d.engOf slot) fun s => { s with used := s.used + cost, mand := s.mand + cost }
         ((({ d1 with ldg := { d1.ldg with spill := d1.ldg.spill.filter fun s => s.1 != slot } } : Dev).closeAt slot b).catchNext slot).beatNow)) ∧
  (∀ (d : Dev) (slot : Nat) (cost : Nat) (b : Bound), (Instr.sweepClose slot cost).wf = true → d.sys.phase = .up → d.step = 0
      → d.isActive = true → (d.ledger slot).catching = false → cost ≤ 4000 → (d.eng (d.engOf slot)).used + cost ≤ d.budget →
      (d.ldg.spill.any fun s => s.1 == slot) = true → d.dueBound slot = some b → Runs (.sweepClose slot cost) d
        (let d1 := d.onEng (d.engOf slot) fun s => { s with used := s.used + cost, mand := s.mand + cost }
         ((({ d1 with ldg := { d1.ldg with spill := d1.ldg.spill.filter fun s => s.1 != slot } } : Dev).closeAt slot b).catchNext slot).beatNow)) ∧
  (∀ (d : Dev) (e : Nat) (cost : Nat) (slot : Nat) (b : Bound), (Instr.catchupClose e cost).wf = true → d.sys.phase = .up →
      d.step = 0 → d.isActive = true → d.mayDispatch e 4000 = true → cost ≤ 4000 → (d.catchSlots e).head? = some slot →
      d.dueBound slot = some b → Runs (.catchupClose e cost) d
        (let d1 := d.onEng e fun x => { x with used := x.used + cost }
         ((d1.noteCaught (d1.owner slot) b).closeAt slot b).catchNext slot)) ∧
  (∀ (d : Dev) (slot : Nat) (partner : Option Machine.Ledger), (Instr.slotRepairDone slot partner).wf = true → d.sys.phase =
      .up → d.step = 0 → (d.ledger slot).st = 2 → Runs (.slotRepairDone slot partner) d (d.repairDone slot partner)) ∧
  (∀ (d : Dev) (slot : Nat), (Instr.slotRepairTimeout slot).wf = true → d.sys.phase = .up → d.step = 0 → (d.ledger slot).st =
      2 → (d.ledger slot).repairAt + 100 ≤ d.time.tick → Runs (.slotRepairTimeout slot) d (d.failSlot slot)) ∧
  (∀ (d : Dev), d.sys.phase = .up → d.step = 0 → (d.ledger (d.rd Reg.LDG_SLOT_SEL.SLOT)).st = 3 → Runs .ldgSlotReinit d
        (let slot := d.rd Reg.LDG_SLOT_SEL.SLOT
         let l := d.ledger slot
         d.commitLedger slot { st := 0, lver := l.lver, closedTo := l.closedTo, catching := l.catching })) ∧
  (∀ (d : Dev) (cost : Nat) (cmp : Machine.ShadowCmp) (x : ShadowItem) (xs : List ShadowItem), d.sys.phase = .up → d.step = 0
      → d.ldg.shadowUsed + cost ≤ d.budget → d.on Reg.LDG_SHADOW.EN = true → d.ldg.shadowStopped = false → d.ldg.shadowLast =
      x :: xs → Runs (.shadowExecute cost cmp) d (d.shadowExecute cost cmp)) ∧
  (∀ (d : Dev) (slot : Nat) (k : Correction), (Instr.shadowCorrectionInstall slot).wf = true → d.sys.phase = .up → d.step = 0
      → d.ldg.corr.find? (·.slot == slot) = some k → k.tick < d.time.tick → Runs (.shadowCorrectionInstall slot) d
      (d.shadowInstall slot)) ∧
  (∀ (d : Dev) (n : Nat) (v : Nat), (Instr.ldgFence n v).wf = true → d.sys.phase = .up → (d.seat n).fences.length < 4 →
      (bitOf v 17 = false ∨ bitsOf v 22 18 < 28) → Runs (.ldgFence n v) d ((d.onSeat n fun s =>
      { s with fences := s.fences ++ [{ tag := bitsOf v 15 0, mark := bitOf v 16, notify := bitOf v 17, db := bitsOf v 22 18, cut := (d.seat n).nextAseq, tick := d.time.tick }] }).wr
      Reg.LDG_FENCE_STAT.OUTSTANDING ((d.seat n).fences.length + 1) 0 n)) ∧
  (∀ (d : Dev) (n : Nat) (x y : Nat), (Instr.ldgRerateGo n).wf = true → d.sys.phase = .up → d.on Reg.TIME_STAT.VALID = true →
      d.on Reg.LDG_RERATE_CTL.BUSY 0 n = false → d.rd Reg.LDG_RERATE_FIRST.SLOT 0 n = x → d.rd Reg.LDG_RERATE_LAST.SLOT 0 n =
      y → x ≤ y → y < x + 65536 → d.cfg.seatOfSlot x = some n → d.cfg.seatOfSlot y = some n → Runs (.ldgRerateGo n) d
        (let go := SMap.get (fun _ => 0) d.ldg.rerateGo n + 1
         (List.range (y + 1 - x)).foldl (fun d i => d.admitOrder (x + i) n (.rerate go)) { d.wr Reg.LDG_RERATE_CTL.BUSY 1 0 n with ldg := { d.ldg with rerate := SMap.set (fun _ => 0) d.ldg.rerate n (y + 1 - x), rerateGo := SMap.set (fun _ => 0) d.ldg.rerateGo n go } })) ∧
  (∀ (d : Dev) (e : Nat) (cost : Nat) (q : QItem) (d1 : Dev) (go : Nat), (Instr.rerateOrderApply e cost).wf = true → d.sys.phase = .up →
      d.step = 0 → d.mayDispatch e 2000 = true → d.catchSlots e = [] → cost ≤ 2000 → d.nextItem e = some (q, d1) → q.work = .rerate go → Runs (.rerateOrderApply e cost) d (((d1.onEng e fun s => { s with used := s.used + cost }).applyItem q []
      none).carryWatch e)) ∧
  (∀ (d : Dev) (n : Nat) (slot : Nat), (Instr.billingCloseAction n slot).wf = true → d.sys.phase = .up → d.on
      Reg.TIME_STAT.VALID = true → Runs (.billingCloseAction n slot) d ((d.admitOrder slot n .billing).emit (.actionResult n
      slot actOk))) ∧
  (∀ (d : Dev) (e : Nat) (cost : Nat) (q : QItem) (d1 : Dev), (Instr.billingOrderApply e cost).wf = true → d.sys.phase = .up
      → d.step = 0 → d.mayDispatch e 2000 = true → d.catchSlots e = [] → cost ≤ 2000 → d.nextItem e = some (q, d1) → q.work = .billing → Runs (.billingOrderApply e cost) d (((d1.onEng e fun s => { s with used := s.used + cost }).applyItem q []
      none).carryWatch e)) ∧
  (∀ (d : Dev) (n : Nat) (r : Readout) (rs : List Readout), (Instr.readoutRequest n).wf = true → d.sys.phase = .up → d.rd
      Reg.SEAT_STAT.STATE n = 1 → (d.seat n).readouts = r :: rs → Runs (.readoutRequest n) d (d.readoutRequest n))

/-- Uplinks, rings and the address directory: where each command completes and what it leaves (13_seats_and_mailboxes.md,
R287, R289).
Covers UPLINK_SEND, UPL_ACK, UPL_RETX, UPL_RETX_DONE, UPLINK_FRAME_RX, REG_ACCESS_DATAGRAM, RING_HOST_PTR_WRITE, ADIR_INSERT,
ADIR_DELETE, ADIR_LOOKUP. -/
def Obligations.UplinksAndDirectoryComplete : Prop :=
  (∀ (d : Dev) (w : UpSend) (n path : Nat) (sak : Bool), (Instr.uplinkSend w).wf = true → d.sys.phase = .up → w = .records n
      path sak → d.isActive = true → (d.cfg.seatPaths n).contains path = true → d.rd Reg.SEAT_STAT.STATE n = 1 → (path = 2 ∨
      d.cfg.seatCak n = 0 ∨ sak = true) → Runs (.uplinkSend w) d (d.uplinkTurn n path sak)) ∧
  (∀ (d : Dev) (w : UpSend) (uu : Nat) (frame : Bytes) (c : Nat) (d1 : Dev) (bs : List Nat), (Instr.uplinkSend w).wf = true →
      d.sys.phase = .up → w = .house uu frame c → d.poolAsk .house 0 (bufsOf frame.length) = (d1, some bs) → ptpEvent frame =
      none → Runs (.uplinkSend w) d ((d1.emit (.datagram 0 (uu % 2) frame)).poolGive 0 bs)) ∧
  (∀ (d : Dev) (w : UpSend) (uu : Nat) (frame : Bytes) (c : Nat) (d1 : Dev) (m : Bytes) (l : List Nat), (Instr.uplinkSend
      w).wf = true → d.sys.phase = .up → w = .house uu frame c → d.poolAsk .house 0 (bufsOf frame.length) = (d1, some l) →
      ptpEvent frame = some m → Runs (.uplinkSend w) d (((d1.ptpEgress (uu % 2) c (ptpSeq m)).emit (.datagram 0 (uu % 2)
      frame)).poolGive 0 l)) ∧
  (∀ (d : Dev) (n : Nat) (tag : Nat) (path : Nat) (m : Marker), (Instr.uplAck n tag path).wf = true → d.sys.phase = .up →
      (d.seat n).marker tag path = some m → Runs (.uplAck n tag path) d (d.onSeat n fun s =>
      { s with staging := s.staging.filter fun r => !(r.path == some path && decide (r.ord ≤ m.ord)), markers := s.markers.filter fun x => !(x.path == path && decide (x.ord ≤ m.ord)) })) ∧
  (∀ (d : Dev) (n : Nat) (tag : Nat) (path : Nat) (m : Marker), (Instr.uplRetx n tag path).wf = true → d.sys.phase = .up →
      d.on Reg.UPL_STAT.RETX_BUSY 0 n = false → path ≠ 3 → (d.seat n).marker tag path = some m → Runs (.uplRetx n tag path) d
        (let span := (d.seat n).staging.filter fun r => r.path == some path && r.ord == m.ord
         ((if span.length < m.count then d.raiseCopy Stk.UPL_STAT.PARTIAL n else d).wr Reg.UPL_STAT.RETX_BUSY 1 0 n).onSeat n fun s => { s with retx := some { tag, path, span := span.map (fun r => setResent r.bytes) ++ [setResent m.bytes] } })) ∧
  (∀ (d : Dev) (n : Nat) (r : Retx), (Instr.uplRetxDone n).wf = true → d.sys.phase = .up → (d.seat n).retx = some r → Runs
      (.uplRetxDone n) d
        (let r2 := d.putAll n r.path r.span
         if r2.2.isEmpty then (r2.1.wr Reg.UPL_STAT.RETX_BUSY 0 0 n).onSeat n fun s => { s with retx := none } else r2.1.onSeat n fun s => { s with retx := some { r with span := r2.2 } })) ∧
  (∀ (d : Dev) (uplink : Nat) (c : Nat) (frame : Bytes) (mac : Option Bytes), (Instr.uplinkFrameRx uplink c frame mac).wf =
      true → d.sys.phase = .up → ofBe (slice frame 12 2) ≠ etVlan → Runs (.uplinkFrameRx uplink c frame mac) d ((d.advance
      c).houseRx (uplink % 2) c frame)) ∧
  (∀ (d : Dev) (uplink : Nat) (c : Nat) (frame : Bytes) (mac : Option Bytes) (n : Nat), (Instr.uplinkFrameRx uplink c frame
      mac).wf = true → d.sys.phase = .up → ofBe (slice frame 12 2) = etVlan → (d.advance c).cfg.seatOfVid (vidOf frame) = some
      n → (d.advance c).cfg.seatCak n = 0 → Runs (.uplinkFrameRx uplink c frame mac) d ((d.advance c).seatRx n (uplink % 2)
      frame)) ∧
  (∀ (d : Dev) (uplink : Nat) (c : Nat) (frame : Bytes) (mac : Option Bytes) (n : Nat) (b : Bytes), (Instr.uplinkFrameRx
      uplink c frame mac).wf = true → d.sys.phase = .up → ofBe (slice frame 12 2) = etVlan → (d.advance c).cfg.seatOfVid
      (vidOf frame) = some n → (d.advance c).cfg.seatCak n ≠ 0 → mac = some b → Runs (.uplinkFrameRx uplink c frame mac) d
      ((d.advance c).seatRx n (uplink % 2) b)) ∧
  (∀ (q : List Instr) (a : Arrays) (d : Dev) (n : Nat) (c : Nat) (r : DgramReq) (rest : List DgramReq),
      (Instr.regAccessDatagram n c).wf = true → d.sys.phase = .up → (d.seat n).dgramWait = r :: rest → ((d.onSeat n fun s =>
      { s with dgramWait := rest }).seat n).dgramLast = none → exec (.regAccessDatagram n c) ⟨q, a, d⟩ = .next ⟨q, a,
      (d.onSeat n fun s => { s with dgramWait := rest }).dgramServe a n c r⟩) ∧
  (∀ (d : Dev) (n : Nat) (r : Nat) (v : Nat) (items : List Bytes), (Instr.ringHostPtrWrite n r v items).wf = true →
      d.sys.phase = .up → Runs (.ringHostPtrWrite n r v items) d (if r ≠ 1 then d.wr (ringF Reg.SEAT_RING_HOST_0.PTR r) v n
      else ((d.wr (ringF Reg.SEAT_RING_HOST_0.PTR r) v n).onSeat n fun s =>
      { s with readouts := s.readouts ++ readoutsOf 2 items }).wr (ringF Reg.SEAT_RING_DEV_0.PTR 1) v n)) ∧
  (∀ (d : Dev) (n : Nat), (Instr.adirInsert n).wf = true → d.sys.phase = .up → d.cfg.seatOfSlot (d.rd Reg.ADIR_ARG.SLOT 0 n)
      = some n → d.pool.adirSoon (d.adirKeyOf n) = none → d.pool.adirSize < adirCap → Runs (.adirInsert n) d ((d.adirChange
      { key := d.adirKeyOf n, ent := some { slot := d.rd Reg.ADIR_ARG.SLOT 0 n, seat := n, n := d.pool.adirCount } }).adirResult
      n 0)) ∧
  (∀ (d : Dev) (n : Nat) (e : AdirEnt), (Instr.adirInsert n).wf = true → d.sys.phase = .up → d.cfg.seatOfSlot (d.rd
      Reg.ADIR_ARG.SLOT 0 n) = some n → d.pool.adirSoon (d.adirKeyOf n) = some e → e.seat = n → Runs (.adirInsert n) d
      ((d.adirChange
      { key := d.adirKeyOf n, ent := some { slot := d.rd Reg.ADIR_ARG.SLOT 0 n, seat := n, n := d.pool.adirCount, port := e.port } }).adirResult
      n 0)) ∧
  (∀ (d : Dev) (n : Nat) (e : AdirEnt), (Instr.adirDelete n).wf = true → d.sys.phase = .up → d.pool.adirSoon (d.adirKeyOf n)
      = some e → e.seat = n → Runs (.adirDelete n) d ((d.adirChange { key := d.adirKeyOf n, ent := none }).adirResult n 0)) ∧
  (∀ (d : Dev) (n : Nat) (e : AdirEnt), (Instr.adirLookup n).wf = true → d.sys.phase = .up → SMap.find d.pool.adir
      (d.adirKeyOf n) = some e → e.seat = n → Runs (.adirLookup n) d ((d.wr Reg.ADIR_ARG.SLOT e.slot 0 n).adirResult n 0))

/-- Seat resets and mailboxes: where each command completes and what it leaves (R285, R295, R297, R299, R300, R33).
Covers VF_FLR, PF_FLR, SEAT_L4, SEAT_REOPEN, MBX_DOORBELL, DOORBELL_NOTICE_VISIBLE, MBX_LOCK, MBX_UNLOCK, DOORBELL_AGED,
LOCK_TIMEOUT. -/
def Obligations.SeatsAndMailboxesComplete : Prop :=
  (∀ (d : Dev) (n : Nat), (Instr.vfFlr n).wf = true → d.sys.phase = .up → d.rd Reg.SEAT_STAT.STATE n = 1 → Runs (.vfFlr n) d
      (((d.clearMsix n).resetCause 6 4 false false).seatReset n)) ∧
  (∀ (d : Dev), d.sys.phase = .up → Runs .pfFlr d ((((List.range 64).filter fun n => n == 0 || d.cfg.seatPcie n).foldl Dev.l4
      ({ d with sys := { d.sys with vfEnable := false } }.clearMsix 0)).raise Stk.SEAT.PF_FLR)) ∧
  (∀ (d : Dev) (n : Nat), (Instr.seatL4 n).wf = true → d.sys.phase = .up → d.rd Reg.SEAT_STAT.STATE n = 1 → Runs (.seatL4 n)
      d ((d.resetCause 6 4 false false).seatReset n)) ∧
  (∀ (d : Dev) (n : Nat), (Instr.seatReopen n).wf = true → d.sys.phase = .up → d.rd Reg.SEAT_STAT.STATE n = 2 → Runs
      (.seatReopen n) d (((d.openSeat n).raiseSeat Stk.SEAT_STAT.L4_SEEN n).ringSeat n 28)) ∧
  (∀ (d : Dev) (ag : Agent) (m : Nat) (v : Nat) (k : Nat), (Instr.mbxDoorbell ag m v).wf = true → d.sys.phase = .up → d.mbxOf
      ag m = some k → d.mayRing ag k (bitsOf v 4 0) = true → Runs (.mbxDoorbell ag m v) d (if bitOf v 5 then
      { d with held := d.held ++ [{ writer := ag.num, mbx := k, bit := bitsOf v 4 0 }] } else d.ringBit k (bitsOf v 4 0))) ∧
  (∀ (d : Dev) (ag : Agent), (Instr.doorbellNoticeVisible ag).wf = true → d.sys.phase = .up → Runs (.doorbellNoticeVisible
      ag) d ((d.held.filter fun h => h.writer == ag.num).foldl (fun d h => d.ringBit h.mbx h.bit)
      { d with held := d.held.filter fun h => h.writer != ag.num })) ∧
  (∀ (d : Dev) (ags : List Agent) (m : Nat), (Instr.mbxLock ags m).wf = true → d.sys.phase = .up → Runs (.mbxLock ags m) d
      (d.mbxLock ags m)) ∧
  (∀ (d : Dev) (ag : Agent) (m : Nat) (v : Nat) (k : Nat), (Instr.mbxUnlock ag m v).wf = true → d.sys.phase = .up → d.mbxOf
      ag m = some k → bitOf v 0 = true → ((∃ i, ag = .core i) ∨ d.receives ag k = true ∨ d.rd Reg.MBX_LOCK.OWNER k = ag.num) →
      Runs (.mbxUnlock ag m v) d (d.wr Reg.MBX_LOCK.OWNER 0 k)) ∧
  (∀ (d : Dev) (m : Nat), (Instr.doorbellAged m).wf = true → d.sys.phase = .up → (d.mb m).agedDone = false → d.hasAged m =
      true → Runs (.doorbellAged m) d ((d.onMb m fun s => { s with agedDone := true }).raiseFor Stk.MBX.AGED (d.mbxView m) m)) ∧
  (∀ (d : Dev) (m : Nat), (Instr.lockTimeout m).wf = true → d.sys.phase = .up → d.rd Reg.MBX_LOCK.OWNER m ≠ 0 → (d.mb
      m).lockTick + 100 ≤ d.time.tick → Runs (.lockTimeout m) d (((d.wr Reg.MBX_LOCK.OWNER 0 m).bump Reg.MBX_CNT.LOCK_TMO 1
      m).raiseFor Stk.MBX.LOCK_TMO (d.mbxView m) m [(1, d.rd Reg.MBX_LOCK.OWNER m)]))

/-- SRAM, DRAM and NAND: where each command completes and what it leaves (14_memory.md, R305, R306, R307, R308, R309, R310).
Covers SRAM_ACCESS, SRAM_ATOMIC, PARTIAL_WRITE, POISON_READ, PATROL_SCRUB, DRAM_SCRUB, BANK_RETENTION, MEM_CLR_COLLIDE,
CHECKPOINT_PASS_DONE, FOLD, GARBAGE_COLLECT, WEAR_LEVEL_MOVE, NAND_PROGRAM_FAIL, NAND_REFRESH. -/
def Obligations.MemoryComplete : Prop :=
  (∀ (a : Arrays) (d : Dev) (c : Nat) (reqs : List MemReq) (ups : List Upset), (Instr.sramAccess c reqs ups).wf = true →
      d.sys.phase = .up → (∀ r ∈ reqs, r.addr < 2 ^ 27) → RunsOn (.sramAccess c reqs ups) (a, d) (sramAccess (a, d) c reqs
      ups)) ∧
  (∀ (a : Arrays) (d : Dev) (c : Nat) (req : Nat) (addr : Nat) (n : Nat) (op : AtomicOp) (v : Nat) (ups : List Upset),
      (Instr.sramAtomic c req addr n op v ups).wf = true → d.sys.phase = .up → addr < 2 ^ 27 → RunsOn (.sramAtomic c req addr
      n op v ups) (a, d) (sramAtomic (a, d) c req addr n op v ups)) ∧
  (∀ (a : Arrays) (d : Dev) (sel : MemSel) (addr : Nat) (bs : Bytes) (ups : List Upset), (Instr.partialWrite sel addr bs
      ups).wf = true → d.sys.phase = .up → addr < memBytes sel → RunsOn (.partialWrite sel addr bs ups) (a, d) (partialWrite
      (a, d) sel addr bs ups)) ∧
  (∀ (d : Dev) (r : PoisonReader), d.sys.phase = .up → Runs (.poisonRead r) d
      (match r with | .ledger slot _ => (if d.isHeld slot || (d.ledger slot).st == 3 then d else d.enterRepair slot) | .keyLine slot => d.dropLine slot | .pool i => { d with pool := { d.pool with plains := d.pool.plains.modify i fun p => { p with poisoned := true } } } | .core i => d.emit (.coreFault i) | .pcie n => d.emit (.pcieEp n))) ∧
  (∀ (a : Arrays) (d : Dev) (w : Nat) (ups : List Upset), d.sys.phase = .up → w < 2 ^ 24 → RunsOn (.patrolScrub w ups) (a, d)
      (patrolScrub (a, d) w ups)) ∧
  (∀ (a : Arrays) (d : Dev) (w : Nat) (ups : List Upset), d.sys.phase = .up → w < 2 ^ 31 → RunsOn (.dramScrub w ups) (a, d)
      (dramScrub (a, d) w ups)) ∧
  (∀ (a : Arrays) (d : Dev) (c : Nat) (bank : Nat) (ns : Nat), (Instr.bankRetention c bank).wf = true → d.sys.phase = .up →
      (d.advance c).cfg.bankIdleNs (bank / 16) = some ns → (d.advance c).groupOff bank = false → (d.advance c).groupFailed
      bank = false → a.retained.contains bank = false → SMap.get (fun _ => 0) a.bankUse bank + ns ≤ c → RunsOn (.bankRetention
      c bank) (a, d) ({ a with retained := bank :: a.retained }, d.advance c)) ∧
  (∀ (d : Dev) (v : Nat), (Instr.memClrCollide v).wf = true → d.sys.phase = .up → Runs (.memClrCollide v) d (if bitOf v 0
      then d.wr Reg.MEM_COLLIDE.COUNT 0 else d)) ∧
  (∀ (d : Dev), d.sys.phase = .up → Runs .checkpointPassDone d
        (let d1 := d.checkpointPassDone
         if d1.rd Reg.UPD_STAT.STATE = 4 then d1 else { d1 with upd := { d1.upd with twoFormats := false } })) ∧
  (∀ (d : Dev) (id : Nat), d.sys.phase = .up → d.ftl.freeCount true < 256 → d.ftl.least (fun b => b.oneBit && b.st != .free
      && b.st != .bad) (·.born) = some id → Runs .fold d
      (({ d with ftl := { ((((d.ftl.block id).pages.filter (·.valid)).foldl (fun f p => f.append false { p with folded := true }) d.ftl).eraseBlock id) with openRec := true } }
      : Dev).ftlRegs)) ∧
  (∀ (d : Dev) (stream : Nat) (id : Nat), (Instr.garbageCollect stream).wf = true → d.sys.phase = .up → d.ftl.least (fun b =>
      !b.oneBit && b.st == .closed && b.stream == stream) (fun b => (b.pages.filter (·.valid)).length) = some id → Runs
      (.garbageCollect stream) d (d.garbageCollect stream)) ∧
  (∀ (d : Dev) (src dst : Nat), d.sys.phase = .up → (if d.ftl.wearOn then decide (d.ftl.wearSpread.1 - d.ftl.wearSpread.2 >
      150) else decide (d.ftl.wearSpread.1 - d.ftl.wearSpread.2 > 200)) = true → (d.ftl.wearTick = 0 ∨ d.ftl.wearTick + 100 ≤
      d.time.tick) → d.ftl.least (fun b => !b.oneBit && b.st == .closed && b.stream == sCOLD) (·.erases) = some src →
      d.ftl.least (fun b => !b.oneBit && b.st == .free) (fun b => 0xFFFFFFFF - b.erases) = some dst → Runs .wearLevelMove d
      d.wearLevelMove) ∧
  (∀ (d : Dev) (id : Nat), d.sys.phase = .up → (d.ftl.block id).st ≠ .bad → id < oneBitBlocks + tlcBlocks → Runs
      (.nandProgramFail id) d (d.nandProgramFail id)) ∧
  (∀ (d : Dev) (id : Nat) (highErrors : Bool), d.sys.phase = .up → (100000 ≤ (d.ftl.block id).reads ∨ highErrors = true) →
      (d.ftl.block id).st ≠ .free → (d.ftl.block id).st ≠ .bad → Runs (.nandRefresh id highErrors) d
      (({ d with ftl := { (((d.ftl.onBlock id fun b => { b with st := .closed }).rewrite id d.time.tick (d.ftl.block id).oneBit (·.stream)).eraseBlock id) with openRec := true } }
      : Dev).ftlRegs))

/-- The canvas: where each command completes and what it leaves (02_canvas.md).
Covers CANVAS_STAGE, CANVAS_FETCH_DONE, CANVAS_CHECK_DONE, CANVAS_STAGED, PARTNER_CANVAS, PARTNER_VALIDATION_REPORT,
CANVAS_ARM, CANVAS_APPLY_ABANDON, CANVAS_APPLY, CANVAS_COMMIT, CANVAS_RELOAD, CANVAS_CANCEL, CANVAS_CTL_CONFLICT. -/
def Obligations.CanvasComplete : Prop :=
  (∀ (d : Dev) (mode : Nat), (Instr.canvasStage mode).wf = true → d.sys.phase = .up → (d.cvState = 0 ∨ d.cvState = 0xF) →
      d.rd64 Reg.CANVAS_SRC_ADDR.ADDR % 64 = 0 → Runs (.canvasStage mode) d
        (let d1 := ({ d with cv := { d.cv with mode, fetched := none } } : Dev).setCv 1
         d1.emit (.dmaRead (d.rd64 Reg.CANVAS_SRC_ADDR.ADDR) (d1.rd Reg.CANVAS_SRC_LEN.LEN)))) ∧
  (∀ (d : Dev) (bytes : Option Bytes), d.sys.phase = .up → d.cvState = 1 → Runs (.canvasFetchDone bytes) d
      (match bytes with | none => (d.cvCode 0x20).cvRest | some b => ({ d with cv := { d.cv with fetched := some b } } : Dev).setCv 2)) ∧
  (∀ (d : Dev) (b : Bytes), d.sys.phase = .up → d.cv.fetched = some b → d.cvState = 2 → d.cv.staged = none → (d.cv.run.isSome
      = true ∨ d.mayStore = true) → Runs .canvasCheckDone d d.canvasCheckDone) ∧
  (∀ (d : Dev) (x : CvStaged), d.sys.phase = .up → d.cv.staged = some x → d.cvState = 2 → d.mayStore = true → Runs
      .canvasStaged d
        (let d1 := (d.writeStore x.store x.bytes false).tellStandby 0 (leBytes 1 x.mode ++ x.bytes)
         (d1.wr Reg.CANVAS_STAT.PARTNER_OK (b2n (!d1.cfg.hasPartner))).setCv 3)) ∧
  (∀ (d : Dev) (mode : Nat) (b : Option Bytes), d.sys.phase = .up → Runs
      (.partnerCanvas (.canvas mode b)) d (d.partnerStages mode b)) ∧
  (∀ (d : Dev) (t : Nat), d.sys.phase = .up → Runs (.partnerCanvas (.armed t)) d
      (if d.cvState = 3 then ({ d with cv := { d.cv with armT := t } } : Dev).setCv 4 else d)) ∧
  (∀ (d : Dev) (abandoned : Bool), d.sys.phase = .up → Runs (.partnerCanvas (.cancelled abandoned)) d
        (let d1 : Dev := { d with cv := { d.cv with peerStaged := false } }
         let d2 := if abandoned then d1.cvCode 0x1D else d1
         if (d2.cvState = 3 ∨ d2.cvState = 4) ∧ d2.cv.commit.isNone = true then d2.dropStaged else d2)) ∧
  (∀ (d : Dev), d.sys.phase = .up → Runs (.partnerCanvas .committed) d
      (({ d with cv := { d.cv with peerStaged := false } } : Dev).scheduleCommit)) ∧
  (∀ (d : Dev) (code : Nat), (Instr.partnerValidationReport code).wf = true → d.sys.phase = .up → Runs
      (.partnerValidationReport code) d (if d.cv.staged.isSome && code == 0 then d.wr Reg.CANVAS_STAT.PARTNER_OK 1 else d)) ∧
  (∀ (d : Dev) (x : CvStaged), d.sys.phase = .up → d.cv.staged = some x → d.cvState = 3 → x.mode = 0 → d.time.tick + 8 ≤
      d.rd64 Reg.CANVAS_APPLY_TICK.TICK → d.rd64 Reg.CANVAS_APPLY_TICK.TICK ≤ d.time.tick + 2 ^ 32 → Runs .canvasArm d
      (((({ d with cv := { d.cv with armT := d.rd64 Reg.CANVAS_APPLY_TICK.TICK } } : Dev).setCv 4).tellStandby 1 (leBytes 8
      (d.rd64 Reg.CANVAS_APPLY_TICK.TICK))))) ∧
  (∀ (d : Dev), d.sys.phase = .up → d.cvState = 4 → d.cv.commit = none → d.cv.armT ≤ d.time.tick + 1 → d.partnerOk = false →
      Runs .canvasApplyAbandon d (((d.cvCode 0x1D).dropStaged).tellStandby 5 [])) ∧
  (∀ (d : Dev) (x : CvStaged), d.sys.phase = .up → d.cv.staged = some x → d.cvState = 4 → d.cv.commit = none → d.cv.armT ≤
      d.time.tick → d.partnerOk = true → Runs .canvasApply d d.canvasApply) ∧
  (∀ (d : Dev) (x : CvStaged), d.sys.phase = .up → d.cv.staged = some x → d.cvState = 3 → x.mode = 1 → d.cv.commit = none →
      Runs .canvasCommit d
      (({ d with cv := { d.cv with commit := some { tick := d.time.tick + 1, bytes := x.bytes, mode := 1, store := x.store, oldSerial := d.cfg.serial } } }
      : Dev).tellStandby 3 [])) ∧
  (∀ (d : Dev) (c : Nat), d.sys.phase = .up → Runs (.canvasReload c) d (d.acceptMapped c 7)) ∧
  (∀ (d : Dev), d.sys.phase = .up → d.cv.commit = none → (d.cvState = 1 ∨ d.cvState = 2) → Runs .canvasCancel d d.dropStaged) ∧
  (∀ (d : Dev), d.sys.phase = .up → d.cv.commit = none → (d.cvState = 3 ∨ (d.cvState = 4 ∧ d.time.tick < d.cv.armT)) → Runs
      .canvasCancel d (d.dropStaged.tellStandby 2 [])) ∧
  (∀ (d : Dev) (v : Nat), (Instr.canvasCtlConflict v).wf = true → d.sys.phase = .up → 1 < cvCommands v → Runs
      (.canvasCtlConflict v) d d)

/-- Campaigns: where each command completes and what it leaves (11_meter_campaigns.md).
Covers CAMP_CREATE, CAMP_FETCH_DONE, CAMP_START, CAMP_PAUSE, CAMP_RESUME, CAMP_ABORT, CAMP_RELEASE, CAMP_TX_SLOT,
CAMP_RESPONSE, CAMP_ATTEMPT_TIMEOUT. -/
def Obligations.CampaignsComplete : Prop :=
  (∀ (d : Dev) (n : Nat), (Instr.campCreate n).wf = true → d.sys.phase = .up → (d.campaign (d.campSel n)).state = 0 → Runs
      (.campCreate n) d ((d.onCamp (d.campSel n) fun _ => { state := 1, owner := n }).emit (.dmaRead (d.rd64
      Reg.CAMP_SRC_ADDR_LO.VALUE n) (d.rd Reg.CAMP_SRC_LEN.VALUE 0 n)))) ∧
  (∀ (d : Dev) (i : Nat) (body : Option Bytes) (b : Bytes), d.sys.phase = .up → (d.campaign i).state = 1 → body = some b →
      d.campCause (d.campaign i).owner i b = none → Runs (.campFetchDone i body) d ((d.nandWriteN (lpaImages + 512 * i) sCOLD
      d.time.tick (pagesOf b.length)).onCamp i fun x =>
      { state := 2, kind := u b 0 1, owner := x.owner, body := b, nand := b, chk := sealOf (campPayload b) })) ∧
  (∀ (d : Dev) (i : Nat) (body : Option Bytes), d.sys.phase = .up → (d.campaign i).state = 1 → body = none → Runs
      (.campFetchDone i body) d ((d.onCamp i fun _ => {}).campRefuse (d.campaign i).owner 7)) ∧
  (∀ (d : Dev) (n : Nat) (seen : ImgSeen), (Instr.campStart n seen).wf = true → d.sys.phase = .up → d.campOwned n (d.campSel
      n) = true → (d.campaign (d.campSel n)).state = 2 → Runs (.campStart n seen) d ((((d.onCamp (d.campSel n) fun x =>
      { x with targets := d.campTargets x, round := 0 }).enterPhase (d.campSel n) (if (d.campaign (d.campSel n)).kind = 1 then
      3 else 5) seen).campSettle (d.campSel n)))) ∧
  (∀ (d : Dev) (n : Nat), (Instr.campPause n).wf = true → d.sys.phase = .up → d.campOwned n (d.campSel n) = true → campPhase
      (d.campaign (d.campSel n)).state = true → Runs (.campPause n) d (d.onCamp (d.campSel n) CampSt.pause)) ∧
  (∀ (d : Dev) (n : Nat), (Instr.campResume n).wf = true → d.sys.phase = .up → d.campOwned n (d.campSel n) = true →
      (d.campaign (d.campSel n)).state = 8 → Runs (.campResume n) d ((d.onCamp (d.campSel n) fun c =>
      { c with state := c.paused, paused := 0 }).campSettle (d.campSel n))) ∧
  (∀ (d : Dev) (n : Nat), (Instr.campAbort n).wf = true → d.sys.phase = .up → d.campOwned n (d.campSel n) = true → Runs
      (.campAbort n) d (d.onCamp (d.campSel n) fun c => { c with state := 9 })) ∧
  (∀ (d : Dev) (n : Nat), (Instr.campRelease n).wf = true → d.sys.phase = .up → d.campOwned n (d.campSel n) = true →
      ((d.campaign (d.campSel n)).state = 7 ∨ (d.campaign (d.campSel n)).state = 9) → Runs (.campRelease n) d (d.onCamp
      (d.campSel n) fun _ => {})) ∧
  (∀ (d : Dev) (p : Nat) (sys : Bytes) (airtime : Nat) (busy : Bool) (seen : ImgSeen) (e : Dev) (k : Nat), (Instr.campTxSlot
      p sys airtime busy seen).wf = true → d.sys.phase = .up → e = (List.range 16).foldl (fun d i => (if campPhase
      (d.campaign i).phase && d.campLost (d.campaign i) != d.campaign i then d.onCamp i d.campLost else d).campAdvance i seen
      campFuel) d → e.granted = true → e.on Reg.ING_STAT.HOLD = false → (e.mode p ≠ Canvas.mRADIO ∨ e.on
      Reg.RADIO_STAT.STORM p = false) → busy = false → e.isolated p = false → e.paused p = false → (e.port p).txq = [] → SMap.get (fun _ => 0) e.camp.gapTo p ≤ e.time.tick → (List.range 16).find? (fun k => e.campHas p
      ((SMap.get (fun _ => 0) e.camp.turn p + k) % 16)) = some k → Runs (.campTxSlot p sys airtime busy seen) d
      (({ e with camp := { e.camp with turn := SMap.put e.camp.turn p (((SMap.get (fun _ => 0) e.camp.turn p + k) % 16 + 1) % 16) } }
      : Dev).campSend ((SMap.get (fun _ => 0) e.camp.turn p + k) % 16) p sys airtime)) ∧
  (∀ (d : Dev) (i : Nat) (slot : Nat) (answer : CampAnswer) (t : Target), (Instr.campResponse i slot answer).wf = true →
      d.sys.phase = .up → campPhase (d.campaign i).phase = true → (d.campaign i).targets.find? (fun t => t.slot == slot &&
      t.waiting) = some t → Runs (.campResponse i slot answer) d (d.campResponse i slot answer)) ∧
  (∀ (d : Dev) (i : Nat) (slot : Nat) (t : Target), (Instr.campAttemptTimeout i slot).wf = true → d.sys.phase = .up →
      campPhase (d.campaign i).phase = true → (d.campaign i).targets.find? (fun t => t.slot == slot && t.waiting) = some t →
      t.lastTick + 3000 ≤ d.time.tick → Runs (.campAttemptTimeout i slot) d ((d.tgtMiss i slot).campSettle i))

/-- The vault: where each command completes and what it leaves (12_vault.md).
Covers VAULT_ENROL, VAULT_ZEROISE, VAULT_SUBMIT, VAULT_MSG_CHECK, VAULT_PUT, VAULT_REPLACE, VAULT_DESTROY, VAULT_DERIVE,
METER_KEY, ORPHAN_SWEEP_DONE, VAULT_CHAL, VAULT_EXPORT. -/
def Obligations.VaultComplete : Prop :=
  (∀ (d : Dev) (n : Nat) (ps : Pulses) (root : Bytes), (Instr.vaultEnrol n ps).wf = true → d.sys.phase = .up →
      d.rootKey = some root → n = 0 → d.on Reg.VAULT_STAT.ENROL_PERMIT = true → ofLe (x25519 (hkdf root (d.rdBytes
      Reg.VAULT_ENROL_NONCE.VALUE 8) (ascii "HZ-DEVKEY") 32) (d.rdBytes Reg.VAULT_ENROL_PUB.VALUE 8)) ≠ 0 → ps = .made
      → Runs (.vaultEnrol n ps) d (d.vaultEnrol 0 .made)) ∧
  (∀ (d : Dev) (n : Nat) (zkey : Nat), (Instr.vaultZeroise n zkey).wf = true → d.sys.phase = .up → n = 0 → zkey = 0xA55A →
      d.on Reg.VAULT_STAT.ENROL_PERMIT = true → Runs (.vaultZeroise n zkey) d
      ((((({ d with vault := { d.vault with root := {}, enrol := {}, slots := [], mark := none, failed := [], accepted := none, sweep := [], sweepRoots := [], bcast := [] } }
      : Dev).wr Reg.VAULT_STAT.STATE 0).wrBytes Reg.VAULT_BIND.BIND [] 4).vaultStat).vbusy)) ∧
  (∀ (d : Dev) (n : Nat), (Instr.vaultSubmit n).wf = true → d.sys.phase = .up → d.vault.queue.contains n = false → Runs
      (.vaultSubmit n) d
        (let d1 := ({ d with vault := { d.vault with queue := d.vault.queue ++ [n] } } : Dev).vbusy
         d1.emit (.dmaRead (d1.rd Reg.VAULT_MSG_ADDR_LO.VALUE 0 n + 2 ^ 32 * d1.rd Reg.VAULT_MSG_ADDR_HI.VALUE 0 n) (d1.rd Reg.VAULT_MSG_LEN.VALUE 0 n)))) ∧
  (∀ (d : Dev) (m : Option Bytes) (n : Nat), d.sys.phase = .up → d.vault.queue.head? = some n → d.vault.accepted = none →
      Runs (.vaultMsgCheck m) d
      (match m with | none => ((d.vresult n 12 0 0).vaultPop).raise Stk.VAULT.MSG_REJ | some m => match d.vaultCheck n m with | .error code => ((d.vresult n code (u m 5 1 % 16) (bitsOf (u m 34 2) 11 0)).vaultPop).raise Stk.VAULT.MSG_REJ | .ok msg => { d with vault := { d.vault with accepted := some msg } })) ∧
  (∀ (d : Dev) (ps : Pulses) (m : VMsg), d.sys.phase = .up → d.acceptedOp 1 = some m → Runs (.vaultPut ps) d
        (let key := (keyUnwrap (d.txKey m.auth "HZ-XPORT") m.payload).getD []
         d.vaultCommit m (d.slotFor m.slot m.attr m.auth key) ps)) ∧
  (∀ (d : Dev) (ps : Pulses) (m : VMsg), d.sys.phase = .up → d.acceptedOp 2 = some m → Runs (.vaultReplace ps) d
        (let key := (keyUnwrap (d.txKey m.auth "HZ-XPORT") m.payload).getD []
         d.vaultCommit m (d.slotFor m.slot (d.vslot m.slot).attr (d.vslot m.slot).link key) ps)) ∧
  (∀ (d : Dev) (ps : Pulses) (m : VMsg), d.sys.phase = .up → d.acceptedOp 3 = some m → Runs (.vaultDestroy ps) d
      (let d1 := d.vaultCommit m {} ps
       if ps = .failed ∨ ps = .cut 0 then d1 else d1.startSweep m.slot d)) ∧
  (∀ (d : Dev) (ps : Pulses) (m : VMsg), d.sys.phase = .up → d.acceptedOp 4 = some m → Runs (.vaultDerive ps) d
        (let src := bitsOf (u m.payload 0 2) 11 0
         let key := hkdf (d.slotKey src) d.bindVal (slice m.payload 16 16) (keyLen (usageOf m.attr))
         d.vaultCommit m (d.slotFor m.slot m.attr src key) ps)) ∧
  (∀ (d : Dev) (ps : Pulses) (m : VMsg), d.sys.phase = .up → d.acceptedOp 5 = some m → Runs (.meterKey ps) d
      (d.meterKey ps)) ∧
  (∀ (d : Dev), d.sys.phase = .up → d.vault.sweepRoots ≠ [] → Runs .orphanSweepDone d d.orphanSweepDone) ∧
  (∀ (d : Dev) (n : Nat), (Instr.vaultChal n).wf = true → d.sys.phase = .up → (d.seat n).chalTick ≠ some d.time.tick → Runs
      (.vaultChal n) d (d.vaultChal n)) ∧
  (∀ (d : Dev) (n : Nat), (Instr.vaultExport n).wf = true → d.sys.phase = .up → n = 0 → d.rootKey.isSome = true → d.usable
      (d.rd Reg.VAULT_SLOT_SEL.SLOT) = true → attrEXPW (d.vslot (d.rd Reg.VAULT_SLOT_SEL.SLOT)).attr = true → (usageOf
      (d.vslot (d.vslot (d.rd Reg.VAULT_SLOT_SEL.SLOT)).link).attr = 1 ∨ usageOf (d.vslot (d.vslot (d.rd
      Reg.VAULT_SLOT_SEL.SLOT)).link).attr = 5) → Runs (.vaultExport n) d
        (let slot := d.rd Reg.VAULT_SLOT_SEL.SLOT
         let addr := d.rd Reg.VAULT_MSG_ADDR_LO.VALUE + 2 ^ 32 * d.rd Reg.VAULT_MSG_ADDR_HI.VALUE
         (d.emit (.dmaWrite addr (keyWrap (d.txKey (d.vslot slot).link "HZ-XPORT") (d.slotKey slot)))).vresult 0 0 0xF slot))

/-- Links, discovery and election: where each command completes and what it leaves (15_cascade_and_partner.md).
Covers LINK_HELLO, LINK_DELAY_MEASURE, DEAL_FRAME_FORWARD, DISCOVER, ELECT, DEALER, MGMT, ELECTION_LISTEN_EXPIRE,
DISCOVER_SEND, DISCOVER_END, ELECT_WAIT_EXPIRE, DEALER_ANNOUNCE. -/
def Obligations.LinksAndElectionComplete : Prop :=
  (∀ (d : Dev) (l : LinkId) (h : Hello) (k : Nat), (Instr.linkHello l h).wf = true → d.sys.phase = .up → l = .deal k → k < 4
      → d.inCascade = true → h.pos = d.farOf k → h.side = d.side → d.linkIdle k = false → h.idx < 4 → d.farFrom h.pos h.idx =
      d.pos → d.linkUp k = false → Runs (.linkHello l h) d ((d.wr Reg.CAS_STAT.LINKS (d.rd Reg.CAS_STAT.LINKS ||| 2 ^
      k)).sendOn k tyHELLO h.pos false (leBytes 1 k))) ∧
  (∀ (d : Dev) (l : LinkId) (h : Hello) (k : Nat), (Instr.linkHello l h).wf = true → d.sys.phase = .up → l = .deal k → k < 4
      → d.inCascade = true → (h.pos ≠ d.farOf k ∨ h.side ≠ d.side) → Runs (.linkHello l h) d ((d.wr Reg.CAS_STAT.LINKS (d.rd
      Reg.CAS_STAT.LINKS &&& (15 - 2 ^ k))).raise Stk.CAS.MISWIRE)) ∧
  (∀ (d : Dev) (l : LinkId) (h : Hello) (i : Nat), (Instr.linkHello l h).wf = true → d.sys.phase = .up → l = .lane i → Runs
      (.linkHello l h) d (d.laneHello i h)) ∧
  (∀ (d : Dev) (l : LinkId) (ns : Nat), (Instr.linkDelayMeasure l ns).wf = true → d.sys.phase = .up → d.idUp l = true →
      (SMap.find d.cas.delays (linkNum l) = none ∨ ∃ x, SMap.find d.cas.delays (linkNum l) = some x ∧ x.2 + 100 ≤ d.time.tick)
      → Runs (.linkDelayMeasure l ns) d
      ({ d with cas := { d.cas with delays := SMap.put d.cas.delays (linkNum l) (ns, d.time.tick) } })) ∧
  (∀ (d : Dev) (k : Nat) (b : Bytes), (Instr.dealFrameForward k b).wf = true → d.sys.phase = .up → d.inCascade = true →
      d.linkUp k = true → Runs (.dealFrameForward k b) d (d.dealForward k b)) ∧
  (∀ (d : Dev) (x : Discover), (Instr.discover x).wf = true → d.sys.phase = .up → d.inCascade = true → x.plan = d.plan8 →
      Runs (.discover x) d
      ({ d with cas := { d.cas with heard := (d.cas.heard.filter fun y => !(y.pos == x.pos && y.side == x.side)) ++ [x] } })) ∧
  (∀ (d : Dev) (pos : Nat) (side : Nat) (plan : Bytes), (Instr.elect pos side plan).wf = true → d.sys.phase = .up →
      d.inCascade = true → plan = d.plan8 → Runs (.elect pos side plan) d
      ({ d with cas := { d.cas with named := some (pos, side) } })) ∧
  (∀ (d : Dev) (m : DealerMsg), (Instr.dealer m).wf = true → d.sys.phase = .up → d.inCascade = true → m.plan = d.plan8 → ((∃
      t, d.cas.elec = .listen t) ∨ (∃ t x, d.cas.elec = .discover t x) ∨ (d.cas.elec = .joined ∧ d.rd
      Reg.CAS_DEALER_EPOCH.EPOCH ≤ m.epoch) ∨ (∃ t, d.cas.elec = .dealer t ∧ m.pos < d.pos) ∨ (∃ t p x, d.cas.elec = .elect t
      p x ∧ ¬ (p = d.pos ∧ x = d.side ∧ d.pos ≤ m.pos))) → Runs (.dealer m) d (d.join m.pos m.epoch)) ∧
  (∀ (q : List Instr) (a : Arrays) (d : Dev) (rail : Bool) (c : Nat) (b : Bytes), d.sys.phase = .up → d.inCascade = true →
      exec (.mgmt rail c b) ⟨q, a, d⟩ = .next ⟨q, a, if rail then d.mgmtRail a c b else d.mgmtDeal a c b⟩) ∧
  (∀ (d : Dev) (c : Nat) (since : Nat), d.sys.phase = .up → d.cas.elec = .listen since → since + secNs ≤ (d.advance
      c).time.cnt → Runs (.electionListenExpire c) d ((d.advance c).setElec (.discover (d.advance c).time.cnt none))) ∧
  (∀ (d : Dev) (c : Nat) (since : Nat) (last : Option Nat), d.sys.phase = .up → d.cas.elec = .discover since last → (last =
      none ∨ ∃ x, last = some x ∧ x + 200000000 ≤ (d.advance c).time.cnt) → Runs (.discoverSend c) d (((d.advance c).setElec
      (.discover since (some (d.advance c).time.cnt))).elecSend 0 (discoverBytes (d.advance c).ownDiscover))) ∧
  (∀ (d : Dev) (c : Nat) (since : Nat) (last : Option Nat) (p s : Nat), d.sys.phase = .up → d.cas.elec = .discover since last
      → since + secNs ≤ (d.advance c).time.cnt → candOf ((d.advance c).ownDiscover :: (d.advance c).cas.heard) = some (p, s) →
      Runs (.discoverEnd c) d (((d.advance c).setElec (.elect (d.advance c).time.cnt p s)).elecSend 1 (leBytes 1 p ++ leBytes
      1 s ++ (d.advance c).plan8))) ∧
  (∀ (d : Dev) (c : Nat) (since : Nat) (last : Option Nat), d.sys.phase = .up → d.cas.elec = .discover since last → since +
      secNs ≤ (d.advance c).time.cnt → candOf ((d.advance c).ownDiscover :: (d.advance c).cas.heard) = none → Runs
      (.discoverEnd c) d ((d.advance c).setElec (.discover (d.advance c).time.cnt none))) ∧
  (∀ (d : Dev) (c : Nat) (since p s : Nat), d.sys.phase = .up → d.cas.elec = .elect since p s → p = (d.advance c).pos → s =
      (d.advance c).side → since + 200000000 ≤ (d.advance c).time.cnt → Runs (.electWaitExpire c) d ((d.advance
      c).becomeDealer (if (d.advance c).cas.synced then (d.advance c).rd Reg.CAS_DEALER_EPOCH.EPOCH + 1 else 1))) ∧
  (∀ (d : Dev) (c : Nat) (last : Option Nat), d.sys.phase = .up → d.cas.elec = .dealer last → (d.advance c).isDealer = true →
      (last = none ∨ ∃ x, last = some x ∧ x + secNs ≤ (d.advance c).time.cnt) → Runs (.dealerAnnounce c) d
        (let d1 := d.advance c
         (d1.setElec (.dealer (some d1.time.cnt))).elecSend 2 (leBytes 1 d1.pos ++ leBytes 1 d1.side ++ leBytes 4 (d1.rd Reg.CAS_DEALER_EPOCH.EPOCH) ++ leBytes 8 d1.time.tick ++ d1.plan8)))

/-- The dealer: SYNC, alignment, directory and checks: where each command completes and what it leaves
(15_cascade_and_partner.md).
Covers SYNC, SYNC_LOSS, SYNC_REELECT, ALIGN_FAULT, CAS_RENUMBER, DIR, CAS_DIR_QUERY, DIR_ANSWER, CHECK, CHECK_ANSWER. -/
def Obligations.DealerTrafficComplete : Prop :=
  (∀ (d : Dev) (k : Nat) (b : Bytes) (at0 : Int) (resid : Nat) (c : Nat), (Instr.sync k b at0 resid c).wf = true →
      d.sys.phase = .up → k < 4 → d.inCascade = true → d.linkUp k = true → frameOk b = true → ((d.advance c).syncForward k b
      resid).rd Reg.CAS_DEALER_EPOCH.EPOCH ≤ (syncOf (slice b 32 38)).epoch → ((d.advance c).syncForward k b resid).isDealer =
      false → Runs (.sync k b at0 resid c) d (((d.advance c).syncForward k b resid).syncAccept (u b 4 1) (u b 20 4) (syncOf
      (slice b 32 38)) at0 c)) ∧
  (∀ (d : Dev), d.sys.phase = .up → d.cas.synced = true → d.isDealer = false → d.cas.syncLost = false → d.cas.lastSync + 10 ≤
      d.time.tick → Runs .syncLoss d (({ d with cas := { d.cas with syncLost := true } } : Dev).raise Stk.CAS.SYNC_LOST)) ∧
  (∀ (d : Dev) (c : Nat), d.sys.phase = .up → d.cas.synced = true → d.isDealer = false → d.cas.elec = .joined →
      d.cas.lastSync + 100 ≤ d.time.tick → Runs (.syncReelect c) d
        (let d1 := (d.advance c).dropCollects.wr Reg.CAS_STAT.DEALER_POS 0x3F
         ({ d1 with cas := { d1.cas with heard := [], named := none } } : Dev).setElec (.discover d1.time.cnt none))) ∧
  (∀ (d : Dev), d.sys.phase = .up → 10 ≤ d.cas.alignRun → Runs .alignFault d (({ d with cas := { d.cas with alignRun := 0 } }
      : Dev).raise Stk.CAS.ALIGN)) ∧
  (∀ (d : Dev) (c : Nat) (t : Nat) (at0 : Int), d.sys.phase = .up → d.cas.ahead = some (t, at0) → (d.advance c).step = 3 →
      (d.advance c).on Reg.CAS_ERR_STICKY.TICK_AHEAD = true → Runs (.casRenumber c) d (d.casRenumber c)) ∧
  (∀ (d : Dev) (m : DirMsg), d.sys.phase = .up → Runs (.dir m) d (d.dirFrame m)) ∧
  (∀ (d : Dev), d.sys.phase = .up → Runs .casDirQuery d d.dirQuery) ∧
  (∀ (d : Dev) (title : Nat) (r : Option (Nat × Nat)), (Instr.dirAnswer title r).wf = true → d.sys.phase = .up → d.cas.query
      = some title → Runs (.dirAnswer title r) d (({ d with cas := { d.cas with query := none } } : Dev).dirResult r)) ∧
  (∀ (d : Dev) (m : CheckMsg), (Instr.check m).wf = true → d.sys.phase = .up → d.isDealer = true → Runs (.check m) d (d.check
      m)) ∧
  (∀ (d : Dev) (code : Nat), (Instr.checkAnswer code).wf = true → d.sys.phase = .up → d.step = 5 → Runs (.checkAnswer code) d
      (if code = 0 then d.setStep 6 else d.cvCode code))

/-- The balance engine: where each command completes and what it leaves (10_loss_and_theft.md).
Covers PARTIAL, SPAN_EVAL_TIMEOUT, RESULT, NODE_EVALUATE, BAL_REBASE, BAL_RESET_TRACK, TRACKER_ORDER_APPLY. -/
def Obligations.BalanceComplete : Prop :=
  (∀ (d : Dev) (bs : Bytes), d.sys.phase = .up → d.isDealer = true → Runs (.partialIn bs) d (d.partialIn bs)) ∧
  (∀ (d : Dev), d.sys.phase = .up → d.isDealer = true → Runs .spanEvalTimeout d ((d.bal.collects.filter fun k => !k.done &&
      decide (k.since + d.cfg.xWait ≤ d.time.tick)).foldl Dev.evalSpan d)) ∧
  (∀ (d : Dev) (bs : Bytes) (i : Nat), d.sys.phase = .up → d.cfg.spanNode (u bs 0 4) = some i → sealOf (slice bs 0 12) = u bs
      12 4 → Runs (.result bs) d (d.took.writeEval i (u bs 4 4)
      { eIn := sgn 48 (d.fresh useEIn (2 ^ 48)), eOut := sgn 48 (d.fresh useEOut (2 ^ 48)), lTech := (d.fresh useLTech (2 ^ 32) : Nat), lDrop := 0, rbp := sgn 16 (u bs 8 2), sNode := u bs 10 1, flags := u bs 11 1 % 8 + 16 + 32 * b2n (bitOf (u bs 11 1) 5), scored := u bs 11 1 % 8 == 0 && !bitOf (u bs 11 1) 5 })) ∧
  (∀ (d : Dev) (x : NodeTurn) (b : Bound) (bs : List Bound) (d1 : Dev), (Instr.nodeEvaluate x).wf = true → d.sys.phase = .up →
      d.cfg.hasTopo = true → d1 = d.abandonEvals x.seat (d.evalPending x.seat) → d1.evalPending x.seat = b :: bs → d1.evalDue b
      = true → d1.bal.used + x.cost ≤ d1.budget → Runs (.nodeEvaluate x) d
      (({ d1 with bal := { d1.bal with used := d1.bal.used + x.cost } } : Dev).evalBound b false)) ∧
  (∀ (d : Dev) (n : Nat), (Instr.balRebase n).wf = true → d.sys.phase = .up → d.cfg.seatOfSlot (d.rd Reg.BAL_SLOT_SEL.INDEX 0
      n) = some n → Runs (.balRebase n) d (d.admitOrder (d.rd Reg.BAL_SLOT_SEL.INDEX 0 n) n .rebase)) ∧
  (∀ (d : Dev) (n : Nat), (Instr.balResetTrack n).wf = true → d.sys.phase = .up → d.cfg.seatOfSlot (d.rd
      Reg.BAL_SLOT_SEL.INDEX 0 n) = some n → Runs (.balResetTrack n) d (d.admitOrder (d.rd Reg.BAL_SLOT_SEL.INDEX 0 n) n
      .resetTrack)) ∧
  (∀ (d : Dev) (e : Nat) (cost : Nat) (q : QItem) (d1 : Dev), (Instr.trackerOrderApply e cost).wf = true → d.sys.phase = .up
      → d.step = 0 → d.mayDispatch e 2000 = true → d.catchSlots e = [] → cost ≤ 2000 → d.nextItem e = some (q, d1) → (q.work =
      .rebase ∨ q.work = .resetTrack) → Runs (.trackerOrderApply e cost) d (((d1.onEng e fun s =>
      { s with used := s.used + cost }).applyItem q [] none).carryWatch e))

/-- Health, pairing, heartbeats and takeover: where each command completes and what it leaves (15_cascade_and_partner.md).
Covers HEALTH, HEALTH_SEND, POSITION_LOST, PAIRING, HEARTBEAT, TAKEOVER, TAKEOVER_NOTICE, ROLE_RELINQUISH. -/
def Obligations.PositionHealthComplete : Prop :=
  (∀ (d : Dev) (m : HealthMsg), (Instr.health m).wf = true → d.sys.phase = .up → d.isDealer = true → Runs (.health m) d
      (d.health m)) ∧
  (∀ (d : Dev), d.sys.phase = .up → d.isActive = true → d.step = 0 → d.inCascade = true → d.cas.healthAt + 100 ≤ d.time.tick
      → ({ d with cas := { d.cas with healthAt := d.time.tick } } : Dev).isDealer = false → Runs .healthSend d
        (let d1 : Dev := { d with cas := { d.cas with healthAt := d.time.tick } }
         d1.toDealer tyHEALTH false d1.healthBody)) ∧
  (∀ (d : Dev), d.sys.phase = .up → d.isActive = true → d.step = 0 → d.inCascade = true → d.cas.healthAt + 100 ≤ d.time.tick
      → ({ d with cas := { d.cas with healthAt := d.time.tick } } : Dev).isDealer = true → Runs .healthSend d d.healthSend) ∧
  (∀ (d : Dev) (p : Nat) (t : Nat), (Instr.positionLost p).wf = true → d.sys.phase = .up → SMap.find d.cas.posAt p = some t →
      d.isDealer = true → t + 300 ≤ d.time.tick → p < 40 → Runs (.positionLost p) d (d.wr Reg.CAS_POS_STAT.STATE 2 p)) ∧
  (∀ (d : Dev) (jtick : Nat) (pref : Bool), d.sys.phase = .up → d.partnerUp = true → d.step = 4 → Runs (.pairing jtick pref)
      d ((d.wr Reg.CAS_STAT.ROLE (b2n (decide (jtick < d.journalHigh) || (jtick == d.journalHigh && (if d.on
      Reg.GLB_STRAP.PREF == pref then d.side == 0 else d.on Reg.GLB_STRAP.PREF))))).enterCheck)) ∧
  (∀ (d : Dev) (jtick : Nat) (pref : Bool), d.sys.phase = .up → d.partnerUp = true → d.step = 0 → jtick
      ≠ d.journalHigh → Runs (.pairing jtick pref) d ((d.wr Reg.CAS_STAT.RESYNCED 0).resyncStart)) ∧
  (∀ (d : Dev) (h : Beat), d.sys.phase = .up → d.partnerUp = true → Runs (.heartbeat h) d (d.heartbeat h)) ∧
  (∀ (d : Dev) (h : Beat), d.sys.phase = .up → d.cas.beat = some h → d.rd Reg.CAS_STAT.ROLE = 0 → d.step = 0 →
      d.cfg.hasPartner = true → h.tick + 3 ≤ d.time.tick → Runs .takeover d
        (let d1 := (List.range 64).foldl Dev.discardFences ((d.becomeActive.wr Reg.CAS_STAT.RESYNCED 0).raise Stk.CAS.TAKEOVER)
         d1.takeUseqs.admitShadows.regenerate.canvasTakeover.tellTakeover)) ∧
  (∀ (d : Dev) (k : Nat) (b : Bytes), (Instr.takeoverNotice k b).wf = true → d.sys.phase = .up → d.inCascade = true →
      d.linkUp k = true → Runs (.takeoverNotice k b) d (d.takeoverNotice k b)) ∧
  (∀ (d : Dev) (t : Nat), d.sys.phase = .up → d.isActive = true → d.cas.giveUp = some t → t < d.time.tick → Runs
      .roleRelinquish d d.relinquish)

/-- Packages, resync, role swap and command resets: where each command completes and what it leaves
(15_cascade_and_partner.md).
Covers PACKAGE, SHADOW_LEFTOVER, BULK, RESYNC_DONE, RESYNC_TIMEOUT, CAS_SWAP, ROLE_SWAP, CAS_RESET. -/
def Obligations.ResyncAndSwapComplete : Prop :=
  (∀ (d : Dev) (pk : Machine.Package), d.sys.phase = .up → d.isActive = false → d.partnerUp = true → d.step = 0 → Runs
      (.package pk) d (d.package pk)) ∧
  (∀ (d : Dev), d.sys.phase = .up → d.isActive = false → Runs .shadowLeftover d
      (({ d with cas := { d.cas with shadow := d.cas.shadow.filter fun s => decide (d.time.tick < s.tick + 8) } } : Dev).bump
      Reg.CAS_LINK_CNT.LEFTOVER (d.cas.shadow.filter fun s => decide (s.tick + 8 ≤ d.time.tick)).length)) ∧
  (∀ (d : Dev) (item : Machine.BulkItem) (tick : Nat), d.sys.phase = .up → d.isActive = false → d.partnerUp = true →
      d.cas.resyncAt.isSome = true → Runs (.bulk item tick) d (d.bulkTake item tick)) ∧
  (∀ (d : Dev), d.sys.phase = .up → d.partnerUp = true → d.isActive = true → Runs .resyncDone d
      ({ d.wr Reg.CAS_STAT.RESYNCED 1 with cas := { d.cas with resyncAt := none } })) ∧
  (∀ (d : Dev) (t : Nat), d.sys.phase = .up → d.partnerUp = true → d.isActive = false → d.cas.resyncAt = some t → Runs
      .resyncDone d ({ (d.wr Reg.CAS_STAT.RESYNCED 1).wr Reg.CAS_STAT.ROLE 0 with cas := { d.cas with resyncAt := none } })) ∧
  (∀ (d : Dev) (t : Nat), d.sys.phase = .up → d.cas.resyncAt = some t → t + 300 ≤ d.time.tick → Runs .resyncTimeout d
      ((({ d with cas := { d.cas with resyncAt := some d.time.tick } } : Dev).raise Stk.CAS.RESYNC_FAIL).bulkSend)) ∧
  (∀ (d : Dev), d.sys.phase = .up → d.isActive = true → d.on Reg.CAS_STAT.RESYNCED = true → d.time.tick + 8 ≤ d.rd64
      Reg.CAS_SWAP_TICK.TICK → Runs .casSwap d
      ({ d with cas := { d.cas with swapAt := some (d.rd64 Reg.CAS_SWAP_TICK.TICK) } })) ∧
  (∀ (d : Dev), d.sys.phase = .up → d.isActive = true → d.cas.swapAt = some d.time.tick → Runs .roleSwap d
        (let d1 := (d.wr Reg.CAS_STAT.ROLE 0).grantOff
         { d1 with cas := { d1.cas with swapAt := none, shadow := [], ghosts := [], pkgs := [] } })) ∧
  (∀ (d : Dev), d.sys.phase = .up → d.isActive = false → d.rd Reg.CAS_STAT.ROLE = 0 → d.on Reg.CAS_STAT.RESYNCED = true →
      d.partnerUp = true → d.step = 0 → Runs .roleSwap d
        (let d1 := d.becomeActive.takeUseqs.admitShadows
         ({ d1 with cas := { d1.cas with ghosts := [] } } : Dev).tellTakeover)) ∧
  (∀ (d : Dev) (c : Nat) (r : ResetCmd) (level : Nat), d.sys.phase = .up → r = .partner level → d.isActive = false →
      d.partnerUp = true → Runs (.casReset c r) d (d.cmdReset c 8 level)) ∧
  (∀ (d : Dev) (c : Nat) (r : ResetCmd) (b : Bytes), d.sys.phase = .up → r = .dealer b → d.inCascade = true → Runs (.casReset
      c r) d (d.casReset c (.dealer b)))

/-- Own-firmware update: where each command completes and what it leaves (16_own_firmware_update.md).
Covers UPD_STAGE, UPD_STAGE_DONE, UPD_ARM, UPD_ACTIVATE, ENGINE_MICROCODE_SWAP, MICROCODE_SWAP_DONE, UPD_RESTART, UPD_CANCEL,
UPD_HEALTHY, UPD_CONFIRM, UPD_REVERT, TRIAL_DEADLINE. -/
def Obligations.UpdateComplete : Prop :=
  (∀ (d : Dev) (downgrade : Bool), d.sys.phase = .up → d.rd Reg.UPD_STAT.STATE = 0 → d.rd Reg.UPD_SRC_ADDR_LO.VALUE % 64 = 0
      → Runs (.updStage downgrade) d (d.updStage downgrade)) ∧
  (∀ (d : Dev) (img : Option Bytes) (b : Bytes), d.sys.phase = .up → d.rd Reg.UPD_STAT.STATE = 1 → img = some b → Runs
      (.updStageDone img) d (if d.updCheck b ≠ 0 then (d.wr Reg.UPD_STAT.STATE 0).updReject (d.updCheck b) else let i : Image
      :=
      { version := u b 12 4, restart := bitOf (u b 9 1) 0, lverFrom := u b 20 1, lverTo := u b 21 1, sfmt := u b 22 1, bytes := b };
      let d1 := d.nandWriteN (lpaImages + 2048 * d.upd.idle) sCOLD 0 (pagesOf b.length);
      (({ d1 with upd := d1.upd.setStore d1.upd.idle (some i) } : Dev).wr Reg.UPD_STAT.REJECT 0).updRegs 2)) ∧
  (∀ (d : Dev) (img : Option Bytes), d.sys.phase = .up → d.rd Reg.UPD_STAT.STATE = 1 → img = none → Runs (.updStageDone img)
      d ((d.wr Reg.UPD_STAT.STATE 0).updReject 9)) ∧
  (∀ (d : Dev), d.sys.phase = .up → d.updWaits = true → (d.idleImage.map (·.restart)).getD false = false → d.time.tick + 8 ≤
      d.rd64 Reg.UPD_APPLY_TICK.TICK → d.rd64 Reg.UPD_APPLY_TICK.TICK ≤ d.time.tick + 2 ^ 32 → d.rd Reg.CANVAS_STAT.STATE ≠ 4
      → Runs .updArm d (({ d with upd := { d.upd with armT := d.rd64 Reg.UPD_APPLY_TICK.TICK } } : Dev).wr Reg.UPD_STAT.STATE
      3)) ∧
  (∀ (d : Dev), d.sys.phase = .up → d.rd Reg.UPD_STAT.STATE = 3 → d.upd.armT ≤ d.time.tick → Runs .updActivate d ((d.updSwap
      d.time.tick).trialBegin ((d.updSwap d.time.tick).runImage.sfmt != d.runImage.sfmt))) ∧
  (∀ (d : Dev) (e : Nat) (s : Swap), (Instr.engineMicrocodeSwap e).wf = true → d.sys.phase = .up → d.upd.swap = some s → s.t
      + 1 + e ≤ d.time.tick → s.engines.contains e = false → Runs (.engineMicrocodeSwap e) d
      ({ d with upd := { d.upd with swap := some { s with engines := s.engines ++ [e] } } })) ∧
  (∀ (d : Dev) (s : Swap), d.sys.phase = .up → d.upd.swap = some s → s.t + 17 ≤ d.time.tick → 16 ≤ s.engines.length → Runs
      .microcodeSwapDone d (({ d with upd := { d.upd with swap := none } } : Dev).wr Reg.UPD_STAT.SWAP_DONE 1)) ∧
  (∀ (d : Dev) (c : Nat), d.sys.phase = .up → d.updWaits = true → (d.idleImage.map (·.restart)).getD false = true → Runs
      (.updRestart c) d (({ d with upd := { d.upd with restartTo := some d.upd.idle } } : Dev).acceptMapped c 7)) ∧
  (∀ (d : Dev), d.sys.phase = .up → (d.rd Reg.UPD_STAT.STATE = 2 ∨ d.rd Reg.UPD_STAT.STATE = 3 ∨ d.updWaits = true) → Runs .updCancel d
      (({ d with upd := d.upd.setStore d.upd.idle none } : Dev).updRegs 0)) ∧
  (∀ (d : Dev), d.sys.phase = .up → Runs .updHealthy d ({ d with upd := { d.upd with healthy := some d.time.tick } })) ∧
  (∀ (d : Dev) (t : Nat), d.sys.phase = .up → d.rd Reg.UPD_STAT.STATE = 4 → d.cfg.confWin ≤ d.rd Reg.UPD_CLEAN.TICKS →
      d.upd.healthy = some t → d.upd.trialAt ≤ t → d.time.tick ≤ t + 100 → Runs .updConfirm d
      ((({ d with upd := d.upd.setStore d.upd.idle none } : Dev).updRegs 0).record 0x1E40 1 0xFF noIdx [])) ∧
  (∀ (d : Dev) (c : Nat), d.sys.phase = .up → d.rd Reg.UPD_STAT.STATE = 4 → d.runImage.restart = false → Runs (.updRevert c)
      d ((d.updSwap (d.time.tick + 1)).fellBack 1)) ∧
  (∀ (d : Dev) (c : Nat), d.sys.phase = .up → d.rd Reg.UPD_STAT.STATE = 4 → d.runImage.restart = true → Runs (.updRevert c) d
      (({ d with upd := { d.upd with restartTo := some d.upd.idle, fallTo := some 1 } } : Dev).acceptMapped c 7)) ∧
  (∀ (d : Dev) (c : Nat), d.sys.phase = .up → d.upd.trialAt + 3 * d.cfg.confWin ≤ d.time.tick → d.rd Reg.UPD_STAT.STATE = 4 →
      d.runImage.restart = false → Runs (.trialDeadline c) d ((d.updSwap (d.time.tick + 1)).fellBack 2)) ∧
  (∀ (d : Dev) (c : Nat), d.sys.phase = .up → d.upd.trialAt + 3 * d.cfg.confWin ≤ d.time.tick → d.rd Reg.UPD_STAT.STATE = 4 →
      d.runImage.restart = true → Runs (.trialDeadline c) d
      (({ d with upd := { d.upd with restartTo := some d.upd.idle, fallTo := some 2 } } : Dev).acceptMapped c 7))

/-- The event recorder, receivers and power states: where each command completes and what it leaves
(18_events_and_sticky_errors.md, R311, R382, R389).
Covers EVENT_FLUSH, EVENT_SUMMARY, EVT_FETCH, EVT_FETCH_DONE, EVT_INJECT, CHARACTER_LOCK, BLOCK_LOCK_LOSS, DRAM_POWER_DOWN,
LANE_SLEEP. -/
def Obligations.EventsAndPowerStatesComplete : Prop :=
  (∀ (d : Dev), d.sys.phase = .up → (d.evt.dram ++ d.evt.front).isEmpty = false → d.ftlReady = true → Runs .eventFlush d
      d.eventFlush) ∧
  (∀ (d : Dev), d.sys.phase = .up → Runs .eventSummary d ((d.evt.supp.filter fun s => s.first + 100 ≤ d.time.tick).foldl
      Dev.summarise d)) ∧
  (∀ (d : Dev) (n : Nat), (Instr.evtFetch n).wf = true → d.sys.phase = .up → Runs (.evtFetch n) d
        (let d1 := d.wr Reg.EVT_STAT.BUSY 1 0 n
         { d1 with evt := { d1.evt with fetch := SMap.set (fun _ => none) d1.evt.fetch n (some (d1.viewOf n, d1.rd Reg.EVT_SEL_SEQ.ESEQ 0 n)) } })) ∧
  (∀ (d : Dev) (n : Nat) (asRead : Option Bytes) (view req : Nat), (Instr.evtFetchDone n asRead).wf = true → d.sys.phase =
      .up → SMap.get (fun _ => none) d.evt.fetch n = some (view, req) → Runs (.evtFetchDone n asRead) d (d.evtFetchDone n
      asRead)) ∧
  (∀ (d : Dev), d.sys.phase = .up → 0xF000 ≤ d.rd Reg.EVT_INJ.CODE → Runs .evtInject d (d.record (d.rd Reg.EVT_INJ.CODE)
      (d.rd Reg.EVT_INJ.SEV) 0 noIdx [])) ∧
  (∀ (d : Dev) (p : Nat), (Instr.characterLock p).wf = true → d.sys.phase = .up → d.mode p = Canvas.mPLC → d.isolated p =
      false → Runs (.characterLock p) d (((d.wr Reg.PLC_STAT.RX_LOCK 1 p).wr Reg.FP_STAT.LINK 1 p).onPort p fun s =>
      { s with charLock := true })) ∧
  (∀ (d : Dev) (p : Nat), (Instr.characterLock p).wf = true → d.sys.phase = .up → d.mode p = Canvas.mFIELDLINK → d.isolated p
      = false → Runs (.characterLock p) d ((d.onPort p fun s => { s with charLock := true }).fieldlinkUp p)) ∧
  (∀ (d : Dev) (l : LinkId), (Instr.blockLockLoss l).wf = true → d.sys.phase = .up → Runs (.blockLockLoss l) d
      (match l with | .deal k => (if k < 4 then d.wr Reg.CAS_STAT.LINKS (d.rd Reg.CAS_STAT.LINKS &&& (15 - 2 ^ k)) else d) | .lane i => (if 2 ≤ i then d else ({ d with cas := { d.cas with lanes := d.cas.lanes.filter (· != i) } } : Dev).wr Reg.CAS_STAT.PARTNER_UP 0))) ∧
  (∀ (a : Arrays) (d : Dev) (c : Nat) (ch : Nat), (Instr.dramPowerDown c ch).wf = true → d.sys.phase = .up → Canvas.f
      (d.advance c).cfg Canvas.tyPOWER 20 2 ≠ 0 → a.chanDown.contains ch = false → SMap.get (fun _ => 0) a.chanUse ch + 1000 *
      Canvas.f (d.advance c).cfg Canvas.tyPOWER 20 2 ≤ c → RunsOn (.dramPowerDown c ch) (a, d)
      ({ a with chanDown := ch :: a.chanDown }, d.advance c)) ∧
  (∀ (d : Dev) (lane : Nat) (c : Nat) (traffic : Bool), (Instr.laneSleep lane c traffic).wf = true → d.sys.phase = .up → Runs
      (.laneSleep lane c traffic) d (d.laneSleep lane c traffic))

/-- The decoding of the CFGSTRAP resistance in ohms: inside each accepted range its code; outside all of them none (R376,
R377). A bound shared by two ranges is the model's reading (note 4). -/
def Obligations.StrapDecode : Prop :=
  (∀ i r : Nat, i < 16 → strapBounds.getD i 0 < r → r < strapBounds.getD (i + 1) 0 → strapCode r = some i) ∧
  (∀ r : Nat, strapCode r = none ↔ r < 850 ∨ 88000 < r) ∧
  [1000, 1300, 1800, 2400, 3300, 4300, 5600, 7500, 10000, 13000, 18000, 24000, 33000, 43000, 56000, 75000].map strapCode =
    (List.range 16).map some ∧
  (∀ (a b c k : Nat), strapOf [a, b, c] = some k ↔ strapCode a = some k ∧ strapCode b = some k ∧ strapCode c = some k)

/-- The replay unit against IC_RX and WIN (R161): a greater counter is accepted and shifts the window; one up to 16 back is
accepted once; every other is discarded. -/
def Obligations.ReplayWindow : Prop :=
  ∀ rx win ic : Nat,
    (rx < ic → replayCheck rx win ic =
      some (ic, if 16 < ic - rx then 0 else (win * 2 ^ (ic - rx) + 2 ^ (ic - rx - 1)) % 65536)) ∧
    (ic < rx → rx - ic ≤ 16 → bitOf win (rx - 1 - ic) = false → replayCheck rx win ic = some (rx, win + 2 ^ (rx - 1 - ic))) ∧
    (ic = rx → replayCheck rx win ic = none) ∧ (16 < rx - ic → replayCheck rx win ic = none) ∧
    (ic < rx → bitOf win (rx - 1 - ic) = true → replayCheck rx win ic = none)

/-- R11, whole: a register access that is not 32 bits wide and aligned completes without effect but the ACCESS bit of the
block that holds the offset; a read returns 0xFFFF_FFFF; in the MSI-X area an aligned 64-bit access acts as two 32-bit ones.
The offsets of no block and of the MSI-X area are GLOBAL's. -/
def Obligations.MisalignedAccess : Prop :=
  (∀ (d : Dev) (n off len : Nat) (w : Option Nat), (Instr.regAccessMisaligned n off len w).wf = true → d.sys.phase = .up →
    (inMsix off = true → len = 8 → off % 8 = 0 →
      (∀ v, w = some v →
        Runs (.regAccessMisaligned n off len w) d ((d.msixWrite n off (v % 2 ^ 32)).msixWrite n (off + 4) (v / 2 ^ 32))) ∧
      (w = none →
        Runs (.regAccessMisaligned n off len w) d
          ((d.emit (.answer (16 + n) (d.msixRead n (off + 4)))).answer (d.msixRead n off)))) ∧
    (¬ (inMsix off = true ∧ len = 8 ∧ off % 8 = 0) → ¬ (len = 4 ∧ off % 4 = 0) → ∃ e : Dev,
      e = d.raise (accessSticky (if off < 0x200000 then off else 0x70000)) ∧ e.inner = d.inner ∧
      (w.isSome = true → Runs (.regAccessMisaligned n off len w) d e) ∧
      (w = none → Runs (.regAccessMisaligned n off len w) d (e.answer 0xFFFFFFFF)))) ∧
  (∀ (d : Dev) (off : Nat), (d.raise (accessSticky off)).on (accessSticky off).fld = true) ∧
  (∀ off : Nat, 0x200000 ≤ off ∨ off / 0x10000 = 0 ∨ off / 0x10000 = 7 → accessSticky off = Stk.GLB.ACCESS)

/-- R299, whole: a read of a free lock takes it for the lowest requester number and returns 0 to it and the winner to the
others; a held lock returns its owner; REL from the owner, the receiver or a house core releases, from anyone else it is
ignored and counted under R294. -/
def Obligations.MailboxLock : Prop :=
  (∀ (d : Dev) (ags : List Agent) (m : Nat) (w : Agent), (Instr.mbxLock ags m).wf = true → d.sys.phase = .up →
    (∀ n, .seat n ∈ ags → (d.cfg.seatMbxs n).contains m = true) → lowestAgent ags = some w →
    ∃ e, Runs (.mbxLock ags m) d e ∧
      e.rd Reg.MBX_LOCK.OWNER m = (if d.rd Reg.MBX_LOCK.OWNER m = 0 then w.num else d.rd Reg.MBX_LOCK.OWNER m) ∧
      e.out = (ags.reverse.map fun g => .answer g.num (if d.rd Reg.MBX_LOCK.OWNER m = 0 then (if g = w then 0 else w.num)
        else d.rd Reg.MBX_LOCK.OWNER m)) ++ d.out) ∧
  (∀ (ags : List Agent) (w : Agent), lowestAgent ags = some w → w ∈ ags ∧ ∀ g ∈ ags, w.num ≤ g.num) ∧
  (∀ (d : Dev) (g : Agent) (m v k : Nat), (Instr.mbxUnlock g m v).wf = true → d.sys.phase = .up → d.mbxOf g m = some k →
    bitOf v 0 = true →
    ((d.rd Reg.MBX_LOCK.OWNER k = g.num ∨ d.receives g k = true ∨ ∃ i, g = .core i) →
      Runs (.mbxUnlock g m v) d (d.wr Reg.MBX_LOCK.OWNER 0 k)) ∧
    (d.rd Reg.MBX_LOCK.OWNER k ≠ g.num → d.receives g k = false → (∀ i, g ≠ .core i) →
      Runs (.mbxUnlock g m v) d (d.mbxDenied g k)))

/-- R384, whole: at 115 °C WARN and THERM_WARN are set with a major event; below 110 °C WARN clears; while WARN is set nothing
warns again. Temperatures are in 0.1 °C; the hottest sensor gives TJ (R383). -/
def Obligations.ThermalWarning : Prop :=
  Stk.PWR.THERM_WARN.sev = 4 ∧
  ∀ (d : Dev) (temps : List Int), (Instr.thermSample temps).wf = true → d.sys.phase ≠ .off → ∃ e, Runs (.thermSample temps) d e ∧
    (1150 ≤ (hottest temps).1 → d.on Reg.THERM_STAT.WARN = false → e.on Reg.THERM_STAT.WARN = true ∧
      e.on Reg.PWR_ERR_STICKY.THERM_WARN = true ∧ ∃ d1 : Dev, d1.evt = d.evt ∧ e = d1.raise Stk.PWR.THERM_WARN) ∧
    ((hottest temps).1 < 1100 → e.on Reg.THERM_STAT.WARN = false) ∧
    (1100 ≤ (hottest temps).1 → d.on Reg.THERM_STAT.WARN = true → e.on Reg.THERM_STAT.WARN = true) ∧
    ((hottest temps).1 < 1150 → d.on Reg.THERM_STAT.WARN = false → e.on Reg.THERM_STAT.WARN = false) ∧
    ((hottest temps).1 < 1150 ∨ d.on Reg.THERM_STAT.WARN = true →
      e.evt = d.evt ∧ e.on Reg.PWR_ERR_STICKY.THERM_WARN = d.on Reg.PWR_ERR_STICKY.THERM_WARN)

/-- A capture copies the live count into RTC_SUB, RTC_SEC_LO and RTC_SEC_HI and freezes them; a capture while frozen is
ignored; a read of RTC_SEC_HI by the house seat ends the freeze, one by another seat does not (R82). -/
def Obligations.RtcCapture : Prop :=
  (∀ (d : Dev) (c : Nat), d.sys.phase = .up → d.on Reg.RTC_STAT.LOCKED = false → d.on Reg.RTC_STAT.FROZEN = false →
    ∃ e, Runs (.rtcCapture c) d e ∧ e.rd Reg.RTC_SUB.SUB = (d.advance c).rtcUnits % 32768 ∧
      e.rd Reg.RTC_SEC_LO.SEC = (d.advance c).rtcUnits / 32768 % 2 ^ 32 ∧
      e.rd Reg.RTC_SEC_HI.SEC_HI = (d.advance c).rtcUnits / 32768 / 2 ^ 32 % 2 ^ 16 ∧ e.on Reg.RTC_STAT.FROZEN = true ∧
      e.time = (d.advance c).time) ∧
  (∀ (d : Dev) (c : Nat), d.sys.phase = .up → d.on Reg.RTC_STAT.LOCKED = false → d.on Reg.RTC_STAT.FROZEN = true →
    Runs (.rtcCapture c) d (d.advance c)) ∧
  (∀ (d : Dev) (n : Nat), (Instr.rtcSecHiRead n).wf = true → d.sys.phase = .up → ∃ e, Runs (.rtcSecHiRead n) d e ∧
    e.rdata = BitVec.ofNat 32 (d.rd Reg.RTC_SEC_HI.SEC_HI) ∧ e.rd Reg.RTC_SEC_HI.SEC_HI = d.rd Reg.RTC_SEC_HI.SEC_HI ∧
    e.rd Reg.RTC_SUB.SUB = d.rd Reg.RTC_SUB.SUB ∧ e.rd Reg.RTC_SEC_LO.SEC = d.rd Reg.RTC_SEC_LO.SEC ∧
    e.on Reg.RTC_STAT.FROZEN = (if n = 0 then false else d.on Reg.RTC_STAT.FROZEN))

/-- No command puts anything into the queue: after a step the waiting commands are those behind the front (the queue is the
model's, note 3). -/
def Obligations.QueueOnlyLosesItsFront : Prop :=
  (∀ (c : Instr) (s s' : State), exec c s = .next s' → s'.pending = s.pending) ∧
  ∀ (c : Instr) (q : List Instr) (a : Arrays) (d : Dev) (s' : State), step ⟨c :: q, a, d⟩ = .next s' → s'.pending = q

/-- Every command outside SRAM, DRAM, start and reset leaves every byte, check state and bookkeeping of the addressed memories
as they were (R304 to R314). -/
def Obligations.OnlyMemoryCommandsTouchMemory : Prop :=
  ∀ (c : Instr) (s s' : State), usesMemory c = false → exec c s = .next s' → s'.arr = s.arr

/-- While the device is off, quiesced or in reset, every command but those of reset, supply, temperature, the tick, the
real-time clock and the balls leaves the whole state as it was; a write to the RTC does so too, or, met by the lock while the
device quiesces, only raises RTC_LOCK_WR; an edge shows only the level of its ball (R83, R106, R370, R371, R378; note 5). -/
def Obligations.OutsideOperationNothingHappens : Prop :=
  ∀ (c : Instr) (s s' : State), c.wf = true → s.dev.sys.phase ≠ .up → exec c s = .next s' →
    (actsAlways c = false → s' = s ∨ writesRtc c = true ∧ s.dev.sys.phase = .quiesced ∧ s.dev.on Reg.RTC_STAT.LOCKED = true ∧
      s' = { s with dev := s.dev.raise Stk.TIME.RTC_LOCK_WR }) ∧
    (∀ (e : EdgeIn) (level glitch : Bool) (n : Nat), c = .edgeInput e level glitch n →
      s' = if glitch then s else { s with dev := s.dev.edgeBall e level })

/-- A field of a register reads as it was last written, cut to its width, and a write changes no other field: neither of
another word nor another field of its word (R8, R9). -/
def Obligations.RegisterReadsBack : Prop :=
  ∀ (d : Dev) (F : Fld) (v i cp : Nat), F.lo ≤ F.hi → F.hi < 32 →
    (d.wr F v i cp).rd F i cp = v % 2 ^ (F.hi + 1 - F.lo) ∧
    (∀ (G : Fld) (j c : Nat), c * 2 ^ 24 + (G.off + j * G.stride) ≠ cp * 2 ^ 24 + (F.off + i * F.stride) →
      (d.wr F v i cp).rd G j c = d.rd G j c) ∧
    (∀ (G : Fld) (j : Nat), G.off + j * G.stride = F.off + i * F.stride → G.lo ≤ G.hi → G.hi < 32 →
      (G.hi < F.lo ∨ F.hi < G.lo) → (d.wr F v i cp).rd G j cp = d.rd G j cp) ∧
    (d.wr F v i cp).inner = d.inner

/-- The access types on every row of the register map, bit by bit: what a write makes of a bit, what a read shows of it, what
a permitted read clears; a bit of no field reads as zero and keeps its place (R9, R10). -/
def Obligations.AccessTypes : Prop :=
  ∀ r ∈ regRows, ∀ (w v : Word) (j : Nat), j < 32 →
    (∀ f ∈ r.fields, f.lo ≤ j → j ≤ f.hi →
      (writeWord r.fields w v).getLsbD j = (match f.acc with
        | .rw => v.getLsbD j
        | .w1c | .rws => w.getLsbD j && !v.getLsbD j
        | .ro | .wo | .rc => w.getLsbD j) ∧
      (readWord r.fields w).testBit j = (f.acc != .wo && w.getLsbD j) ∧
      (clearedWord r.fields w).getLsbD j = (f.acc != .rc && w.getLsbD j)) ∧
    ((∀ f ∈ r.fields, ¬ (f.lo ≤ j ∧ j ≤ f.hi)) →
      (writeWord r.fields w v).getLsbD j = w.getLsbD j ∧ (readWord r.fields w).testBit j = false ∧
      (clearedWord r.fields w).getLsbD j = w.getLsbD j)

/-- A write to a register that the view of a seat hides, or only shows, changes nothing but the seat's own SEAT_VIOL,
SEAT_STAT.VIOL and what the event of the latter reaches; a read of a hidden one returns zero (R21, R294). -/
def Obligations.HiddenWriteFrame : Prop :=
  ∀ (d : Dev) (n off c : Nat), n < 64 → off % 4 = 0 → d.sys.phase = .up → d.hasFunction n = true → off < msixTable →
    (∀ (v : Word) (items : List Bytes),
      ((d.advance c).spot n off = .hidden ∨
        ∃ r i cp, (d.advance c).spot n off = .look r i cp ∧ writable r.fields = true) →
      ∃ e, Runs (.regWrite (.seat n) off v c items) d e ∧ e.inner = (d.advance c).inner ∧
        e.rd Reg.SEAT_VIOL.COUNT n = min (d.rd Reg.SEAT_VIOL.COUNT n + 1) 0xFFFF ∧ e.on Reg.SEAT_STAT.VIOL n = true ∧
        ∀ o k : Nat, quietOff o → k * 2 ^ 24 + o ≠ Reg.SEAT_VIOL.COUNT.off + n * Reg.SEAT_VIOL.COUNT.stride →
          k * 2 ^ 24 + o ≠ Reg.SEAT_STAT.VIOL.off + n * Reg.SEAT_STAT.VIOL.stride → e.word o k = d.word o k) ∧
    ((d.advance c).spot n off = .hidden → Runs (.readClear (.seat n) off c) d ((d.advance c).answer 0))

/-- A write of a register that does nothing beyond its access types changes that register of the copy the seat reaches and no
other; of a register with one copy for each seat a seat reaches its own (R9, R402, R403). -/
def Obligations.PlainWriteFrame : Prop :=
  ∀ (d : Dev) (n off c : Nat) (v : Word) (items : List Bytes) (r : RegRow) (i cp : Nat), n < 64 → off % 4 = 0 →
    d.sys.phase = .up → d.hasFunction n = true → off < msixTable → (d.advance c).spot n off = .reach r i cp →
    r.off ≠ Reg.MBX_DOORBELL.BIT.off → r.off ≠ Reg.MBX_UNLOCK.REL.off →
    (d.advance c).writeSys n r.off i v.toNat c = none → (d.advance c).writeWork n r.off i v.toNat = none →
    (d.advance c).writeSeats n r.off i v.toNat c items = none →
    (r.view = .o → cp = n) ∧
    ∃ e, Runs (.regWrite (.seat n) off v c items) d e ∧ e.inner = (d.advance c).inner ∧ e.out = d.out ∧ e.evt = d.evt ∧
      e.mbx = d.mbx ∧ e.seats = d.seats ∧
      e.word (r.off + i * r.stride) cp = writeWord r.fields (d.word (r.off + i * r.stride) cp) v ∧
      ∀ o k : Nat, k * 2 ^ 24 + o ≠ cp * 2 ^ 24 + (r.off + i * r.stride) → e.word o k = d.word o k

/-- Writing TIME_RATE folds the accrued term into OFS at the counter value of the write, so that corrected time does not step
(R69). The hypothesis keeps the folded offset inside its 64 bits. -/
def Obligations.CorrectedTimeNeverSteps : Prop :=
  ∀ (d : Dev) (c v : Nat), v < 2 ^ 32 → d.sys.phase = .up →
    -(2 ^ 63) ≤ (d.advance c).time.ofs + (d.advance c).accrued (d.advance c).time.cnt →
    (d.advance c).time.ofs + (d.advance c).accrued (d.advance c).time.cnt < 2 ^ 63 →
    ∃ e, Runs (.timeRateWrite c v) d e ∧ e.ct = (d.advance c).ct ∧ e.rd Reg.TIME_RATE.RATE = v ∧
      e.time.cnt = (d.advance c).time.cnt ∧ e.time.ca = (d.advance c).time.cnt ∧
      e.time.ofs = (d.advance c).time.ofs + (d.advance c).accrued (d.advance c).time.cnt ∧ e.timeless = d.timeless ∧
      ∀ o k : Nat, k * 2 ^ 24 + o ≠ Reg.TIME_RATE.RATE.off → e.word o k = d.word o k

/-- What the cipher seals under a key and an IV with a 12-byte tag, it opens again under the same key, IV and additional data
(R156: AES-GCM-128 with a 12-byte authentication tag). -/
def Obligations.SealOpens : Prop :=
  ∀ (key iv aad pt : Bytes), key.length = 16 → iv.length = 12 →
    gcmOpen key iv aad (gcmSeal key iv aad pt 12).1 (gcmSeal key iv aad pt 12).2 = some pt ∧
    (gcmSeal key iv aad pt 12).2.length = 12 ∧ (gcmSeal key iv aad pt 12).1.length = pt.length

/-- An atomic operation changes no byte outside its word and nothing of the DRAM, whatever it meets (R307). -/
def Obligations.SramAtomicFrame : Prop :=
  ∀ (c req addr n : Nat) (op : AtomicOp) (v : Nat) (ups : List Upset) (s s' : State),
    exec (.sramAtomic c req addr n op v ups) s = .next s' →
    (∀ x, x < addr ∨ addr + n ≤ x → s'.arr.sram.byte x = s.arr.sram.byte x) ∧ s'.arr.dram = s.arr.dram

/-- An atomic add or swap on a word that is clean or has a correctable error returns the old value and stores the sum, wrapped
at the width, or the new value (R307). -/
def Obligations.AtomicReturnsOld : Prop :=
  ∀ (s : State) (c req addr n : Nat) (op : AtomicOp) (v : Nat), (Instr.sramAtomic c req addr n op v []).wf = true →
    addr < 2 ^ 27 → s.dev.sys.phase = .up → op ≠ .other → s.dev.groupOff (bankOf (addr / 8)) = false →
    s.dev.groupFailed (bankOf (addr / 8)) = false →
    (s.arr.sram.check (addr / 8) = .clean ∨ s.arr.sram.check (addr / 8) = .single) →
    ∃ t, exec (.sramAtomic c req addr n op v []) s = .next t ∧ t.pending = s.pending ∧
      (∃ busy, t.arr.resp = { req, addr, cyc := c, data := s.arr.sram.peek addr n, busy, poison := false } :: s.arr.resp) ∧
      t.arr.sram.peek addr n = (if op = .add then s.arr.sram.peek addr n + v else v) % 2 ^ (8 * n)

/-- A partial write merges its bytes into a clean or correctable word and stores none into an uncorrectable or poisoned one, nor
into a group that is off, where it sets OFF_ACCESS; no byte outside those it names changes, of either memory (R308, R310). -/
def Obligations.PartialWriteFrame : Prop :=
  (∀ (sel : MemSel) (addr : Nat) (bs : Bytes) (ups : List Upset) (s s' : State),
    exec (.partialWrite sel addr bs ups) s = .next s' →
    (∀ x, sel = .dram ∨ x < addr ∨ addr + bs.length ≤ x → s'.arr.sram.byte x = s.arr.sram.byte x) ∧
    (∀ x, sel = .sram ∨ x < addr ∨ addr + bs.length ≤ x → s'.arr.dram.byte x = s.arr.dram.byte x)) ∧
  (∀ (addr : Nat) (bs : Bytes) (s : State), (Instr.partialWrite .sram addr bs []).wf = true → addr < 2 ^ 27 →
    s.dev.sys.phase = .up → s.dev.groupOff (bankOf (addr / 8)) = false → s.dev.groupFailed (bankOf (addr / 8)) = false →
    ∃ t, exec (.partialWrite .sram addr bs []) s = .next t ∧
      (s.arr.sram.check (addr / 8) = .clean ∨ s.arr.sram.check (addr / 8) = .single →
        ∀ i, i < bs.length → t.arr.sram.byte (addr + i) = bs.getD i 0) ∧
      (s.arr.sram.check (addr / 8) = .single → t.arr.sram.check (addr / 8) = .clean ∧
        t.dev = s.dev.bump Reg.MEM_SRAM_MERGE.COR_MERGE) ∧
      (s.arr.sram.check (addr / 8) = .clean → t.dev = s.dev) ∧
      (s.arr.sram.check (addr / 8) = .double ∨ s.arr.sram.check (addr / 8) = .poison →
        (∀ x, t.arr.sram.byte x = s.arr.sram.byte x) ∧ t.arr.sram.check (addr / 8) = .poison ∧
        t.dev = (s.dev.bump Reg.MEM_SRAM_MERGE.POISON_KEEP).raise Stk.MEM.PARTIAL_POISON noIdx [(4, 8 * (addr / 8))])) ∧
  (∀ (addr : Nat) (bs : Bytes) (ups : List Upset) (s : State), (Instr.partialWrite .sram addr bs ups).wf = true →
    addr < 2 ^ 27 → s.dev.sys.phase = .up → s.dev.groupOff (bankOf (addr / 8)) = true →
    ∃ t, exec (.partialWrite .sram addr bs ups) s = .next t ∧ (∀ x, t.arr.sram.byte x = s.arr.sram.byte x) ∧
      t.dev = s.dev.raise Stk.MEM.OFF_ACCESS)

/-- The requests of one cycle change no byte of SRAM that none of them stores to, and nothing of the DRAM (R305, R306). -/
def Obligations.SramAccessFrame : Prop :=
  ∀ (c : Nat) (reqs : List MemReq) (ups : List Upset) (s s' : State), exec (.sramAccess c reqs ups) s = .next s' →
    (∀ x, (∀ r ∈ reqs, ¬ storesTo r x) → s'.arr.sram.byte x = s.arr.sram.byte x) ∧ s'.arr.dram = s.arr.dram

/-- Raising a sticky bit records into one view: the ESEQ series of the other views, the NAND log and everything inside the
device stay, and of the registers outside EVENTS and MAILBOX only the bit's own word changes (R390, R394). A full front buffer
records FB_OVERWRITE, which is the device's own view 0xFF (R396). -/
def Obligations.AnEventEntersOneView : Prop :=
  ∀ (d : Dev) (S : Sticky) (i cp bit view idx : Nat) (vals : List (Nat × Nat)) (e : Dev),
    e = d.raiseIn S i cp bit view idx vals →
    e.inner = d.inner ∧ e.evt.log = d.evt.log ∧ e.evt.dram = d.evt.dram ∧ e.evt.fetch = d.evt.fetch ∧
    (∀ v, v ≠ view → v ≠ 0xFF → SMap.get (fun _ => 0) e.evt.nextSeq v = SMap.get (fun _ => 0) d.evt.nextSeq v) ∧
    ∀ o k : Nat, quietOff o → k * 2 ^ 24 + o ≠ cp * 2 ^ 24 + (S.fld.off + i * S.fld.stride) → e.word o k = d.word o k

/-- Commands that only report or flag: they change registers, events, mailboxes, interrupt vectors and outputs, and nothing
inside the device. -/
def Obligations.ReportFrame : Prop :=
  ∀ i : Instr, (match i with
      | .resetNRelease | .rxPairReversed _ | .pauseRelease _ | .irqPoll _ | .ringHostPtrWrite _ _ _ _
      | .memClrCollide _ | .doorbellAged _ | .lockTimeout _ | .evtInject | .mbxUnlock _ _ _ => true
      | _ => false) = true →
    Leaves i fun d e => e.inner = d.inner

/-- Commands of the clock change the clock, registers and what reporting changes, and nothing else inside the device (R69 to
R83). -/
def Obligations.TimeFrame : Prop :=
  ∀ i : Instr, (match i with
      | .timeSlew _ _ | .timeDiscipline _ _ | .timeRateWrite _ _ | .holdoverExpire | .ppsEdge _ | .ppsLoss _
      | .rtcCheck _ | .rtcCompensate _ _ _ => true
      | _ => false) = true →
    Leaves i fun d e => e.timeless = d.timeless

/-- A doorbell ring without FENCE: onto a pending bit it merges, counts in MERGED and signals nothing; otherwise it sets the
bit and, where unmasked, raises the receiver's interrupt (R297). -/
def Obligations.RingMerges : Prop :=
  ∀ (d : Dev) (g : Agent) (m v k : Nat), (Instr.mbxDoorbell g m v).wf = true → d.sys.phase = .up → d.mbxOf g m = some k →
    k < 64 → d.mayRing g k (bitsOf v 4 0) = true → bitOf v 5 = false →
    ∃ e, Runs (.mbxDoorbell g m v) d e ∧ e.inner = d.inner ∧
      (bitOf (d.rd Reg.MBX_PEND.PEND k) (bitsOf v 4 0) = true → e.rd Reg.MBX_PEND.PEND k = d.rd Reg.MBX_PEND.PEND k ∧
        e.rd Reg.MBX_CNT.MERGED k = min (d.rd Reg.MBX_CNT.MERGED k + 1) Reg.MBX_CNT.MERGED.max ∧ e.out = d.out) ∧
      (bitOf (d.rd Reg.MBX_PEND.PEND k) (bitsOf v 4 0) = false →
        e.rd Reg.MBX_PEND.PEND k = (d.rd Reg.MBX_PEND.PEND k + 2 ^ bitsOf v 4 0) % 2 ^ 32 ∧
        e.rd Reg.MBX_CNT.MERGED k = d.rd Reg.MBX_CNT.MERGED k ∧
        (bitOf (d.rd Reg.MBX_MASK.MASK k) (bitsOf v 4 0) = true → e.out = d.out) ∧
        (bitOf (d.rd Reg.MBX_MASK.MASK k) (bitsOf v 4 0) = false → d.cfg.mbxSeat k = none → e.out = .coreIrq k :: d.out)) ∧
      ∀ j, j < 64 → j ≠ k → e.rd Reg.MBX_PEND.PEND j = d.rd Reg.MBX_PEND.PEND j

/-- With 4 fences outstanding LDG_FENCE is ignored and sets REJ; with fewer, one that names no bit of the device's own joins
the seat's fences in order (R28, R30). -/
def Obligations.FenceLimit : Prop :=
  ∀ (d : Dev) (n v : Nat), (Instr.ldgFence n v).wf = true → d.sys.phase = .up →
    (4 ≤ (d.seat n).fences.length → ∃ e, Runs (.ldgFence n v) d e ∧ (e.seat n).fences = (d.seat n).fences ∧
      e.on Reg.LDG_FENCE_STAT.REJ 0 n = true ∧ e.inner = d.inner) ∧
    ((d.seat n).fences.length < 4 → ¬ (bitOf v 17 = true ∧ 28 ≤ bitsOf v 22 18) → ∃ e f, Runs (.ldgFence n v) d e ∧
      (e.seat n).fences = (d.seat n).fences ++ [f] ∧ f.tag = bitsOf v 15 0 ∧ f.cut = (d.seat n).nextAseq ∧
      f.tick = d.time.tick ∧ e.rd Reg.LDG_FENCE_STAT.OUTSTANDING 0 n = (d.seat n).fences.length + 1 ∧ e.inner = d.inner)

/-- The memories of the reset state are in canonical form. -/
def Obligations.ResetMemoryIsCanonical : Prop :=
  Memory.wf State.reset.arr = true

/-- Every step keeps the canonical form of the memories: addresses strictly rising and nothing listed that an unlisted address
reads as. -/
def Obligations.StepKeepsMemoryCanonical : Prop :=
  ∀ s s' : State, Memory.wf s.arr = true → step s = .next s' → Memory.wf s'.arr = true

/-- However often and in whatever order invocation counters are offered, the replay unit accepts none of them twice (R161). -/
def Obligations.ReplayNeverTwice : Prop :=
  ∀ (rx win : Nat) (offered : List Nat), (acceptedCounters rx win offered).Nodup ∧
    ∀ ic ∈ acceptedCounters rx win offered, ic ∈ offered ∧ ic ≠ rx
end

