-- ==== Sys2Proof/Laws/Crypto.lean ====
section
/-!
SUPPORT. Lengths of what the block cipher yields: round keys, blocks and key streams.
-/

namespace Sys2Proof.Machine

@[simp] theorem xorL_length (a b : List Nat) : (xorL a b).length = min a.length b.length := by simp [xorL]

@[simp] theorem shiftRows_length (inv : Bool) (s : List Nat) : (shiftRows inv s).length = 16 := by simp [shiftRows]

@[simp] theorem leBytes_length (n v : Nat) : (leBytes n v).length = n := by
  induction n generalizing v with
  | zero => rfl
  | succ n ih => simp [leBytes, ih]

@[simp] theorem beBytes_length (n v : Nat) : (beBytes n v).length = n := by simp [beBytes]

/-- The expanded key consists of four-byte words. -/
theorem aesExpand_words (nk n i rcon : Nat) (ws : List (List Nat)) (hk : 0 < nk) (hn : nk ≤ ws.length)
    (h : ∀ w ∈ ws, w.length = 4) :
    (aesExpand nk n i rcon ws).length = n + ws.length ∧ ∀ w ∈ aesExpand nk n i rcon ws, w.length = 4 := by
  induction n generalizing i rcon ws with
  | zero => exact ⟨by simp [aesExpand], h⟩
  | succ n ih =>
    have get : ∀ k, k < ws.length → (ws.getD k []).length = 4 := fun k hk => by
      rw [List.getD_eq_getElem _ _ hk]; exact h _ (List.getElem_mem hk)
    have h0 := get 0 (by omega)
    have h1 := get (nk - 1) (by omega)
    unfold aesExpand; extract_lets prev back sub t
    have hp : prev.length = 4 := h0
    have hs : ∀ w : List Nat, (sub w).length = w.length := fun w => by simp [sub]
    have ht : t.length = 4 := by
      simp only [t]; split
      · rw [xorL_length, hs]; simp [hp]
      · split
        · rw [hs, hp]
        · exact hp
    have := ih (i + 1) (if i % nk = 0 then gfDouble rcon else rcon) (xorL back t :: ws) (by simp; omega) (by
      intro w hw
      simp only [List.mem_cons] at hw
      rcases hw with rfl | hw
      · rw [xorL_length, ht]
        have hb : back.length = 4 := h1
        rw [hb]; rfl
      · exact h w hw)
    exact ⟨by rw [this.1]; simp; omega, this.2⟩

/-- The round keys of a 16-byte key: eleven of sixteen bytes. -/
theorem aesKeys_length (key : Bytes) (hk : key.length = 16) :
    (aesKeys key).length = 11 ∧ ∀ k ∈ aesKeys key, k.length = 16 := by
  unfold aesKeys; extract_lets k nk w0 rounds ws
  have e4 : nk = 4 := by simp [nk, hk]
  have hw0 : ∀ w ∈ w0.reverse, w.length = 4 := by
    intro w hw
    simp only [w0, List.mem_reverse, List.mem_map, List.mem_range] at hw
    obtain ⟨i, hi, rfl⟩ := hw
    rw [e4] at hi
    simp [k, hk]; omega
  have hl : w0.reverse.length = 4 := by simp [w0, e4]
  have hr : rounds = 10 := by simp [rounds, e4]
  have hx := aesExpand_words nk (4 * (rounds + 1) - nk) nk 1 w0.reverse (by omega) (by omega) hw0
  have hws : ws.length = 44 := by rw [List.length_reverse, hx.1, hl, hr, e4]
  have hwm : ∀ w ∈ ws, w.length = 4 := fun w hw => hx.2 w (by simpa [ws] using hw)
  refine ⟨by simp [hr], fun x hm => ?_⟩
  simp only [List.mem_map, List.mem_range] at hm
  obtain ⟨r, hr', rfl⟩ := hm
  have key : ∀ l : List (List Nat), (∀ w ∈ l, w.length = 4) → l.flatten.length = 4 * l.length := by
    intro l
    induction l with
    | nil => intro _; rfl
    | cons a l ih =>
      intro hl
      rw [List.flatten_cons, List.length_append, ih fun w hw => hl w (by simp [hw]), hl a (by simp)]
      simp; omega
  rw [key _ fun w hw => hwm w (List.mem_of_mem_drop (List.mem_of_mem_take hw))]
  simp only [List.length_take, List.length_drop, hws]
  omega

/-- A block is sixteen bytes where the round keys are. -/
theorem aesEncBlock_length (ks : List (List Nat)) (blk : Bytes) (h0 : ks ≠ []) (h : ∀ k ∈ ks, k.length = 16) :
    (aesEncBlock ks blk).length = 16 := by
  have hl : (ks.getLastD []).length = 16 := by
    rw [List.getLastD_eq_getLast?, List.getLast?_eq_some_getLast h0]
    exact h _ (List.getLast_mem h0)
  unfold aesEncBlock; dsimp only
  rw [List.length_map, xorL_length, hl, shiftRows_length]; rfl

/-- A key stream as long as the text, and so a ciphertext as long as the plaintext. -/
theorem gcmCtr_length (ks : List (List Nat)) (iv bs : Bytes) (h0 : ks ≠ []) (h : ∀ k ∈ ks, k.length = 16) :
    (gcmCtr ks iv bs).length = bs.length := by
  have key : ∀ (l : List Nat) (f : Nat → Bytes), (∀ i, (f i).length = 16) → (l.flatMap f).length = 16 * l.length := by
    intro l f hf
    induction l with
    | nil => rfl
    | cons a l ih => rw [List.flatMap_cons, List.length_append, ih, hf]; simp; omega
  unfold gcmCtr
  simp only [List.length_zipWith, key _ _ fun i => aesEncBlock_length ks _ h0 h, List.length_range]
  omega

end Sys2Proof.Machine
end

