-- ==== Sys2Proof/Laws/Exec.lean ====
section
/-!
SUPPORT. What the four wrappers of a meaning can answer: one lemma for each says everything that a next state of it holds, and
what a gate does while the device is not in operation.
-/

namespace Sys2Proof.Machine

/-- A command on the device that answers a next state: only the device has changed. -/
theorem act_next {s s' : State} {i : Instr} {g : Dev → Dev} (h : act s i g = .next s') :
    s' = { s with dev := g s.dev } ∧ i.wf = true := by
  unfold act at h; split at h
  · cases h; exact ⟨rfl, by assumption⟩
  · cases h

/-- The same of a command that reads the memories. -/
theorem actRead_next {s s' : State} {i : Instr} {g : Arrays → Dev → Dev} (h : actRead s i g = .next s') :
    s' = { s with dev := g s.arr s.dev } ∧ i.wf = true := by
  unfold actRead at h; split at h
  · cases h; exact ⟨rfl, by assumption⟩
  · cases h

/-- A command on the device and the memories that answers a next state. -/
theorem actArrays_next {s s' : State} {i : Instr} {g : Arrays × Dev → Arrays × Dev} (h : actArrays s i g = .next s') :
    s' = { s with arr := (g (s.arr, s.dev)).1, dev := (g (s.arr, s.dev)).2 } ∧ i.wf = true := by
  unfold actArrays at h; split at h
  · cases h; exact ⟨rfl, by assumption⟩
  · cases h

/-- A command on an address that answers a next state: the address exists. -/
theorem actMemory_next {s s' : State} {i : Instr} {f : Fault} {ok : Bool} {g : Arrays × Dev → Arrays × Dev}
    (h : actMemory s i f ok g = .next s') :
    s' = { s with arr := (g (s.arr, s.dev)).1, dev := (g (s.arr, s.dev)).2 } ∧ i.wf = true ∧ ok = true := by
  unfold actMemory at h; split at h
  · exact ⟨(actArrays_next h).1, (actArrays_next h).2, by assumption⟩
  · split at h <;> cases h

/-- A command on an address that exists. -/
theorem actMemory_ok {s : State} {i : Instr} {f : Fault} {ok : Bool} {g : Arrays × Dev → Arrays × Dev} (hw : i.wf = true)
    (h : ok = true) :
    actMemory s i f ok g = .next { s with arr := (g (s.arr, s.dev)).1, dev := (g (s.arr, s.dev)).2 } := by
  rw [actMemory, if_pos h, actArrays, if_pos hw]

/-- A command on an address that does not exist is a fault. -/
theorem actMemory_fault {s : State} {i : Instr} {f : Fault} {ok : Bool} {g : Arrays × Dev → Arrays × Dev} (hw : i.wf = true)
    (h : ok = false) : actMemory s i f ok g = .fault f := by
  rw [actMemory, if_neg (by simp [h]), if_pos hw]

/-- In operation a command on the memories acts. -/
theorem Dev.arraysUp_up {p : Arrays × Dev} (g : Arrays × Dev → Arrays × Dev) (h : p.2.sys.phase = .up) :
    Dev.arraysUp g p = g p := if_pos h

/-- Out of operation a gated command does nothing. -/
theorem Dev.whenUp_not {d : Dev} (g : Dev → Dev) (h : d.sys.phase ≠ .up) : d.whenUp g = d := if_neg h

theorem Dev.whenOpen_not {d : Dev} (g : Dev → Dev) (h : d.sys.phase ≠ .up) : d.whenOpen g = d := if_neg fun x => h x.1

theorem Dev.arraysUp_not {p : Arrays × Dev} (g : Arrays × Dev → Arrays × Dev) (h : p.2.sys.phase ≠ .up) :
    Dev.arraysUp g p = p := if_neg h

/-- A command on the device answers the state its body gives, for operands that exist. -/
theorem runs_act {i : Instr} {d e : Dev} {g : Dev → Dev} (h : ∀ s : State, exec i s = act s i g) (hw : i.wf = true) (he : g d = e) :
    Runs i d e := by
  intro q a
  rw [h, act, if_pos hw, ← he]

end Sys2Proof.Machine
end

