-- ==== Sys2Proof/Laws/SMap.lean ====
section
/-!
SUPPORT. Laws of sparse maps: reading after writing, and the canonical form.
-/

namespace Sys2Proof.Machine

variable {α : Type}

theorem SMap.get_put_same (d : Nat → α) (m : SMap α) (k : Nat) (v : α) : SMap.get d (m.put k v) k = v := by
  induction m with
  | nil => simp [SMap.put, SMap.get]
  | cons p m ih =>
    obtain ⟨k', v'⟩ := p
    unfold SMap.put
    split
    · simp [SMap.get]
    · split
      · simp [SMap.get]
      · rename_i h; simpa [SMap.get, h] using ih

theorem SMap.get_put_other (d : Nat → α) (m : SMap α) {k j : Nat} (v : α) (h : j ≠ k) :
    SMap.get d (m.put k v) j = SMap.get d m j := by
  induction m with
  | nil => simp [SMap.put, SMap.get, h]
  | cons p m ih =>
    obtain ⟨k', v'⟩ := p
    unfold SMap.put
    split
    · simp [SMap.get, h]
    · split
      · rename_i e; subst e; simp [SMap.get, h]
      · simp [SMap.get, ih]

theorem SMap.get_erase_same (d : Nat → α) (m : SMap α) (k : Nat) : SMap.get d (m.erase k) k = d k := by
  induction m with
  | nil => rfl
  | cons p m ih =>
    obtain ⟨k', v'⟩ := p
    by_cases h : k' = k
    · subst h; simpa [SMap.erase] using ih
    · have h' : k ≠ k' := fun e => h e.symm
      simpa [SMap.erase, h, SMap.get, h'] using ih

theorem SMap.get_erase_other (d : Nat → α) (m : SMap α) {k j : Nat} (h : j ≠ k) :
    SMap.get d (m.erase k) j = SMap.get d m j := by
  induction m with
  | nil => rfl
  | cons p m ih =>
    obtain ⟨k', v'⟩ := p
    by_cases e : k' = k
    · subst e; simpa [SMap.erase, SMap.get, h] using ih
    · by_cases e2 : j = k'
      · subst e2; simp [SMap.erase, SMap.get, e]
      · simpa [SMap.erase, SMap.get, e, e2] using ih

section
variable [DecidableEq α]

/-- Reading where a map was just written gives what was written. -/
@[simp] theorem SMap.get_set_same (d : Nat → α) (m : SMap α) (k : Nat) (v : α) : SMap.get d (SMap.set d m k v) k = v := by
  unfold SMap.set
  split
  · rename_i h; rw [SMap.get_erase_same, h]
  · exact SMap.get_put_same d m k v

/-- Writing one key leaves every other as it was. -/
theorem SMap.get_set_other (d : Nat → α) (m : SMap α) {k j : Nat} (v : α) (h : j ≠ k) :
    SMap.get d (SMap.set d m k v) j = SMap.get d m j := by
  unfold SMap.set
  split
  · exact SMap.get_erase_other d m h
  · exact SMap.get_put_other d m v h

theorem SMap.get_set (d : Nat → α) (m : SMap α) (k j : Nat) (v : α) :
    SMap.get d (SMap.set d m k v) j = if j = k then v else SMap.get d m j := by
  split
  · subst_vars; simp
  · exact SMap.get_set_other d m v ‹_›
end

/-! ### The canonical form -/

theorem SMap.rising_mono {lo lo' : Nat} {m : SMap α} (h : lo' ≤ lo) (r : SMap.rising lo m = true) :
    SMap.rising lo' m = true := by
  cases m with
  | nil => rfl
  | cons p m =>
    simp only [SMap.rising, Bool.and_eq_true, decide_eq_true_eq] at r ⊢
    exact ⟨le_trans h r.1, r.2⟩

theorem SMap.rising_put {lo : Nat} {m : SMap α} {k : Nat} (v : α) (hk : lo ≤ k) (r : SMap.rising lo m = true) :
    SMap.rising lo (m.put k v) = true := by
  induction m generalizing lo with
  | nil => simp [SMap.put, SMap.rising, hk]
  | cons p m ih =>
    obtain ⟨k', v'⟩ := p
    simp only [SMap.rising, Bool.and_eq_true, decide_eq_true_eq] at r
    unfold SMap.put
    split
    · simp [SMap.rising, hk, r.2]; omega
    · split
      · rename_i e; subst e; simp [SMap.rising, hk, r.2]
      · simp [SMap.rising, r.1, ih (show k' + 1 ≤ k by omega) r.2]

theorem SMap.rising_filter {lo : Nat} {m : SMap α} (f : Nat × α → Bool) (r : SMap.rising lo m = true) :
    SMap.rising lo (m.filter f) = true := by
  induction m generalizing lo with
  | nil => rfl
  | cons p m ih =>
    obtain ⟨k', v'⟩ := p
    simp only [SMap.rising, Bool.and_eq_true, decide_eq_true_eq] at r
    by_cases h : f (k', v') = true
    · simp [List.filter, h, SMap.rising, r.1, ih r.2]
    · simp only [List.filter, h]
      exact SMap.rising_mono (by omega) (ih r.2)

theorem SMap.mem_put {m : SMap α} {k : Nat} {v : α} {p : Nat × α} (h : p ∈ m.put k v) : p = (k, v) ∨ p ∈ m := by
  induction m with
  | nil => simpa [SMap.put] using h
  | cons q m ih =>
    obtain ⟨k', v'⟩ := q
    unfold SMap.put at h
    split at h
    · simp at h ⊢; tauto
    · split at h
      · simp at h ⊢; tauto
      · simp at h ⊢
        rcases h with h | h
        · tauto
        · rcases ih h with h | h <;> tauto

section
variable [DecidableEq α]

/-- Writing keeps the canonical form. -/
theorem SMap.wf_set (d : Nat → α) (m : SMap α) (k : Nat) (v : α) (h : SMap.wf d m = true) :
    SMap.wf d (SMap.set d m k v) = true := by
  simp only [SMap.wf, Bool.and_eq_true, List.all_eq_true] at h ⊢
  unfold SMap.set
  split
  · refine ⟨SMap.rising_filter _ h.1, fun p hp => h.2 p ?_⟩
    exact (List.mem_filter.1 hp).1
  · rename_i hv
    refine ⟨SMap.rising_put v (Nat.zero_le _) h.1, fun p hp => ?_⟩
    rcases SMap.mem_put hp with rfl | hp
    · simpa using hv
    · exact h.2 p hp

theorem SMap.wf_upd (d : Nat → α) (m : SMap α) (k : Nat) (f : α → α) (h : SMap.wf d m = true) :
    SMap.wf d (SMap.upd d m k f) = true := SMap.wf_set d m k _ h

@[simp] theorem SMap.wf_nil (d : Nat → α) : SMap.wf d [] = true := rfl
end

end Sys2Proof.Machine
end

