-- ==== Sys2Proof/Laws/Memory.lean ====
section
/-!
SUPPORT. Laws of the addressed memories: reading after writing, what each operation can do to the bytes, and the canonical form.
-/

namespace Sys2Proof.Machine

/-! ### Bytes -/

/-- Bytes below the first one written are as they were. -/
theorem MemArray.byte_poke_below (m : MemArray) (a b : Nat) (bs : Bytes) (h : b < a) : (m.poke a bs).byte b = m.byte b := by
  induction bs generalizing m a with
  | nil => rfl
  | cons x xs ih =>
    rw [MemArray.poke, ih _ _ (by omega)]
    simp [MemArray.byte, SMap.get_set, show b ≠ a by omega]

/-- Bytes outside the written range are as they were. -/
theorem MemArray.byte_poke_outside (m : MemArray) (a b : Nat) (bs : Bytes) (h : b < a ∨ a + bs.length ≤ b) :
    (m.poke a bs).byte b = m.byte b := by
  induction bs generalizing m a with
  | nil => rfl
  | cons x xs ih =>
    simp only [List.length_cons] at h
    rw [MemArray.poke, ih _ _ (by omega)]
    simp [MemArray.byte, SMap.get_set, show b ≠ a by omega]

/-- A byte that was written reads as written. -/
theorem MemArray.byte_poke_inside (m : MemArray) (a i : Nat) (bs : Bytes) (h : i < bs.length) :
    (m.poke a bs).byte (a + i) = bs[i] := by
  induction bs generalizing m a i with
  | nil => simp at h
  | cons x xs ih =>
    rw [MemArray.poke]
    cases i with
    | zero =>
      rw [MemArray.byte_poke_below _ _ _ _ (by omega)]
      simp [MemArray.byte]
    | succ i => simpa [Nat.add_comm, Nat.add_left_comm, Nat.add_assoc] using ih _ (a + 1) i (by simpa using h)

@[simp] theorem MemArray.byte_setCheck (m : MemArray) (w : Nat) (e : WordEcc) (b : Nat) : (m.setCheck w e).byte b = m.byte b :=
  rfl

@[simp] theorem MemArray.cells_setCheck (m : MemArray) (w : Nat) (e : WordEcc) : (m.setCheck w e).cells = m.cells := rfl

@[simp] theorem MemArray.ecc_poke (m : MemArray) (a : Nat) (bs : Bytes) : (m.poke a bs).ecc = m.ecc := by
  induction bs generalizing m a with
  | nil => rfl
  | cons x xs ih => simp [MemArray.poke, ih]

/-- The upsets that an access meets change no byte. -/
@[simp] theorem MemArray.cells_upset (m : MemArray) (us : List Upset) : (m.upset us).cells = m.cells := by
  unfold MemArray.upset
  induction us generalizing m with
  | nil => rfl
  | cons x xs ih =>
    rw [List.foldl_cons, ih]
    split <;> rfl

@[simp] theorem MemArray.byte_upset (m : MemArray) (us : List Upset) (b : Nat) : (m.upset us).byte b = m.byte b := by
  simp [MemArray.byte]

/-! ### The canonical form -/

theorem MemArray.wf_iff (m : MemArray) :
    m.wf = true ↔ SMap.wf cell0 m.cells = true ∧ SMap.wf (fun _ => WordEcc.clean) m.ecc = true := by
  simp [MemArray.wf]

theorem MemArray.wf_poke (m : MemArray) (a : Nat) (bs : Bytes) (h : m.wf = true) : (m.poke a bs).wf = true := by
  induction bs generalizing m a with
  | nil => exact h
  | cons x xs ih =>
    rw [MemArray.poke]
    rw [MemArray.wf_iff] at h
    exact ih _ _ (by rw [MemArray.wf_iff]; exact ⟨SMap.wf_set _ _ _ _ h.1, h.2⟩)

theorem MemArray.wf_setCheck (m : MemArray) (w : Nat) (e : WordEcc) (h : m.wf = true) : (m.setCheck w e).wf = true := by
  rw [MemArray.wf_iff] at h ⊢
  exact ⟨h.1, SMap.wf_set _ _ _ _ h.2⟩

theorem MemArray.wf_upset (m : MemArray) (us : List Upset) (h : m.wf = true) : (m.upset us).wf = true := by
  unfold MemArray.upset
  induction us generalizing m with
  | nil => exact h
  | cons x xs ih =>
    rw [List.foldl_cons]
    apply ih
    split
    · exact h
    · exact MemArray.wf_setCheck _ _ _ h

theorem Memory.wf_iff (a : Arrays) : Memory.wf a = true ↔
    a.sram.wf = true ∧ a.dram.wf = true ∧ SMap.wf (fun _ => 0) a.refused = true ∧ SMap.wf (fun _ => 0) a.bankUse = true ∧
    SMap.wf (fun _ => 0) a.chanUse = true ∧ SMap.wf (fun _ => 0) a.fused = true ∧ SMap.wf (fun _ => 0) a.soft = true := by
  simp [Memory.wf, and_assoc]

/-- A canonical memory stays canonical when its lists of accesses, answers and sleeping banks change. -/
theorem Memory.wf_lists (a : Arrays) (h : Memory.wf a = true) (i : List Inflight) (r : List MemResp) (b c : List Nat) :
    Memory.wf { a with inflight := i, resp := r, retained := b, chanDown := c } = true := h

theorem Memory.wf_of_eq {a b : Arrays} (h : Memory.wf a = true) (e1 : b.sram = a.sram) (e2 : b.dram = a.dram)
    (e3 : b.refused = a.refused) (e4 : b.bankUse = a.bankUse) (e5 : b.chanUse = a.chanUse) (e6 : b.fused = a.fused)
    (e7 : b.soft = a.soft) : Memory.wf b = true := by
  unfold Memory.wf at h ⊢
  rw [e1, e2, e3, e4, e5, e6, e7]; exact h

theorem Memory.wf_sram (a : Arrays) (m : MemArray) (h : Memory.wf a = true) (hm : m.wf = true) :
    Memory.wf { a with sram := m } = true := by
  rw [Memory.wf_iff] at h ⊢; exact ⟨hm, h.2⟩

theorem Memory.wf_dram (a : Arrays) (m : MemArray) (h : Memory.wf a = true) (hm : m.wf = true) :
    Memory.wf { a with dram := m } = true := by
  rw [Memory.wf_iff] at h ⊢; exact ⟨h.1, hm, h.2.2⟩

theorem sramKeepPoison_wf (a : Arrays) (d : Dev) (w : Nat) (h : Memory.wf a = true) :
    Memory.wf (sramKeepPoison a d w).1 = true :=
  Memory.wf_sram _ _ h (MemArray.wf_setCheck _ _ _ ((Memory.wf_iff a).1 h).1)

theorem sramFoundBad_wf (a : Arrays) (d : Dev) (w : Nat) (h : Memory.wf a = true) :
    Memory.wf (sramFoundBad a d w).1 = true :=
  Memory.wf_sram _ _ h (MemArray.wf_setCheck _ _ _ ((Memory.wf_iff a).1 h).1)

theorem sramWrite_wf (a : Arrays) (d : Dev) (addr : Nat) (bs : Bytes) (h : Memory.wf a = true) :
    Memory.wf (sramWrite a d addr bs).1 = true := by
  have hs := ((Memory.wf_iff a).1 h).1
  unfold sramWrite
  extract_lets w
  split
  · exact Memory.wf_sram _ _ h (MemArray.wf_setCheck _ _ _ (MemArray.wf_poke _ _ _ hs))
  · split
    · exact Memory.wf_sram _ _ h (MemArray.wf_poke _ _ _ hs)
    · exact Memory.wf_sram _ _ h (MemArray.wf_setCheck _ _ _ (MemArray.wf_poke _ _ _ hs))
    · exact sramKeepPoison_wf a d _ h

/-- Touching a bank notes its last access and wakes it. -/
theorem Memory.wf_touch (a : Arrays) (bank c : Nat) (h : Memory.wf a = true) : Memory.wf (a.touch bank c) = true := by
  rw [Memory.wf_iff] at h ⊢
  exact ⟨h.1, h.2.1, h.2.2.1, SMap.wf_set _ _ _ _ h.2.2.2.1, h.2.2.2.2⟩

theorem sramOne_wf (p : Arrays × Dev) (c : Nat) (r : MemReq) (h : Memory.wf p.1 = true) :
    Memory.wf (sramOne p c r).1 = true := by
  unfold sramOne
  extract_lets w bank a d reply held a1 hit busy d2 data q
  have ht : Memory.wf a = true := Memory.wf_touch p.1 bank c h
  have h1 : Memory.wf a1 = true := Memory.wf_of_eq ht rfl rfl rfl rfl rfl rfl rfl
  split
  · exact Memory.wf_of_eq ht rfl rfl rfl rfl rfl rfl rfl
  split
  · exact Memory.wf_of_eq ht rfl rfl rfl rfl rfl rfl rfl
  split
  · rename_i bs _
    extract_lets q1 src1 a2
    have hw : Memory.wf q1.1 = true := sramWrite_wf a d r.addr bs ht
    have h2 : Memory.wf a2 = true := Memory.wf_of_eq hw rfl rfl rfl rfl rfl rfl rfl
    split
    · exact Memory.wf_of_eq h2 rfl rfl rfl rfl rfl rfl rfl
    · split <;> exact Memory.wf_of_eq h2 rfl rfl rfl rfl rfl rfl rfl
  · split
    · exact Memory.wf_of_eq h1 rfl rfl rfl rfl rfl rfl rfl
    · exact Memory.wf_of_eq h1 rfl rfl rfl rfl rfl rfl rfl
    · exact Memory.wf_of_eq (sramFoundBad_wf a1 d2 w h1) rfl rfl rfl rfl rfl rfl rfl
    · exact Memory.wf_of_eq h1 rfl rfl rfl rfl rfl rfl rfl

theorem Memory.wf_refused (a : Arrays) (m : SMap Nat) (h : Memory.wf a = true) (hm : SMap.wf (fun _ => 0) m = true) :
    Memory.wf { a with refused := m } = true := by
  rw [Memory.wf_iff] at h ⊢; exact ⟨h.1, h.2.1, hm, h.2.2.2⟩

/-- What every step of a fold keeps, the fold keeps. -/
theorem foldl_keeps {α β : Type} (P : β → Prop) (f : β → α → β) (hf : ∀ b x, P b → P (f b x)) (l : List α) (b : β) (h : P b) :
    P (l.foldl f b) := by
  induction l generalizing b with
  | nil => exact h
  | cons x xs ih => exact ih _ (hf _ _ h)

theorem sramBank_wf (p : Arrays × Dev) (c : Nat) (rs : List MemReq) (h : Memory.wf p.1 = true) :
    Memory.wf (sramBank p c rs).1 = true := by
  unfold sramBank
  split
  · exact h
  · refine foldl_keeps (fun q : Arrays × Dev => Memory.wf q.1 = true) _ (fun q x hq => sramOne_wf q c x hq) _ _ ?_
    refine Memory.wf_refused _ _ h ?_
    refine foldl_keeps (fun m : SMap Nat => SMap.wf (fun _ => 0) m = true) _ (fun m x hm => SMap.wf_upd _ _ _ _ hm) _ _ ?_
    refine foldl_keeps (fun m : SMap Nat => SMap.wf (fun _ => 0) m = true) _ (fun m x hm => SMap.wf_set _ _ _ _ hm) _ _ ?_
    exact ((Memory.wf_iff _).1 h).2.2.1

/-- SRAM_ACCESS keeps the canonical form. -/
theorem sramAccess_wf (p : Arrays × Dev) (c : Nat) (rs : List MemReq) (us : List Upset) (h : Memory.wf p.1 = true) :
    Memory.wf (sramAccess p c rs us).1 = true := by
  unfold sramAccess
  refine foldl_keeps (fun q : Arrays × Dev => Memory.wf q.1 = true) _ (fun q x hq => sramBank_wf q c _ hq) _ _ ?_
  exact Memory.wf_sram _ _ (Memory.wf_lists _ h _ _ _ _) (MemArray.wf_upset _ _ ((Memory.wf_iff _).1 h).1)

/-- SRAM_ATOMIC keeps the canonical form. -/
theorem sramAtomic_wf (p : Arrays × Dev) (c req addr n : Nat) (op : AtomicOp) (v : Nat) (us : List Upset)
    (h : Memory.wf p.1 = true) : Memory.wf (sramAtomic p c req addr n op v us).1 = true := by
  unfold sramAtomic
  extract_lets w bank src a d reply busy a1
  have hp : Memory.wf (p.1.prune c) = true := h
  have ha : Memory.wf a = true :=
    Memory.wf_touch _ bank c (Memory.wf_sram _ _ hp (MemArray.wf_upset p.1.sram us ((Memory.wf_iff _).1 h).1))
  have h1 : Memory.wf a1 = true := Memory.wf_of_eq ha rfl rfl rfl rfl rfl rfl rfl
  split
  · exact ha
  split
  · exact Memory.wf_of_eq ha rfl rfl rfl rfl rfl rfl rfl
  split
  · exact Memory.wf_of_eq ha rfl rfl rfl rfl rfl rfl rfl
  split
  · exact Memory.wf_of_eq (sramFoundBad_wf a1 d w h1) rfl rfl rfl rfl rfl rfl rfl
  · exact Memory.wf_of_eq h1 rfl rfl rfl rfl rfl rfl rfl
  · exact Memory.wf_of_eq (Memory.wf_sram _ _ h1
      (MemArray.wf_setCheck _ w .clean (MemArray.wf_poke _ _ _ ((Memory.wf_iff _).1 h1).1))) rfl rfl rfl rfl rfl rfl rfl

/-- PARTIAL_WRITE keeps the canonical form. -/
theorem partialWrite_wf (p : Arrays × Dev) (sel : MemSel) (addr : Nat) (bs : Bytes) (us : List Upset)
    (h : Memory.wf p.1 = true) : Memory.wf (partialWrite p sel addr bs us).1 = true := by
  have hi := (Memory.wf_iff _).1 h
  cases sel with
  | sram =>
    have ht := Memory.wf_touch _ (bankOf (addr / 8)) p.2.time.cnt (Memory.wf_sram _ _ h (MemArray.wf_upset _ us hi.1))
    unfold partialWrite
    extract_lets bank src a
    dsimp only
    split_ifs
    · exact ht
    · exact ht
    · exact sramWrite_wf _ _ _ _ ht
  | dram =>
    unfold partialWrite
    extract_lets bank src a' m w ch a
    have hm : m.wf = true := MemArray.wf_upset _ _ hi.2.1
    have ha : Memory.wf a = true := by
      rw [Memory.wf_iff]
      exact ⟨hi.1, hi.2.1, hi.2.2.1, hi.2.2.2.1, SMap.wf_set _ _ _ _ hi.2.2.2.2.1, hi.2.2.2.2.2⟩
    dsimp only
    split
    · exact Memory.wf_dram a _ ha (MemArray.wf_poke _ _ _ hm)
    · exact Memory.wf_dram a _ ha (MemArray.wf_setCheck _ _ _ (MemArray.wf_poke _ _ _ hm))
    · exact Memory.wf_dram a _ ha (MemArray.wf_setCheck _ _ _ hm)

/-- PATROL_SCRUB keeps the canonical form. -/
theorem patrolScrub_wf (p : Arrays × Dev) (w : Nat) (us : List Upset) (h : Memory.wf p.1 = true) :
    Memory.wf (patrolScrub p w us).1 = true := by
  unfold patrolScrub
  extract_lets src a bank
  have ha : Memory.wf a = true := Memory.wf_sram _ _ h (MemArray.wf_upset _ _ ((Memory.wf_iff _).1 h).1)
  split
  · exact ha
  split
  · exact Memory.wf_sram _ _ ha (MemArray.wf_setCheck _ _ _ ((Memory.wf_iff _).1 ha).1)
  · exact sramFoundBad_wf _ _ _ ha
  · exact ha

/-- DRAM_SCRUB keeps the canonical form. -/
theorem dramScrub_wf (p : Arrays × Dev) (w : Nat) (us : List Upset) (h : Memory.wf p.1 = true) :
    Memory.wf (dramScrub p w us).1 = true := by
  have hm := MemArray.wf_upset p.1.dram us ((Memory.wf_iff _).1 h).2.1
  unfold dramScrub
  extract_lets m ch d
  split
  · exact Memory.wf_dram _ _ h (MemArray.wf_setCheck _ _ _ hm)
  · exact Memory.wf_dram _ _ h (MemArray.wf_setCheck _ _ _ hm)
  · exact Memory.wf_dram _ _ h hm

/-- BANK_RETENTION keeps the canonical form. -/
theorem bankRetention_wf (p : Arrays × Dev) (c bank : Nat) (h : Memory.wf p.1 = true) :
    Memory.wf (bankRetention p c bank).1 = true := by
  unfold bankRetention
  extract_lets d
  split
  · exact h
  · split <;> exact h

/-- DRAM_POWER_DOWN keeps the canonical form. -/
theorem dramPowerDown_wf (p : Arrays × Dev) (c ch : Nat) (h : Memory.wf p.1 = true) :
    Memory.wf (dramPowerDown p c ch).1 = true := by
  unfold dramPowerDown
  extract_lets d pd
  split <;> exact h

/-- The march test keeps the canonical form. -/
theorem marchTest_wf (p : Arrays × Dev) (ts : List BankTest) (h : Memory.wf p.1 = true) :
    Memory.wf (marchTest p ts).1 = true := by
  refine foldl_keeps (fun q : Arrays × Dev => Memory.wf q.1 = true) _ (fun q t hq => ?_) _ _ h
  unfold marchOne
  extract_lets fused f
  have hi := (Memory.wf_iff _).1 hq
  split
  · exact hq
  split
  · exact hq
  · rw [Memory.wf_iff]; exact ⟨hi.1, hi.2.1, hi.2.2.1, hi.2.2.2.1, hi.2.2.2.2.1, hi.2.2.2.2.2.1, SMap.wf_set _ _ _ _ hi.2.2.2.2.2.2⟩

/-- The return of L2 keeps the canonical form. -/
theorem clearSram_wf (a : Arrays) (h : Memory.wf a = true) : Memory.wf a.clearSram = true := by
  have hi := (Memory.wf_iff _).1 h
  rw [Memory.wf_iff]
  exact ⟨rfl, hi.2.1, rfl, hi.2.2.2⟩

/-- A power loss keeps the fuses and nothing else. -/

theorem Memory.wf_fused (a : Arrays) (h : Memory.wf a = true) : Memory.wf { fused := a.fused } = true := by
  rw [Memory.wf_iff] at h ⊢
  refine ⟨rfl, rfl, rfl, rfl, rfl, ?_, rfl⟩
  simp_all

theorem powerOn_wf (p : Arrays × Dev) (away : Nat) (h : Memory.wf p.1 = true) :
    Memory.wf (powerOn p away).1 = true := by
  unfold powerOn; split
  · exact h
  · exact Memory.wf_fused _ h

theorem resetProper_wf (p : Arrays × Dev) (c : Nat) (h : Memory.wf p.1 = true) :
    Memory.wf (resetProper p c).1 = true := by
  simp only [resetProper]; split
  · exact Memory.wf_fused _ h
  · exact h

theorem deviceStart_wf (p : Arrays × Dev) (i : StartIn) (h : Memory.wf p.1 = true) :
    Memory.wf (deviceStart p i).1 = true := by
  by_cases c : p.2.sys.phase ≠ .inReset ∨ p.2.sys.cold = false ∨ p.2.heldByBall = true
  · rw [deviceStart, if_pos c]; exact h
  · rw [deviceStart, if_neg c]; exact marchTest_wf (p.1, _) _ h

theorem warmReturn_wf (p : Arrays × Dev) (h : Memory.wf p.1 = true) : Memory.wf (warmReturn p).1 = true := by
  by_cases c : p.2.sys.phase ≠ .inReset ∨ p.2.sys.cold = true ∨ p.2.heldByBall = true
  · simp only [warmReturn, if_pos c]; exact h
  · simp only [warmReturn, if_neg c]; exact clearSram_wf _ h

/-! ### Frames -/

/-- A write to SRAM changes no byte outside the bytes it is given, and nothing of DRAM. -/
theorem sramWrite_frame (a : Arrays) (d : Dev) (addr : Nat) (bs : Bytes) :
    (∀ x, x < addr ∨ addr + bs.length ≤ x → (sramWrite a d addr bs).1.sram.byte x = a.sram.byte x) ∧
      (sramWrite a d addr bs).1.dram = a.dram := by
  unfold sramWrite
  dsimp only
  split_ifs
  · exact ⟨fun x hx => by simpa using MemArray.byte_poke_outside _ _ _ _ hx, rfl⟩
  · split
    · exact ⟨fun x hx => by simpa using MemArray.byte_poke_outside _ _ _ _ hx, rfl⟩
    · exact ⟨fun x hx => by simpa using MemArray.byte_poke_outside _ _ _ _ hx, rfl⟩
    · exact ⟨fun x _ => by simp [sramKeepPoison], rfl⟩

/-- One access to SRAM changes no byte that its request does not store to. -/
theorem sramOne_frame (p : Arrays × Dev) (c : Nat) (r : MemReq) (x : Nat) (h : ¬ storesTo r x) :
    (sramOne p c r).1.sram.byte x = p.1.sram.byte x ∧ (sramOne p c r).1.dram = p.1.dram := by
  unfold sramOne
  dsimp only
  split_ifs
  · exact ⟨rfl, rfl⟩
  · exact ⟨rfl, rfl⟩
  all_goals
    cases hw : r.wdata with
    | some bs =>
      have hx : x < r.addr ∨ r.addr + bs.length ≤ x := by
        by_contra hc; rw [not_or, not_lt, not_le] at hc; exact h ⟨bs, hw, by omega, by omega⟩
      have key : ∀ a : Arrays, a.sram = p.1.sram → a.dram = p.1.dram →
          (sramWrite a p.2 r.addr bs).1.sram.byte x = p.1.sram.byte x ∧ (sramWrite a p.2 r.addr bs).1.dram = p.1.dram :=
        fun a e1 e2 => by
          have hf := sramWrite_frame a p.2 r.addr bs
          exact ⟨(hf.1 x hx).trans (by rw [e1]), hf.2.trans e2⟩
      dsimp only
      first | exact key _ rfl rfl | (split <;> exact key _ rfl rfl)
    | none =>
      dsimp only
      repeat' split
      all_goals exact ⟨rfl, rfl⟩

theorem insertBy_mem {α} (m : α → Nat) (x : α) (l : List α) (y : α) : y ∈ insertBy m x l → y = x ∨ y ∈ l := by
  induction l with
  | nil => simp [insertBy]
  | cons a l ih =>
    unfold insertBy; split
    · simp
    · simp only [List.mem_cons]; rintro (h | h)
      · exact .inr (.inl h)
      · rcases ih h with h | h
        · exact .inl h
        · exact .inr (.inr h)

theorem sortBy_mem {α} (m : α → Nat) (l : List α) (y : α) : y ∈ sortBy m l → y ∈ l := by
  suffices ∀ (l a : List α), y ∈ l.foldl (fun a x => insertBy m x a) a → y ∈ a ∨ y ∈ l by
    intro h; simpa using this l [] h
  intro l; induction l with
  | nil => intro a h; exact .inl h
  | cons b l ih =>
    intro a h
    rcases ih _ h with h | h
    · rcases insertBy_mem m b a y h with h | h
      · exact .inr (by simp [h])
      · exact .inl h
    · exact .inr (by simp [h])

/-- A run of accesses changes no byte that none of them changes. -/
theorem bytes_foldl {α : Type} (f : Arrays × Dev → α → Arrays × Dev) (x : Nat) (l : List α) (p : Arrays × Dev)
    (h : ∀ q, ∀ r ∈ l, (f q r).1.sram.byte x = q.1.sram.byte x ∧ (f q r).1.dram = q.1.dram) :
    (l.foldl f p).1.sram.byte x = p.1.sram.byte x ∧ (l.foldl f p).1.dram = p.1.dram := by
  induction l generalizing p with
  | nil => exact ⟨rfl, rfl⟩
  | cons a l ih =>
    have h1 := h p a (by simp)
    have h2 := ih (f p a) fun q r hr => h q r (by simp [hr])
    exact ⟨h2.1.trans h1.1, h2.2.trans h1.2⟩

/-- One bank's cycle changes no byte that none of its requests stores to. -/
theorem sramBank_frame (p : Arrays × Dev) (c : Nat) (rs : List MemReq) (x : Nat) (h : ∀ r ∈ rs, ¬ storesTo r x) :
    (sramBank p c rs).1.sram.byte x = p.1.sram.byte x ∧ (sramBank p c rs).1.dram = p.1.dram := by
  unfold sramBank; split
  · exact ⟨rfl, rfl⟩
  · dsimp only
    refine bytes_foldl _ x _ _ fun q r hr => sramOne_frame q c r x (h r ?_)
    exact sortBy_mem _ _ _ (List.mem_of_mem_take (sortBy_mem _ _ _ hr))

end Sys2Proof.Machine
end

