-- ==== Sys2Proof/Laws/State.lean ====
section
/-!
SUPPORT. What each basic update of the device leaves of every other field, and what the updates of the state leave. The laws of
an update go through the law of its one field with a variable in it, so that no proof looks into the value written.
-/

namespace Sys2Proof.Machine

/-! ### The state -/

@[simp] theorem State.mk_pending (q : List Instr) (a : Arrays) (d : Dev) : (State.mk q a d).pending = q := rfl
@[simp] theorem State.mk_arr (q : List Instr) (a : Arrays) (d : Dev) : (State.mk q a d).arr = a := rfl
@[simp] theorem State.mk_dev (q : List Instr) (a : Arrays) (d : Dev) : (State.mk q a d).dev = d := rfl

/-- A state is its three fields. -/
theorem State.mk_eta (s : State) : State.mk s.pending s.arr s.dev = s := rfl

/-! ### Another value in `regs` -/

theorem Dev.with_regs_time (d : Dev) (x : SMap Word) : (Dev.time { d with regs := x }) = d.time := rfl
theorem Dev.with_regs_evt (d : Dev) (x : SMap Word) : (Dev.evt { d with regs := x }) = d.evt := rfl
theorem Dev.with_regs_mbx (d : Dev) (x : SMap Word) : (Dev.mbx { d with regs := x }) = d.mbx := rfl
theorem Dev.with_regs_held (d : Dev) (x : SMap Word) : (Dev.held { d with regs := x }) = d.held := rfl
theorem Dev.with_regs_seats (d : Dev) (x : SMap Word) : (Dev.seats { d with regs := x }) = d.seats := rfl
theorem Dev.with_regs_cv (d : Dev) (x : SMap Word) : (Dev.cv { d with regs := x }) = d.cv := rfl
theorem Dev.with_regs_vault (d : Dev) (x : SMap Word) : (Dev.vault { d with regs := x }) = d.vault := rfl
theorem Dev.with_regs_ftl (d : Dev) (x : SMap Word) : (Dev.ftl { d with regs := x }) = d.ftl := rfl
theorem Dev.with_regs_ports (d : Dev) (x : SMap Word) : (Dev.ports { d with regs := x }) = d.ports := rfl
theorem Dev.with_regs_arb (d : Dev) (x : SMap Word) : (Dev.arb { d with regs := x }) = d.arb := rfl
theorem Dev.with_regs_edges (d : Dev) (x : SMap Word) : (Dev.edges { d with regs := x }) = d.edges := rfl
theorem Dev.with_regs_plc (d : Dev) (x : SMap Word) : (Dev.plc { d with regs := x }) = d.plc := rfl
theorem Dev.with_regs_rail (d : Dev) (x : SMap Word) : (Dev.rail { d with regs := x }) = d.rail := rfl
theorem Dev.with_regs_radio (d : Dev) (x : SMap Word) : (Dev.radio { d with regs := x }) = d.radio := rfl
theorem Dev.with_regs_grant (d : Dev) (x : SMap Word) : (Dev.grant { d with regs := x }) = d.grant := rfl
theorem Dev.with_regs_pool (d : Dev) (x : SMap Word) : (Dev.pool { d with regs := x }) = d.pool := rfl
theorem Dev.with_regs_ldg (d : Dev) (x : SMap Word) : (Dev.ldg { d with regs := x }) = d.ldg := rfl
theorem Dev.with_regs_camp (d : Dev) (x : SMap Word) : (Dev.camp { d with regs := x }) = d.camp := rfl
theorem Dev.with_regs_bal (d : Dev) (x : SMap Word) : (Dev.bal { d with regs := x }) = d.bal := rfl
theorem Dev.with_regs_cas (d : Dev) (x : SMap Word) : (Dev.cas { d with regs := x }) = d.cas := rfl
theorem Dev.with_regs_upd (d : Dev) (x : SMap Word) : (Dev.upd { d with regs := x }) = d.upd := rfl
theorem Dev.with_regs_sys (d : Dev) (x : SMap Word) : (Dev.sys { d with regs := x }) = d.sys := rfl
theorem Dev.with_regs_free (d : Dev) (x : SMap Word) : (Dev.free { d with regs := x }) = d.free := rfl
theorem Dev.with_regs_out (d : Dev) (x : SMap Word) : (Dev.out { d with regs := x }) = d.out := rfl
theorem Dev.with_regs_rdata (d : Dev) (x : SMap Word) : (Dev.rdata { d with regs := x }) = d.rdata := rfl

/-! ### Another value in `seats` -/

theorem Dev.with_seats_regs (d : Dev) (x : SMap SeatSt) : (Dev.regs { d with seats := x }) = d.regs := rfl
theorem Dev.with_seats_time (d : Dev) (x : SMap SeatSt) : (Dev.time { d with seats := x }) = d.time := rfl
theorem Dev.with_seats_evt (d : Dev) (x : SMap SeatSt) : (Dev.evt { d with seats := x }) = d.evt := rfl
theorem Dev.with_seats_mbx (d : Dev) (x : SMap SeatSt) : (Dev.mbx { d with seats := x }) = d.mbx := rfl
theorem Dev.with_seats_held (d : Dev) (x : SMap SeatSt) : (Dev.held { d with seats := x }) = d.held := rfl
theorem Dev.with_seats_cv (d : Dev) (x : SMap SeatSt) : (Dev.cv { d with seats := x }) = d.cv := rfl
theorem Dev.with_seats_vault (d : Dev) (x : SMap SeatSt) : (Dev.vault { d with seats := x }) = d.vault := rfl
theorem Dev.with_seats_ftl (d : Dev) (x : SMap SeatSt) : (Dev.ftl { d with seats := x }) = d.ftl := rfl
theorem Dev.with_seats_ports (d : Dev) (x : SMap SeatSt) : (Dev.ports { d with seats := x }) = d.ports := rfl
theorem Dev.with_seats_arb (d : Dev) (x : SMap SeatSt) : (Dev.arb { d with seats := x }) = d.arb := rfl
theorem Dev.with_seats_edges (d : Dev) (x : SMap SeatSt) : (Dev.edges { d with seats := x }) = d.edges := rfl
theorem Dev.with_seats_plc (d : Dev) (x : SMap SeatSt) : (Dev.plc { d with seats := x }) = d.plc := rfl
theorem Dev.with_seats_rail (d : Dev) (x : SMap SeatSt) : (Dev.rail { d with seats := x }) = d.rail := rfl
theorem Dev.with_seats_radio (d : Dev) (x : SMap SeatSt) : (Dev.radio { d with seats := x }) = d.radio := rfl
theorem Dev.with_seats_grant (d : Dev) (x : SMap SeatSt) : (Dev.grant { d with seats := x }) = d.grant := rfl
theorem Dev.with_seats_pool (d : Dev) (x : SMap SeatSt) : (Dev.pool { d with seats := x }) = d.pool := rfl
theorem Dev.with_seats_ldg (d : Dev) (x : SMap SeatSt) : (Dev.ldg { d with seats := x }) = d.ldg := rfl
theorem Dev.with_seats_camp (d : Dev) (x : SMap SeatSt) : (Dev.camp { d with seats := x }) = d.camp := rfl
theorem Dev.with_seats_bal (d : Dev) (x : SMap SeatSt) : (Dev.bal { d with seats := x }) = d.bal := rfl
theorem Dev.with_seats_cas (d : Dev) (x : SMap SeatSt) : (Dev.cas { d with seats := x }) = d.cas := rfl
theorem Dev.with_seats_upd (d : Dev) (x : SMap SeatSt) : (Dev.upd { d with seats := x }) = d.upd := rfl
theorem Dev.with_seats_sys (d : Dev) (x : SMap SeatSt) : (Dev.sys { d with seats := x }) = d.sys := rfl
theorem Dev.with_seats_free (d : Dev) (x : SMap SeatSt) : (Dev.free { d with seats := x }) = d.free := rfl
theorem Dev.with_seats_out (d : Dev) (x : SMap SeatSt) : (Dev.out { d with seats := x }) = d.out := rfl
theorem Dev.with_seats_rdata (d : Dev) (x : SMap SeatSt) : (Dev.rdata { d with seats := x }) = d.rdata := rfl

/-! ### Another value in `mbx` -/

theorem Dev.with_mbx_regs (d : Dev) (x : SMap MbxSt) : (Dev.regs { d with mbx := x }) = d.regs := rfl
theorem Dev.with_mbx_time (d : Dev) (x : SMap MbxSt) : (Dev.time { d with mbx := x }) = d.time := rfl
theorem Dev.with_mbx_evt (d : Dev) (x : SMap MbxSt) : (Dev.evt { d with mbx := x }) = d.evt := rfl
theorem Dev.with_mbx_held (d : Dev) (x : SMap MbxSt) : (Dev.held { d with mbx := x }) = d.held := rfl
theorem Dev.with_mbx_seats (d : Dev) (x : SMap MbxSt) : (Dev.seats { d with mbx := x }) = d.seats := rfl
theorem Dev.with_mbx_cv (d : Dev) (x : SMap MbxSt) : (Dev.cv { d with mbx := x }) = d.cv := rfl
theorem Dev.with_mbx_vault (d : Dev) (x : SMap MbxSt) : (Dev.vault { d with mbx := x }) = d.vault := rfl
theorem Dev.with_mbx_ftl (d : Dev) (x : SMap MbxSt) : (Dev.ftl { d with mbx := x }) = d.ftl := rfl
theorem Dev.with_mbx_ports (d : Dev) (x : SMap MbxSt) : (Dev.ports { d with mbx := x }) = d.ports := rfl
theorem Dev.with_mbx_arb (d : Dev) (x : SMap MbxSt) : (Dev.arb { d with mbx := x }) = d.arb := rfl
theorem Dev.with_mbx_edges (d : Dev) (x : SMap MbxSt) : (Dev.edges { d with mbx := x }) = d.edges := rfl
theorem Dev.with_mbx_plc (d : Dev) (x : SMap MbxSt) : (Dev.plc { d with mbx := x }) = d.plc := rfl
theorem Dev.with_mbx_rail (d : Dev) (x : SMap MbxSt) : (Dev.rail { d with mbx := x }) = d.rail := rfl
theorem Dev.with_mbx_radio (d : Dev) (x : SMap MbxSt) : (Dev.radio { d with mbx := x }) = d.radio := rfl
theorem Dev.with_mbx_grant (d : Dev) (x : SMap MbxSt) : (Dev.grant { d with mbx := x }) = d.grant := rfl
theorem Dev.with_mbx_pool (d : Dev) (x : SMap MbxSt) : (Dev.pool { d with mbx := x }) = d.pool := rfl
theorem Dev.with_mbx_ldg (d : Dev) (x : SMap MbxSt) : (Dev.ldg { d with mbx := x }) = d.ldg := rfl
theorem Dev.with_mbx_camp (d : Dev) (x : SMap MbxSt) : (Dev.camp { d with mbx := x }) = d.camp := rfl
theorem Dev.with_mbx_bal (d : Dev) (x : SMap MbxSt) : (Dev.bal { d with mbx := x }) = d.bal := rfl
theorem Dev.with_mbx_cas (d : Dev) (x : SMap MbxSt) : (Dev.cas { d with mbx := x }) = d.cas := rfl
theorem Dev.with_mbx_upd (d : Dev) (x : SMap MbxSt) : (Dev.upd { d with mbx := x }) = d.upd := rfl
theorem Dev.with_mbx_sys (d : Dev) (x : SMap MbxSt) : (Dev.sys { d with mbx := x }) = d.sys := rfl
theorem Dev.with_mbx_free (d : Dev) (x : SMap MbxSt) : (Dev.free { d with mbx := x }) = d.free := rfl
theorem Dev.with_mbx_out (d : Dev) (x : SMap MbxSt) : (Dev.out { d with mbx := x }) = d.out := rfl
theorem Dev.with_mbx_rdata (d : Dev) (x : SMap MbxSt) : (Dev.rdata { d with mbx := x }) = d.rdata := rfl

/-! ### Another value in `time` -/

theorem Dev.with_time_regs (d : Dev) (x : TimeSt) : (Dev.regs { d with time := x }) = d.regs := rfl
theorem Dev.with_time_evt (d : Dev) (x : TimeSt) : (Dev.evt { d with time := x }) = d.evt := rfl
theorem Dev.with_time_mbx (d : Dev) (x : TimeSt) : (Dev.mbx { d with time := x }) = d.mbx := rfl
theorem Dev.with_time_held (d : Dev) (x : TimeSt) : (Dev.held { d with time := x }) = d.held := rfl
theorem Dev.with_time_seats (d : Dev) (x : TimeSt) : (Dev.seats { d with time := x }) = d.seats := rfl
theorem Dev.with_time_cv (d : Dev) (x : TimeSt) : (Dev.cv { d with time := x }) = d.cv := rfl
theorem Dev.with_time_vault (d : Dev) (x : TimeSt) : (Dev.vault { d with time := x }) = d.vault := rfl
theorem Dev.with_time_ftl (d : Dev) (x : TimeSt) : (Dev.ftl { d with time := x }) = d.ftl := rfl
theorem Dev.with_time_ports (d : Dev) (x : TimeSt) : (Dev.ports { d with time := x }) = d.ports := rfl
theorem Dev.with_time_arb (d : Dev) (x : TimeSt) : (Dev.arb { d with time := x }) = d.arb := rfl
theorem Dev.with_time_edges (d : Dev) (x : TimeSt) : (Dev.edges { d with time := x }) = d.edges := rfl
theorem Dev.with_time_plc (d : Dev) (x : TimeSt) : (Dev.plc { d with time := x }) = d.plc := rfl
theorem Dev.with_time_rail (d : Dev) (x : TimeSt) : (Dev.rail { d with time := x }) = d.rail := rfl
theorem Dev.with_time_radio (d : Dev) (x : TimeSt) : (Dev.radio { d with time := x }) = d.radio := rfl
theorem Dev.with_time_grant (d : Dev) (x : TimeSt) : (Dev.grant { d with time := x }) = d.grant := rfl
theorem Dev.with_time_pool (d : Dev) (x : TimeSt) : (Dev.pool { d with time := x }) = d.pool := rfl
theorem Dev.with_time_ldg (d : Dev) (x : TimeSt) : (Dev.ldg { d with time := x }) = d.ldg := rfl
theorem Dev.with_time_camp (d : Dev) (x : TimeSt) : (Dev.camp { d with time := x }) = d.camp := rfl
theorem Dev.with_time_bal (d : Dev) (x : TimeSt) : (Dev.bal { d with time := x }) = d.bal := rfl
theorem Dev.with_time_cas (d : Dev) (x : TimeSt) : (Dev.cas { d with time := x }) = d.cas := rfl
theorem Dev.with_time_upd (d : Dev) (x : TimeSt) : (Dev.upd { d with time := x }) = d.upd := rfl
theorem Dev.with_time_sys (d : Dev) (x : TimeSt) : (Dev.sys { d with time := x }) = d.sys := rfl
theorem Dev.with_time_free (d : Dev) (x : TimeSt) : (Dev.free { d with time := x }) = d.free := rfl
theorem Dev.with_time_out (d : Dev) (x : TimeSt) : (Dev.out { d with time := x }) = d.out := rfl
theorem Dev.with_time_rdata (d : Dev) (x : TimeSt) : (Dev.rdata { d with time := x }) = d.rdata := rfl

/-! ### Another value in `out` -/

theorem Dev.with_out_regs (d : Dev) (x : List Out) : (Dev.regs { d with out := x }) = d.regs := rfl
theorem Dev.with_out_time (d : Dev) (x : List Out) : (Dev.time { d with out := x }) = d.time := rfl
theorem Dev.with_out_evt (d : Dev) (x : List Out) : (Dev.evt { d with out := x }) = d.evt := rfl
theorem Dev.with_out_mbx (d : Dev) (x : List Out) : (Dev.mbx { d with out := x }) = d.mbx := rfl
theorem Dev.with_out_held (d : Dev) (x : List Out) : (Dev.held { d with out := x }) = d.held := rfl
theorem Dev.with_out_seats (d : Dev) (x : List Out) : (Dev.seats { d with out := x }) = d.seats := rfl
theorem Dev.with_out_cv (d : Dev) (x : List Out) : (Dev.cv { d with out := x }) = d.cv := rfl
theorem Dev.with_out_vault (d : Dev) (x : List Out) : (Dev.vault { d with out := x }) = d.vault := rfl
theorem Dev.with_out_ftl (d : Dev) (x : List Out) : (Dev.ftl { d with out := x }) = d.ftl := rfl
theorem Dev.with_out_ports (d : Dev) (x : List Out) : (Dev.ports { d with out := x }) = d.ports := rfl
theorem Dev.with_out_arb (d : Dev) (x : List Out) : (Dev.arb { d with out := x }) = d.arb := rfl
theorem Dev.with_out_edges (d : Dev) (x : List Out) : (Dev.edges { d with out := x }) = d.edges := rfl
theorem Dev.with_out_plc (d : Dev) (x : List Out) : (Dev.plc { d with out := x }) = d.plc := rfl
theorem Dev.with_out_rail (d : Dev) (x : List Out) : (Dev.rail { d with out := x }) = d.rail := rfl
theorem Dev.with_out_radio (d : Dev) (x : List Out) : (Dev.radio { d with out := x }) = d.radio := rfl
theorem Dev.with_out_grant (d : Dev) (x : List Out) : (Dev.grant { d with out := x }) = d.grant := rfl
theorem Dev.with_out_pool (d : Dev) (x : List Out) : (Dev.pool { d with out := x }) = d.pool := rfl
theorem Dev.with_out_ldg (d : Dev) (x : List Out) : (Dev.ldg { d with out := x }) = d.ldg := rfl
theorem Dev.with_out_camp (d : Dev) (x : List Out) : (Dev.camp { d with out := x }) = d.camp := rfl
theorem Dev.with_out_bal (d : Dev) (x : List Out) : (Dev.bal { d with out := x }) = d.bal := rfl
theorem Dev.with_out_cas (d : Dev) (x : List Out) : (Dev.cas { d with out := x }) = d.cas := rfl
theorem Dev.with_out_upd (d : Dev) (x : List Out) : (Dev.upd { d with out := x }) = d.upd := rfl
theorem Dev.with_out_sys (d : Dev) (x : List Out) : (Dev.sys { d with out := x }) = d.sys := rfl
theorem Dev.with_out_free (d : Dev) (x : List Out) : (Dev.free { d with out := x }) = d.free := rfl
theorem Dev.with_out_rdata (d : Dev) (x : List Out) : (Dev.rdata { d with out := x }) = d.rdata := rfl

/-! ### Another value in `free` -/

theorem Dev.with_free_regs (d : Dev) (x : Nat) : (Dev.regs { d with free := x }) = d.regs := rfl
theorem Dev.with_free_time (d : Dev) (x : Nat) : (Dev.time { d with free := x }) = d.time := rfl
theorem Dev.with_free_evt (d : Dev) (x : Nat) : (Dev.evt { d with free := x }) = d.evt := rfl
theorem Dev.with_free_mbx (d : Dev) (x : Nat) : (Dev.mbx { d with free := x }) = d.mbx := rfl
theorem Dev.with_free_held (d : Dev) (x : Nat) : (Dev.held { d with free := x }) = d.held := rfl
theorem Dev.with_free_seats (d : Dev) (x : Nat) : (Dev.seats { d with free := x }) = d.seats := rfl
theorem Dev.with_free_cv (d : Dev) (x : Nat) : (Dev.cv { d with free := x }) = d.cv := rfl
theorem Dev.with_free_vault (d : Dev) (x : Nat) : (Dev.vault { d with free := x }) = d.vault := rfl
theorem Dev.with_free_ftl (d : Dev) (x : Nat) : (Dev.ftl { d with free := x }) = d.ftl := rfl
theorem Dev.with_free_ports (d : Dev) (x : Nat) : (Dev.ports { d with free := x }) = d.ports := rfl
theorem Dev.with_free_arb (d : Dev) (x : Nat) : (Dev.arb { d with free := x }) = d.arb := rfl
theorem Dev.with_free_edges (d : Dev) (x : Nat) : (Dev.edges { d with free := x }) = d.edges := rfl
theorem Dev.with_free_plc (d : Dev) (x : Nat) : (Dev.plc { d with free := x }) = d.plc := rfl
theorem Dev.with_free_rail (d : Dev) (x : Nat) : (Dev.rail { d with free := x }) = d.rail := rfl
theorem Dev.with_free_radio (d : Dev) (x : Nat) : (Dev.radio { d with free := x }) = d.radio := rfl
theorem Dev.with_free_grant (d : Dev) (x : Nat) : (Dev.grant { d with free := x }) = d.grant := rfl
theorem Dev.with_free_pool (d : Dev) (x : Nat) : (Dev.pool { d with free := x }) = d.pool := rfl
theorem Dev.with_free_ldg (d : Dev) (x : Nat) : (Dev.ldg { d with free := x }) = d.ldg := rfl
theorem Dev.with_free_camp (d : Dev) (x : Nat) : (Dev.camp { d with free := x }) = d.camp := rfl
theorem Dev.with_free_bal (d : Dev) (x : Nat) : (Dev.bal { d with free := x }) = d.bal := rfl
theorem Dev.with_free_cas (d : Dev) (x : Nat) : (Dev.cas { d with free := x }) = d.cas := rfl
theorem Dev.with_free_upd (d : Dev) (x : Nat) : (Dev.upd { d with free := x }) = d.upd := rfl
theorem Dev.with_free_sys (d : Dev) (x : Nat) : (Dev.sys { d with free := x }) = d.sys := rfl
theorem Dev.with_free_out (d : Dev) (x : Nat) : (Dev.out { d with free := x }) = d.out := rfl
theorem Dev.with_free_rdata (d : Dev) (x : Nat) : (Dev.rdata { d with free := x }) = d.rdata := rfl

/-! ### Dev.setWord -/

@[simp] theorem Dev.setWord_time (d : Dev) (off cp : Nat) (w : Word) : (d.setWord off cp w).time = d.time := Dev.with_regs_time d _
@[simp] theorem Dev.setWord_evt (d : Dev) (off cp : Nat) (w : Word) : (d.setWord off cp w).evt = d.evt := Dev.with_regs_evt d _
@[simp] theorem Dev.setWord_mbx (d : Dev) (off cp : Nat) (w : Word) : (d.setWord off cp w).mbx = d.mbx := Dev.with_regs_mbx d _
@[simp] theorem Dev.setWord_held (d : Dev) (off cp : Nat) (w : Word) : (d.setWord off cp w).held = d.held := Dev.with_regs_held d _
@[simp] theorem Dev.setWord_seats (d : Dev) (off cp : Nat) (w : Word) : (d.setWord off cp w).seats = d.seats := Dev.with_regs_seats d _
@[simp] theorem Dev.setWord_cv (d : Dev) (off cp : Nat) (w : Word) : (d.setWord off cp w).cv = d.cv := Dev.with_regs_cv d _
@[simp] theorem Dev.setWord_vault (d : Dev) (off cp : Nat) (w : Word) : (d.setWord off cp w).vault = d.vault := Dev.with_regs_vault d _
@[simp] theorem Dev.setWord_ftl (d : Dev) (off cp : Nat) (w : Word) : (d.setWord off cp w).ftl = d.ftl := Dev.with_regs_ftl d _
@[simp] theorem Dev.setWord_ports (d : Dev) (off cp : Nat) (w : Word) : (d.setWord off cp w).ports = d.ports := Dev.with_regs_ports d _
@[simp] theorem Dev.setWord_arb (d : Dev) (off cp : Nat) (w : Word) : (d.setWord off cp w).arb = d.arb := Dev.with_regs_arb d _
@[simp] theorem Dev.setWord_edges (d : Dev) (off cp : Nat) (w : Word) : (d.setWord off cp w).edges = d.edges := Dev.with_regs_edges d _
@[simp] theorem Dev.setWord_plc (d : Dev) (off cp : Nat) (w : Word) : (d.setWord off cp w).plc = d.plc := Dev.with_regs_plc d _
@[simp] theorem Dev.setWord_rail (d : Dev) (off cp : Nat) (w : Word) : (d.setWord off cp w).rail = d.rail := Dev.with_regs_rail d _
@[simp] theorem Dev.setWord_radio (d : Dev) (off cp : Nat) (w : Word) : (d.setWord off cp w).radio = d.radio := Dev.with_regs_radio d _
@[simp] theorem Dev.setWord_grant (d : Dev) (off cp : Nat) (w : Word) : (d.setWord off cp w).grant = d.grant := Dev.with_regs_grant d _
@[simp] theorem Dev.setWord_pool (d : Dev) (off cp : Nat) (w : Word) : (d.setWord off cp w).pool = d.pool := Dev.with_regs_pool d _
@[simp] theorem Dev.setWord_ldg (d : Dev) (off cp : Nat) (w : Word) : (d.setWord off cp w).ldg = d.ldg := Dev.with_regs_ldg d _
@[simp] theorem Dev.setWord_camp (d : Dev) (off cp : Nat) (w : Word) : (d.setWord off cp w).camp = d.camp := Dev.with_regs_camp d _
@[simp] theorem Dev.setWord_bal (d : Dev) (off cp : Nat) (w : Word) : (d.setWord off cp w).bal = d.bal := Dev.with_regs_bal d _
@[simp] theorem Dev.setWord_cas (d : Dev) (off cp : Nat) (w : Word) : (d.setWord off cp w).cas = d.cas := Dev.with_regs_cas d _
@[simp] theorem Dev.setWord_upd (d : Dev) (off cp : Nat) (w : Word) : (d.setWord off cp w).upd = d.upd := Dev.with_regs_upd d _
@[simp] theorem Dev.setWord_sys (d : Dev) (off cp : Nat) (w : Word) : (d.setWord off cp w).sys = d.sys := Dev.with_regs_sys d _
@[simp] theorem Dev.setWord_free (d : Dev) (off cp : Nat) (w : Word) : (d.setWord off cp w).free = d.free := Dev.with_regs_free d _
@[simp] theorem Dev.setWord_out (d : Dev) (off cp : Nat) (w : Word) : (d.setWord off cp w).out = d.out := Dev.with_regs_out d _
@[simp] theorem Dev.setWord_rdata (d : Dev) (off cp : Nat) (w : Word) : (d.setWord off cp w).rdata = d.rdata := Dev.with_regs_rdata d _

/-! ### Dev.wr -/

@[simp] theorem Dev.wr_time (d : Dev) (F : Fld) (v i cp : Nat) : (d.wr F v i cp).time = d.time := Dev.setWord_time d _ _ _
@[simp] theorem Dev.wr_evt (d : Dev) (F : Fld) (v i cp : Nat) : (d.wr F v i cp).evt = d.evt := Dev.setWord_evt d _ _ _
@[simp] theorem Dev.wr_mbx (d : Dev) (F : Fld) (v i cp : Nat) : (d.wr F v i cp).mbx = d.mbx := Dev.setWord_mbx d _ _ _
@[simp] theorem Dev.wr_held (d : Dev) (F : Fld) (v i cp : Nat) : (d.wr F v i cp).held = d.held := Dev.setWord_held d _ _ _
@[simp] theorem Dev.wr_seats (d : Dev) (F : Fld) (v i cp : Nat) : (d.wr F v i cp).seats = d.seats := Dev.setWord_seats d _ _ _
@[simp] theorem Dev.wr_cv (d : Dev) (F : Fld) (v i cp : Nat) : (d.wr F v i cp).cv = d.cv := Dev.setWord_cv d _ _ _
@[simp] theorem Dev.wr_vault (d : Dev) (F : Fld) (v i cp : Nat) : (d.wr F v i cp).vault = d.vault := Dev.setWord_vault d _ _ _
@[simp] theorem Dev.wr_ftl (d : Dev) (F : Fld) (v i cp : Nat) : (d.wr F v i cp).ftl = d.ftl := Dev.setWord_ftl d _ _ _
@[simp] theorem Dev.wr_ports (d : Dev) (F : Fld) (v i cp : Nat) : (d.wr F v i cp).ports = d.ports := Dev.setWord_ports d _ _ _
@[simp] theorem Dev.wr_arb (d : Dev) (F : Fld) (v i cp : Nat) : (d.wr F v i cp).arb = d.arb := Dev.setWord_arb d _ _ _
@[simp] theorem Dev.wr_edges (d : Dev) (F : Fld) (v i cp : Nat) : (d.wr F v i cp).edges = d.edges := Dev.setWord_edges d _ _ _
@[simp] theorem Dev.wr_plc (d : Dev) (F : Fld) (v i cp : Nat) : (d.wr F v i cp).plc = d.plc := Dev.setWord_plc d _ _ _
@[simp] theorem Dev.wr_rail (d : Dev) (F : Fld) (v i cp : Nat) : (d.wr F v i cp).rail = d.rail := Dev.setWord_rail d _ _ _
@[simp] theorem Dev.wr_radio (d : Dev) (F : Fld) (v i cp : Nat) : (d.wr F v i cp).radio = d.radio := Dev.setWord_radio d _ _ _
@[simp] theorem Dev.wr_grant (d : Dev) (F : Fld) (v i cp : Nat) : (d.wr F v i cp).grant = d.grant := Dev.setWord_grant d _ _ _
@[simp] theorem Dev.wr_pool (d : Dev) (F : Fld) (v i cp : Nat) : (d.wr F v i cp).pool = d.pool := Dev.setWord_pool d _ _ _
@[simp] theorem Dev.wr_ldg (d : Dev) (F : Fld) (v i cp : Nat) : (d.wr F v i cp).ldg = d.ldg := Dev.setWord_ldg d _ _ _
@[simp] theorem Dev.wr_camp (d : Dev) (F : Fld) (v i cp : Nat) : (d.wr F v i cp).camp = d.camp := Dev.setWord_camp d _ _ _
@[simp] theorem Dev.wr_bal (d : Dev) (F : Fld) (v i cp : Nat) : (d.wr F v i cp).bal = d.bal := Dev.setWord_bal d _ _ _
@[simp] theorem Dev.wr_cas (d : Dev) (F : Fld) (v i cp : Nat) : (d.wr F v i cp).cas = d.cas := Dev.setWord_cas d _ _ _
@[simp] theorem Dev.wr_upd (d : Dev) (F : Fld) (v i cp : Nat) : (d.wr F v i cp).upd = d.upd := Dev.setWord_upd d _ _ _
@[simp] theorem Dev.wr_sys (d : Dev) (F : Fld) (v i cp : Nat) : (d.wr F v i cp).sys = d.sys := Dev.setWord_sys d _ _ _
@[simp] theorem Dev.wr_free (d : Dev) (F : Fld) (v i cp : Nat) : (d.wr F v i cp).free = d.free := Dev.setWord_free d _ _ _
@[simp] theorem Dev.wr_out (d : Dev) (F : Fld) (v i cp : Nat) : (d.wr F v i cp).out = d.out := Dev.setWord_out d _ _ _
@[simp] theorem Dev.wr_rdata (d : Dev) (F : Fld) (v i cp : Nat) : (d.wr F v i cp).rdata = d.rdata := Dev.setWord_rdata d _ _ _

/-! ### Dev.bump -/

@[simp] theorem Dev.bump_time (d : Dev) (F : Fld) (n i cp : Nat) : (d.bump F n i cp).time = d.time := Dev.wr_time d _ _ _ _
@[simp] theorem Dev.bump_evt (d : Dev) (F : Fld) (n i cp : Nat) : (d.bump F n i cp).evt = d.evt := Dev.wr_evt d _ _ _ _
@[simp] theorem Dev.bump_mbx (d : Dev) (F : Fld) (n i cp : Nat) : (d.bump F n i cp).mbx = d.mbx := Dev.wr_mbx d _ _ _ _
@[simp] theorem Dev.bump_held (d : Dev) (F : Fld) (n i cp : Nat) : (d.bump F n i cp).held = d.held := Dev.wr_held d _ _ _ _
@[simp] theorem Dev.bump_seats (d : Dev) (F : Fld) (n i cp : Nat) : (d.bump F n i cp).seats = d.seats := Dev.wr_seats d _ _ _ _
@[simp] theorem Dev.bump_cv (d : Dev) (F : Fld) (n i cp : Nat) : (d.bump F n i cp).cv = d.cv := Dev.wr_cv d _ _ _ _
@[simp] theorem Dev.bump_vault (d : Dev) (F : Fld) (n i cp : Nat) : (d.bump F n i cp).vault = d.vault := Dev.wr_vault d _ _ _ _
@[simp] theorem Dev.bump_ftl (d : Dev) (F : Fld) (n i cp : Nat) : (d.bump F n i cp).ftl = d.ftl := Dev.wr_ftl d _ _ _ _
@[simp] theorem Dev.bump_ports (d : Dev) (F : Fld) (n i cp : Nat) : (d.bump F n i cp).ports = d.ports := Dev.wr_ports d _ _ _ _
@[simp] theorem Dev.bump_arb (d : Dev) (F : Fld) (n i cp : Nat) : (d.bump F n i cp).arb = d.arb := Dev.wr_arb d _ _ _ _
@[simp] theorem Dev.bump_edges (d : Dev) (F : Fld) (n i cp : Nat) : (d.bump F n i cp).edges = d.edges := Dev.wr_edges d _ _ _ _
@[simp] theorem Dev.bump_plc (d : Dev) (F : Fld) (n i cp : Nat) : (d.bump F n i cp).plc = d.plc := Dev.wr_plc d _ _ _ _
@[simp] theorem Dev.bump_rail (d : Dev) (F : Fld) (n i cp : Nat) : (d.bump F n i cp).rail = d.rail := Dev.wr_rail d _ _ _ _
@[simp] theorem Dev.bump_radio (d : Dev) (F : Fld) (n i cp : Nat) : (d.bump F n i cp).radio = d.radio := Dev.wr_radio d _ _ _ _
@[simp] theorem Dev.bump_grant (d : Dev) (F : Fld) (n i cp : Nat) : (d.bump F n i cp).grant = d.grant := Dev.wr_grant d _ _ _ _
@[simp] theorem Dev.bump_pool (d : Dev) (F : Fld) (n i cp : Nat) : (d.bump F n i cp).pool = d.pool := Dev.wr_pool d _ _ _ _
@[simp] theorem Dev.bump_ldg (d : Dev) (F : Fld) (n i cp : Nat) : (d.bump F n i cp).ldg = d.ldg := Dev.wr_ldg d _ _ _ _
@[simp] theorem Dev.bump_camp (d : Dev) (F : Fld) (n i cp : Nat) : (d.bump F n i cp).camp = d.camp := Dev.wr_camp d _ _ _ _
@[simp] theorem Dev.bump_bal (d : Dev) (F : Fld) (n i cp : Nat) : (d.bump F n i cp).bal = d.bal := Dev.wr_bal d _ _ _ _
@[simp] theorem Dev.bump_cas (d : Dev) (F : Fld) (n i cp : Nat) : (d.bump F n i cp).cas = d.cas := Dev.wr_cas d _ _ _ _
@[simp] theorem Dev.bump_upd (d : Dev) (F : Fld) (n i cp : Nat) : (d.bump F n i cp).upd = d.upd := Dev.wr_upd d _ _ _ _
@[simp] theorem Dev.bump_sys (d : Dev) (F : Fld) (n i cp : Nat) : (d.bump F n i cp).sys = d.sys := Dev.wr_sys d _ _ _ _
@[simp] theorem Dev.bump_free (d : Dev) (F : Fld) (n i cp : Nat) : (d.bump F n i cp).free = d.free := Dev.wr_free d _ _ _ _
@[simp] theorem Dev.bump_out (d : Dev) (F : Fld) (n i cp : Nat) : (d.bump F n i cp).out = d.out := Dev.wr_out d _ _ _ _
@[simp] theorem Dev.bump_rdata (d : Dev) (F : Fld) (n i cp : Nat) : (d.bump F n i cp).rdata = d.rdata := Dev.wr_rdata d _ _ _ _

/-! ### Dev.count -/

@[simp] theorem Dev.count_time (d : Dev) (F : Fld) (n i cp : Nat) : (d.count F n i cp).time = d.time := Dev.wr_time d _ _ _ _
@[simp] theorem Dev.count_evt (d : Dev) (F : Fld) (n i cp : Nat) : (d.count F n i cp).evt = d.evt := Dev.wr_evt d _ _ _ _
@[simp] theorem Dev.count_mbx (d : Dev) (F : Fld) (n i cp : Nat) : (d.count F n i cp).mbx = d.mbx := Dev.wr_mbx d _ _ _ _
@[simp] theorem Dev.count_held (d : Dev) (F : Fld) (n i cp : Nat) : (d.count F n i cp).held = d.held := Dev.wr_held d _ _ _ _
@[simp] theorem Dev.count_seats (d : Dev) (F : Fld) (n i cp : Nat) : (d.count F n i cp).seats = d.seats := Dev.wr_seats d _ _ _ _
@[simp] theorem Dev.count_cv (d : Dev) (F : Fld) (n i cp : Nat) : (d.count F n i cp).cv = d.cv := Dev.wr_cv d _ _ _ _
@[simp] theorem Dev.count_vault (d : Dev) (F : Fld) (n i cp : Nat) : (d.count F n i cp).vault = d.vault := Dev.wr_vault d _ _ _ _
@[simp] theorem Dev.count_ftl (d : Dev) (F : Fld) (n i cp : Nat) : (d.count F n i cp).ftl = d.ftl := Dev.wr_ftl d _ _ _ _
@[simp] theorem Dev.count_ports (d : Dev) (F : Fld) (n i cp : Nat) : (d.count F n i cp).ports = d.ports := Dev.wr_ports d _ _ _ _
@[simp] theorem Dev.count_arb (d : Dev) (F : Fld) (n i cp : Nat) : (d.count F n i cp).arb = d.arb := Dev.wr_arb d _ _ _ _
@[simp] theorem Dev.count_edges (d : Dev) (F : Fld) (n i cp : Nat) : (d.count F n i cp).edges = d.edges := Dev.wr_edges d _ _ _ _
@[simp] theorem Dev.count_plc (d : Dev) (F : Fld) (n i cp : Nat) : (d.count F n i cp).plc = d.plc := Dev.wr_plc d _ _ _ _
@[simp] theorem Dev.count_rail (d : Dev) (F : Fld) (n i cp : Nat) : (d.count F n i cp).rail = d.rail := Dev.wr_rail d _ _ _ _
@[simp] theorem Dev.count_radio (d : Dev) (F : Fld) (n i cp : Nat) : (d.count F n i cp).radio = d.radio := Dev.wr_radio d _ _ _ _
@[simp] theorem Dev.count_grant (d : Dev) (F : Fld) (n i cp : Nat) : (d.count F n i cp).grant = d.grant := Dev.wr_grant d _ _ _ _
@[simp] theorem Dev.count_pool (d : Dev) (F : Fld) (n i cp : Nat) : (d.count F n i cp).pool = d.pool := Dev.wr_pool d _ _ _ _
@[simp] theorem Dev.count_ldg (d : Dev) (F : Fld) (n i cp : Nat) : (d.count F n i cp).ldg = d.ldg := Dev.wr_ldg d _ _ _ _
@[simp] theorem Dev.count_camp (d : Dev) (F : Fld) (n i cp : Nat) : (d.count F n i cp).camp = d.camp := Dev.wr_camp d _ _ _ _
@[simp] theorem Dev.count_bal (d : Dev) (F : Fld) (n i cp : Nat) : (d.count F n i cp).bal = d.bal := Dev.wr_bal d _ _ _ _
@[simp] theorem Dev.count_cas (d : Dev) (F : Fld) (n i cp : Nat) : (d.count F n i cp).cas = d.cas := Dev.wr_cas d _ _ _ _
@[simp] theorem Dev.count_upd (d : Dev) (F : Fld) (n i cp : Nat) : (d.count F n i cp).upd = d.upd := Dev.wr_upd d _ _ _ _
@[simp] theorem Dev.count_sys (d : Dev) (F : Fld) (n i cp : Nat) : (d.count F n i cp).sys = d.sys := Dev.wr_sys d _ _ _ _
@[simp] theorem Dev.count_free (d : Dev) (F : Fld) (n i cp : Nat) : (d.count F n i cp).free = d.free := Dev.wr_free d _ _ _ _
@[simp] theorem Dev.count_out (d : Dev) (F : Fld) (n i cp : Nat) : (d.count F n i cp).out = d.out := Dev.wr_out d _ _ _ _
@[simp] theorem Dev.count_rdata (d : Dev) (F : Fld) (n i cp : Nat) : (d.count F n i cp).rdata = d.rdata := Dev.wr_rdata d _ _ _ _

/-! ### Dev.peak -/

@[simp] theorem Dev.peak_time (d : Dev) (F : Fld) (v i cp : Nat) : (d.peak F v i cp).time = d.time := Dev.wr_time d _ _ _ _
@[simp] theorem Dev.peak_evt (d : Dev) (F : Fld) (v i cp : Nat) : (d.peak F v i cp).evt = d.evt := Dev.wr_evt d _ _ _ _
@[simp] theorem Dev.peak_mbx (d : Dev) (F : Fld) (v i cp : Nat) : (d.peak F v i cp).mbx = d.mbx := Dev.wr_mbx d _ _ _ _
@[simp] theorem Dev.peak_held (d : Dev) (F : Fld) (v i cp : Nat) : (d.peak F v i cp).held = d.held := Dev.wr_held d _ _ _ _
@[simp] theorem Dev.peak_seats (d : Dev) (F : Fld) (v i cp : Nat) : (d.peak F v i cp).seats = d.seats := Dev.wr_seats d _ _ _ _
@[simp] theorem Dev.peak_cv (d : Dev) (F : Fld) (v i cp : Nat) : (d.peak F v i cp).cv = d.cv := Dev.wr_cv d _ _ _ _
@[simp] theorem Dev.peak_vault (d : Dev) (F : Fld) (v i cp : Nat) : (d.peak F v i cp).vault = d.vault := Dev.wr_vault d _ _ _ _
@[simp] theorem Dev.peak_ftl (d : Dev) (F : Fld) (v i cp : Nat) : (d.peak F v i cp).ftl = d.ftl := Dev.wr_ftl d _ _ _ _
@[simp] theorem Dev.peak_ports (d : Dev) (F : Fld) (v i cp : Nat) : (d.peak F v i cp).ports = d.ports := Dev.wr_ports d _ _ _ _
@[simp] theorem Dev.peak_arb (d : Dev) (F : Fld) (v i cp : Nat) : (d.peak F v i cp).arb = d.arb := Dev.wr_arb d _ _ _ _
@[simp] theorem Dev.peak_edges (d : Dev) (F : Fld) (v i cp : Nat) : (d.peak F v i cp).edges = d.edges := Dev.wr_edges d _ _ _ _
@[simp] theorem Dev.peak_plc (d : Dev) (F : Fld) (v i cp : Nat) : (d.peak F v i cp).plc = d.plc := Dev.wr_plc d _ _ _ _
@[simp] theorem Dev.peak_rail (d : Dev) (F : Fld) (v i cp : Nat) : (d.peak F v i cp).rail = d.rail := Dev.wr_rail d _ _ _ _
@[simp] theorem Dev.peak_radio (d : Dev) (F : Fld) (v i cp : Nat) : (d.peak F v i cp).radio = d.radio := Dev.wr_radio d _ _ _ _
@[simp] theorem Dev.peak_grant (d : Dev) (F : Fld) (v i cp : Nat) : (d.peak F v i cp).grant = d.grant := Dev.wr_grant d _ _ _ _
@[simp] theorem Dev.peak_pool (d : Dev) (F : Fld) (v i cp : Nat) : (d.peak F v i cp).pool = d.pool := Dev.wr_pool d _ _ _ _
@[simp] theorem Dev.peak_ldg (d : Dev) (F : Fld) (v i cp : Nat) : (d.peak F v i cp).ldg = d.ldg := Dev.wr_ldg d _ _ _ _
@[simp] theorem Dev.peak_camp (d : Dev) (F : Fld) (v i cp : Nat) : (d.peak F v i cp).camp = d.camp := Dev.wr_camp d _ _ _ _
@[simp] theorem Dev.peak_bal (d : Dev) (F : Fld) (v i cp : Nat) : (d.peak F v i cp).bal = d.bal := Dev.wr_bal d _ _ _ _
@[simp] theorem Dev.peak_cas (d : Dev) (F : Fld) (v i cp : Nat) : (d.peak F v i cp).cas = d.cas := Dev.wr_cas d _ _ _ _
@[simp] theorem Dev.peak_upd (d : Dev) (F : Fld) (v i cp : Nat) : (d.peak F v i cp).upd = d.upd := Dev.wr_upd d _ _ _ _
@[simp] theorem Dev.peak_sys (d : Dev) (F : Fld) (v i cp : Nat) : (d.peak F v i cp).sys = d.sys := Dev.wr_sys d _ _ _ _
@[simp] theorem Dev.peak_free (d : Dev) (F : Fld) (v i cp : Nat) : (d.peak F v i cp).free = d.free := Dev.wr_free d _ _ _ _
@[simp] theorem Dev.peak_out (d : Dev) (F : Fld) (v i cp : Nat) : (d.peak F v i cp).out = d.out := Dev.wr_out d _ _ _ _
@[simp] theorem Dev.peak_rdata (d : Dev) (F : Fld) (v i cp : Nat) : (d.peak F v i cp).rdata = d.rdata := Dev.wr_rdata d _ _ _ _

/-! ### Dev.emit -/

@[simp] theorem Dev.emit_regs (d : Dev) (o : Out) : (d.emit o).regs = d.regs := Dev.with_out_regs d _
@[simp] theorem Dev.emit_time (d : Dev) (o : Out) : (d.emit o).time = d.time := Dev.with_out_time d _
@[simp] theorem Dev.emit_evt (d : Dev) (o : Out) : (d.emit o).evt = d.evt := Dev.with_out_evt d _
@[simp] theorem Dev.emit_mbx (d : Dev) (o : Out) : (d.emit o).mbx = d.mbx := Dev.with_out_mbx d _
@[simp] theorem Dev.emit_held (d : Dev) (o : Out) : (d.emit o).held = d.held := Dev.with_out_held d _
@[simp] theorem Dev.emit_seats (d : Dev) (o : Out) : (d.emit o).seats = d.seats := Dev.with_out_seats d _
@[simp] theorem Dev.emit_cv (d : Dev) (o : Out) : (d.emit o).cv = d.cv := Dev.with_out_cv d _
@[simp] theorem Dev.emit_vault (d : Dev) (o : Out) : (d.emit o).vault = d.vault := Dev.with_out_vault d _
@[simp] theorem Dev.emit_ftl (d : Dev) (o : Out) : (d.emit o).ftl = d.ftl := Dev.with_out_ftl d _
@[simp] theorem Dev.emit_ports (d : Dev) (o : Out) : (d.emit o).ports = d.ports := Dev.with_out_ports d _
@[simp] theorem Dev.emit_arb (d : Dev) (o : Out) : (d.emit o).arb = d.arb := Dev.with_out_arb d _
@[simp] theorem Dev.emit_edges (d : Dev) (o : Out) : (d.emit o).edges = d.edges := Dev.with_out_edges d _
@[simp] theorem Dev.emit_plc (d : Dev) (o : Out) : (d.emit o).plc = d.plc := Dev.with_out_plc d _
@[simp] theorem Dev.emit_rail (d : Dev) (o : Out) : (d.emit o).rail = d.rail := Dev.with_out_rail d _
@[simp] theorem Dev.emit_radio (d : Dev) (o : Out) : (d.emit o).radio = d.radio := Dev.with_out_radio d _
@[simp] theorem Dev.emit_grant (d : Dev) (o : Out) : (d.emit o).grant = d.grant := Dev.with_out_grant d _
@[simp] theorem Dev.emit_pool (d : Dev) (o : Out) : (d.emit o).pool = d.pool := Dev.with_out_pool d _
@[simp] theorem Dev.emit_ldg (d : Dev) (o : Out) : (d.emit o).ldg = d.ldg := Dev.with_out_ldg d _
@[simp] theorem Dev.emit_camp (d : Dev) (o : Out) : (d.emit o).camp = d.camp := Dev.with_out_camp d _
@[simp] theorem Dev.emit_bal (d : Dev) (o : Out) : (d.emit o).bal = d.bal := Dev.with_out_bal d _
@[simp] theorem Dev.emit_cas (d : Dev) (o : Out) : (d.emit o).cas = d.cas := Dev.with_out_cas d _
@[simp] theorem Dev.emit_upd (d : Dev) (o : Out) : (d.emit o).upd = d.upd := Dev.with_out_upd d _
@[simp] theorem Dev.emit_sys (d : Dev) (o : Out) : (d.emit o).sys = d.sys := Dev.with_out_sys d _
@[simp] theorem Dev.emit_free (d : Dev) (o : Out) : (d.emit o).free = d.free := Dev.with_out_free d _
@[simp] theorem Dev.emit_rdata (d : Dev) (o : Out) : (d.emit o).rdata = d.rdata := Dev.with_out_rdata d _

/-! ### Dev.took -/

@[simp] theorem Dev.took_regs (d : Dev) : (d.took).regs = d.regs := Dev.with_free_regs d _
@[simp] theorem Dev.took_time (d : Dev) : (d.took).time = d.time := Dev.with_free_time d _
@[simp] theorem Dev.took_evt (d : Dev) : (d.took).evt = d.evt := Dev.with_free_evt d _
@[simp] theorem Dev.took_mbx (d : Dev) : (d.took).mbx = d.mbx := Dev.with_free_mbx d _
@[simp] theorem Dev.took_held (d : Dev) : (d.took).held = d.held := Dev.with_free_held d _
@[simp] theorem Dev.took_seats (d : Dev) : (d.took).seats = d.seats := Dev.with_free_seats d _
@[simp] theorem Dev.took_cv (d : Dev) : (d.took).cv = d.cv := Dev.with_free_cv d _
@[simp] theorem Dev.took_vault (d : Dev) : (d.took).vault = d.vault := Dev.with_free_vault d _
@[simp] theorem Dev.took_ftl (d : Dev) : (d.took).ftl = d.ftl := Dev.with_free_ftl d _
@[simp] theorem Dev.took_ports (d : Dev) : (d.took).ports = d.ports := Dev.with_free_ports d _
@[simp] theorem Dev.took_arb (d : Dev) : (d.took).arb = d.arb := Dev.with_free_arb d _
@[simp] theorem Dev.took_edges (d : Dev) : (d.took).edges = d.edges := Dev.with_free_edges d _
@[simp] theorem Dev.took_plc (d : Dev) : (d.took).plc = d.plc := Dev.with_free_plc d _
@[simp] theorem Dev.took_rail (d : Dev) : (d.took).rail = d.rail := Dev.with_free_rail d _
@[simp] theorem Dev.took_radio (d : Dev) : (d.took).radio = d.radio := Dev.with_free_radio d _
@[simp] theorem Dev.took_grant (d : Dev) : (d.took).grant = d.grant := Dev.with_free_grant d _
@[simp] theorem Dev.took_pool (d : Dev) : (d.took).pool = d.pool := Dev.with_free_pool d _
@[simp] theorem Dev.took_ldg (d : Dev) : (d.took).ldg = d.ldg := Dev.with_free_ldg d _
@[simp] theorem Dev.took_camp (d : Dev) : (d.took).camp = d.camp := Dev.with_free_camp d _
@[simp] theorem Dev.took_bal (d : Dev) : (d.took).bal = d.bal := Dev.with_free_bal d _
@[simp] theorem Dev.took_cas (d : Dev) : (d.took).cas = d.cas := Dev.with_free_cas d _
@[simp] theorem Dev.took_upd (d : Dev) : (d.took).upd = d.upd := Dev.with_free_upd d _
@[simp] theorem Dev.took_sys (d : Dev) : (d.took).sys = d.sys := Dev.with_free_sys d _
@[simp] theorem Dev.took_out (d : Dev) : (d.took).out = d.out := Dev.with_free_out d _
@[simp] theorem Dev.took_rdata (d : Dev) : (d.took).rdata = d.rdata := Dev.with_free_rdata d _

/-! ### Dev.advance -/

@[simp] theorem Dev.advance_regs (d : Dev) (c : Nat) : (d.advance c).regs = d.regs := Dev.with_time_regs d _
@[simp] theorem Dev.advance_evt (d : Dev) (c : Nat) : (d.advance c).evt = d.evt := Dev.with_time_evt d _
@[simp] theorem Dev.advance_mbx (d : Dev) (c : Nat) : (d.advance c).mbx = d.mbx := Dev.with_time_mbx d _
@[simp] theorem Dev.advance_held (d : Dev) (c : Nat) : (d.advance c).held = d.held := Dev.with_time_held d _
@[simp] theorem Dev.advance_seats (d : Dev) (c : Nat) : (d.advance c).seats = d.seats := Dev.with_time_seats d _
@[simp] theorem Dev.advance_cv (d : Dev) (c : Nat) : (d.advance c).cv = d.cv := Dev.with_time_cv d _
@[simp] theorem Dev.advance_vault (d : Dev) (c : Nat) : (d.advance c).vault = d.vault := Dev.with_time_vault d _
@[simp] theorem Dev.advance_ftl (d : Dev) (c : Nat) : (d.advance c).ftl = d.ftl := Dev.with_time_ftl d _
@[simp] theorem Dev.advance_ports (d : Dev) (c : Nat) : (d.advance c).ports = d.ports := Dev.with_time_ports d _
@[simp] theorem Dev.advance_arb (d : Dev) (c : Nat) : (d.advance c).arb = d.arb := Dev.with_time_arb d _
@[simp] theorem Dev.advance_edges (d : Dev) (c : Nat) : (d.advance c).edges = d.edges := Dev.with_time_edges d _
@[simp] theorem Dev.advance_plc (d : Dev) (c : Nat) : (d.advance c).plc = d.plc := Dev.with_time_plc d _
@[simp] theorem Dev.advance_rail (d : Dev) (c : Nat) : (d.advance c).rail = d.rail := Dev.with_time_rail d _
@[simp] theorem Dev.advance_radio (d : Dev) (c : Nat) : (d.advance c).radio = d.radio := Dev.with_time_radio d _
@[simp] theorem Dev.advance_grant (d : Dev) (c : Nat) : (d.advance c).grant = d.grant := Dev.with_time_grant d _
@[simp] theorem Dev.advance_pool (d : Dev) (c : Nat) : (d.advance c).pool = d.pool := Dev.with_time_pool d _
@[simp] theorem Dev.advance_ldg (d : Dev) (c : Nat) : (d.advance c).ldg = d.ldg := Dev.with_time_ldg d _
@[simp] theorem Dev.advance_camp (d : Dev) (c : Nat) : (d.advance c).camp = d.camp := Dev.with_time_camp d _
@[simp] theorem Dev.advance_bal (d : Dev) (c : Nat) : (d.advance c).bal = d.bal := Dev.with_time_bal d _
@[simp] theorem Dev.advance_cas (d : Dev) (c : Nat) : (d.advance c).cas = d.cas := Dev.with_time_cas d _
@[simp] theorem Dev.advance_upd (d : Dev) (c : Nat) : (d.advance c).upd = d.upd := Dev.with_time_upd d _
@[simp] theorem Dev.advance_sys (d : Dev) (c : Nat) : (d.advance c).sys = d.sys := Dev.with_time_sys d _
@[simp] theorem Dev.advance_free (d : Dev) (c : Nat) : (d.advance c).free = d.free := Dev.with_time_free d _
@[simp] theorem Dev.advance_out (d : Dev) (c : Nat) : (d.advance c).out = d.out := Dev.with_time_out d _
@[simp] theorem Dev.advance_rdata (d : Dev) (c : Nat) : (d.advance c).rdata = d.rdata := Dev.with_time_rdata d _

/-! ### Dev.onSeat -/

@[simp] theorem Dev.onSeat_regs (d : Dev) (n : Nat) (g : SeatSt → SeatSt) : (d.onSeat n g).regs = d.regs := Dev.with_seats_regs d _
@[simp] theorem Dev.onSeat_time (d : Dev) (n : Nat) (g : SeatSt → SeatSt) : (d.onSeat n g).time = d.time := Dev.with_seats_time d _
@[simp] theorem Dev.onSeat_evt (d : Dev) (n : Nat) (g : SeatSt → SeatSt) : (d.onSeat n g).evt = d.evt := Dev.with_seats_evt d _
@[simp] theorem Dev.onSeat_mbx (d : Dev) (n : Nat) (g : SeatSt → SeatSt) : (d.onSeat n g).mbx = d.mbx := Dev.with_seats_mbx d _
@[simp] theorem Dev.onSeat_held (d : Dev) (n : Nat) (g : SeatSt → SeatSt) : (d.onSeat n g).held = d.held := Dev.with_seats_held d _
@[simp] theorem Dev.onSeat_cv (d : Dev) (n : Nat) (g : SeatSt → SeatSt) : (d.onSeat n g).cv = d.cv := Dev.with_seats_cv d _
@[simp] theorem Dev.onSeat_vault (d : Dev) (n : Nat) (g : SeatSt → SeatSt) : (d.onSeat n g).vault = d.vault := Dev.with_seats_vault d _
@[simp] theorem Dev.onSeat_ftl (d : Dev) (n : Nat) (g : SeatSt → SeatSt) : (d.onSeat n g).ftl = d.ftl := Dev.with_seats_ftl d _
@[simp] theorem Dev.onSeat_ports (d : Dev) (n : Nat) (g : SeatSt → SeatSt) : (d.onSeat n g).ports = d.ports := Dev.with_seats_ports d _
@[simp] theorem Dev.onSeat_arb (d : Dev) (n : Nat) (g : SeatSt → SeatSt) : (d.onSeat n g).arb = d.arb := Dev.with_seats_arb d _
@[simp] theorem Dev.onSeat_edges (d : Dev) (n : Nat) (g : SeatSt → SeatSt) : (d.onSeat n g).edges = d.edges := Dev.with_seats_edges d _
@[simp] theorem Dev.onSeat_plc (d : Dev) (n : Nat) (g : SeatSt → SeatSt) : (d.onSeat n g).plc = d.plc := Dev.with_seats_plc d _
@[simp] theorem Dev.onSeat_rail (d : Dev) (n : Nat) (g : SeatSt → SeatSt) : (d.onSeat n g).rail = d.rail := Dev.with_seats_rail d _
@[simp] theorem Dev.onSeat_radio (d : Dev) (n : Nat) (g : SeatSt → SeatSt) : (d.onSeat n g).radio = d.radio := Dev.with_seats_radio d _
@[simp] theorem Dev.onSeat_grant (d : Dev) (n : Nat) (g : SeatSt → SeatSt) : (d.onSeat n g).grant = d.grant := Dev.with_seats_grant d _
@[simp] theorem Dev.onSeat_pool (d : Dev) (n : Nat) (g : SeatSt → SeatSt) : (d.onSeat n g).pool = d.pool := Dev.with_seats_pool d _
@[simp] theorem Dev.onSeat_ldg (d : Dev) (n : Nat) (g : SeatSt → SeatSt) : (d.onSeat n g).ldg = d.ldg := Dev.with_seats_ldg d _
@[simp] theorem Dev.onSeat_camp (d : Dev) (n : Nat) (g : SeatSt → SeatSt) : (d.onSeat n g).camp = d.camp := Dev.with_seats_camp d _
@[simp] theorem Dev.onSeat_bal (d : Dev) (n : Nat) (g : SeatSt → SeatSt) : (d.onSeat n g).bal = d.bal := Dev.with_seats_bal d _
@[simp] theorem Dev.onSeat_cas (d : Dev) (n : Nat) (g : SeatSt → SeatSt) : (d.onSeat n g).cas = d.cas := Dev.with_seats_cas d _
@[simp] theorem Dev.onSeat_upd (d : Dev) (n : Nat) (g : SeatSt → SeatSt) : (d.onSeat n g).upd = d.upd := Dev.with_seats_upd d _
@[simp] theorem Dev.onSeat_sys (d : Dev) (n : Nat) (g : SeatSt → SeatSt) : (d.onSeat n g).sys = d.sys := Dev.with_seats_sys d _
@[simp] theorem Dev.onSeat_free (d : Dev) (n : Nat) (g : SeatSt → SeatSt) : (d.onSeat n g).free = d.free := Dev.with_seats_free d _
@[simp] theorem Dev.onSeat_out (d : Dev) (n : Nat) (g : SeatSt → SeatSt) : (d.onSeat n g).out = d.out := Dev.with_seats_out d _
@[simp] theorem Dev.onSeat_rdata (d : Dev) (n : Nat) (g : SeatSt → SeatSt) : (d.onSeat n g).rdata = d.rdata := Dev.with_seats_rdata d _

/-! ### Dev.onMb -/

@[simp] theorem Dev.onMb_regs (d : Dev) (m : Nat) (g : MbxSt → MbxSt) : (d.onMb m g).regs = d.regs := Dev.with_mbx_regs d _
@[simp] theorem Dev.onMb_time (d : Dev) (m : Nat) (g : MbxSt → MbxSt) : (d.onMb m g).time = d.time := Dev.with_mbx_time d _
@[simp] theorem Dev.onMb_evt (d : Dev) (m : Nat) (g : MbxSt → MbxSt) : (d.onMb m g).evt = d.evt := Dev.with_mbx_evt d _
@[simp] theorem Dev.onMb_held (d : Dev) (m : Nat) (g : MbxSt → MbxSt) : (d.onMb m g).held = d.held := Dev.with_mbx_held d _
@[simp] theorem Dev.onMb_seats (d : Dev) (m : Nat) (g : MbxSt → MbxSt) : (d.onMb m g).seats = d.seats := Dev.with_mbx_seats d _
@[simp] theorem Dev.onMb_cv (d : Dev) (m : Nat) (g : MbxSt → MbxSt) : (d.onMb m g).cv = d.cv := Dev.with_mbx_cv d _
@[simp] theorem Dev.onMb_vault (d : Dev) (m : Nat) (g : MbxSt → MbxSt) : (d.onMb m g).vault = d.vault := Dev.with_mbx_vault d _
@[simp] theorem Dev.onMb_ftl (d : Dev) (m : Nat) (g : MbxSt → MbxSt) : (d.onMb m g).ftl = d.ftl := Dev.with_mbx_ftl d _
@[simp] theorem Dev.onMb_ports (d : Dev) (m : Nat) (g : MbxSt → MbxSt) : (d.onMb m g).ports = d.ports := Dev.with_mbx_ports d _
@[simp] theorem Dev.onMb_arb (d : Dev) (m : Nat) (g : MbxSt → MbxSt) : (d.onMb m g).arb = d.arb := Dev.with_mbx_arb d _
@[simp] theorem Dev.onMb_edges (d : Dev) (m : Nat) (g : MbxSt → MbxSt) : (d.onMb m g).edges = d.edges := Dev.with_mbx_edges d _
@[simp] theorem Dev.onMb_plc (d : Dev) (m : Nat) (g : MbxSt → MbxSt) : (d.onMb m g).plc = d.plc := Dev.with_mbx_plc d _
@[simp] theorem Dev.onMb_rail (d : Dev) (m : Nat) (g : MbxSt → MbxSt) : (d.onMb m g).rail = d.rail := Dev.with_mbx_rail d _
@[simp] theorem Dev.onMb_radio (d : Dev) (m : Nat) (g : MbxSt → MbxSt) : (d.onMb m g).radio = d.radio := Dev.with_mbx_radio d _
@[simp] theorem Dev.onMb_grant (d : Dev) (m : Nat) (g : MbxSt → MbxSt) : (d.onMb m g).grant = d.grant := Dev.with_mbx_grant d _
@[simp] theorem Dev.onMb_pool (d : Dev) (m : Nat) (g : MbxSt → MbxSt) : (d.onMb m g).pool = d.pool := Dev.with_mbx_pool d _
@[simp] theorem Dev.onMb_ldg (d : Dev) (m : Nat) (g : MbxSt → MbxSt) : (d.onMb m g).ldg = d.ldg := Dev.with_mbx_ldg d _
@[simp] theorem Dev.onMb_camp (d : Dev) (m : Nat) (g : MbxSt → MbxSt) : (d.onMb m g).camp = d.camp := Dev.with_mbx_camp d _
@[simp] theorem Dev.onMb_bal (d : Dev) (m : Nat) (g : MbxSt → MbxSt) : (d.onMb m g).bal = d.bal := Dev.with_mbx_bal d _
@[simp] theorem Dev.onMb_cas (d : Dev) (m : Nat) (g : MbxSt → MbxSt) : (d.onMb m g).cas = d.cas := Dev.with_mbx_cas d _
@[simp] theorem Dev.onMb_upd (d : Dev) (m : Nat) (g : MbxSt → MbxSt) : (d.onMb m g).upd = d.upd := Dev.with_mbx_upd d _
@[simp] theorem Dev.onMb_sys (d : Dev) (m : Nat) (g : MbxSt → MbxSt) : (d.onMb m g).sys = d.sys := Dev.with_mbx_sys d _
@[simp] theorem Dev.onMb_free (d : Dev) (m : Nat) (g : MbxSt → MbxSt) : (d.onMb m g).free = d.free := Dev.with_mbx_free d _
@[simp] theorem Dev.onMb_out (d : Dev) (m : Nat) (g : MbxSt → MbxSt) : (d.onMb m g).out = d.out := Dev.with_mbx_out d _
@[simp] theorem Dev.onMb_rdata (d : Dev) (m : Nat) (g : MbxSt → MbxSt) : (d.onMb m g).rdata = d.rdata := Dev.with_mbx_rdata d _

end Sys2Proof.Machine
end

