-- ==== Sys2Proof/Laws/Regs.lean ====
section
/-!
SUPPORT. Laws of the register file: a word or field reads as it was written, and a write leaves every other word and every other
field as it was.
-/

namespace Sys2Proof.Machine

/-! ### Words -/

@[simp] theorem Dev.word_setWord_same (d : Dev) (off cp : Nat) (w : Word) : (d.setWord off cp w).word off cp = w := by
  simp [Dev.word, Dev.setWord]

theorem Dev.word_setWord_other (d : Dev) {off cp o c : Nat} (w : Word) (h : c * 2 ^ 24 + o ≠ cp * 2 ^ 24 + off) :
    (d.setWord off cp w).word o c = d.word o c := SMap.get_set_other _ _ _ h

/-- The words a device shows depend on its register file alone. -/
theorem Dev.word_congr {d e : Dev} (h : e.regs = d.regs) (off cp : Nat) : e.word off cp = d.word off cp := by
  simp [Dev.word, h]

theorem Dev.rd_congr {d e : Dev} (h : e.regs = d.regs) (F : Fld) (i cp : Nat) : e.rd F i cp = d.rd F i cp := by
  simp [Dev.rd, Dev.word_congr h]

/-! ### Fields -/

/-- A number is its part above `hi`, its bits `hi … lo` and its part below `lo`. -/
theorem bitsOf_split (n lo w : Nat) :
    n = n / 2 ^ (lo + w) * 2 ^ (lo + w) + n / 2 ^ lo % 2 ^ w * 2 ^ lo + n % 2 ^ lo := by
  have h1 := Nat.div_add_mod n (2 ^ lo)
  have h2 := Nat.div_add_mod (n / 2 ^ lo) (2 ^ w)
  rw [Nat.div_div_eq_div_mul, ← pow_add] at h2
  have h3 : n / 2 ^ (lo + w) * 2 ^ (lo + w) + n / 2 ^ lo % 2 ^ w * 2 ^ lo
      = 2 ^ lo * (2 ^ w * (n / 2 ^ (lo + w)) + n / 2 ^ lo % 2 ^ w) := by
    rw [pow_add]; ring
  rw [h3, h2, h1]

/-- The number that `putBits` makes. -/
theorem putBits_toNat (w : Word) {hi lo : Nat} (v : Nat) (h1 : lo ≤ hi) (h2 : hi < 32) :
    (putBits w hi lo v).toNat =
      w.toNat / 2 ^ (hi + 1) * 2 ^ (hi + 1) + v % 2 ^ (hi + 1 - lo) * 2 ^ lo + w.toNat % 2 ^ lo := by
  obtain ⟨k, hk⟩ : ∃ k, hi + 1 = lo + k := ⟨hi + 1 - lo, by omega⟩
  have hk' : hi + 1 - lo = k := by omega
  unfold putBits bitsOf
  rw [hk', hk, BitVec.toNat_ofNat]
  have hs := bitsOf_split w.toNat lo k
  set n := w.toNat with hn
  have hlt : n < 2 ^ 32 := w.isLt
  have hv : v % 2 ^ k < 2 ^ k := Nat.mod_lt _ (by positivity)
  have hl : n % 2 ^ lo < 2 ^ lo := Nat.mod_lt _ (by positivity)
  have e : n - n / 2 ^ lo % 2 ^ k * 2 ^ lo = n / 2 ^ (lo + k) * 2 ^ (lo + k) + n % 2 ^ lo := by omega
  rw [e]
  have hp : (2 : Nat) ^ (lo + k) = 2 ^ lo * 2 ^ k := pow_add 2 lo k
  have ht : v % 2 ^ k * 2 ^ lo + n % 2 ^ lo < 2 ^ (lo + k) := by
    calc v % 2 ^ k * 2 ^ lo + n % 2 ^ lo < v % 2 ^ k * 2 ^ lo + 2 ^ lo := by omega
      _ = (v % 2 ^ k + 1) * 2 ^ lo := by ring
      _ ≤ 2 ^ k * 2 ^ lo := Nat.mul_le_mul_right _ hv
      _ = 2 ^ (lo + k) := by rw [hp]; ring
  have h32 : (2 : Nat) ^ 32 = 2 ^ (lo + k) * 2 ^ (32 - (lo + k)) := by rw [← pow_add]; congr 1; omega
  have hq : n / 2 ^ (lo + k) < 2 ^ (32 - (lo + k)) := by
    rw [Nat.div_lt_iff_lt_mul (by positivity), mul_comm, ← h32]; exact hlt
  have hb : n / 2 ^ (lo + k) * 2 ^ (lo + k) + (v % 2 ^ k * 2 ^ lo + n % 2 ^ lo) < 2 ^ 32 := by
    calc _ < n / 2 ^ (lo + k) * 2 ^ (lo + k) + 2 ^ (lo + k) := by omega
      _ = (n / 2 ^ (lo + k) + 1) * 2 ^ (lo + k) := by ring
      _ ≤ 2 ^ (32 - (lo + k)) * 2 ^ (lo + k) := Nat.mul_le_mul_right _ hq
      _ = 2 ^ 32 := by rw [h32, mul_comm]
  rw [Nat.mod_eq_of_lt (by omega)]
  omega

/-- A field reads as what was put into it, cut to its width. -/
theorem bitsOf_putBits_same (w : Word) {hi lo : Nat} (v : Nat) (h1 : lo ≤ hi) (h2 : hi < 32) :
    bitsOf (putBits w hi lo v).toNat hi lo = v % 2 ^ (hi + 1 - lo) := by
  rw [bitsOf, putBits_toNat w v h1 h2]
  have hl : w.toNat % 2 ^ lo < 2 ^ lo := Nat.mod_lt _ (by positivity)
  have hp : (2 : Nat) ^ (hi + 1) = 2 ^ lo * 2 ^ (hi + 1 - lo) := by rw [← pow_add]; congr 1; omega
  generalize 2 ^ (hi + 1 - lo) = k at hp ⊢
  have e : w.toNat / 2 ^ (hi + 1) * 2 ^ (hi + 1) + v % k * 2 ^ lo + w.toNat % 2 ^ lo
      = w.toNat % 2 ^ lo + 2 ^ lo * (k * (w.toNat / 2 ^ (hi + 1)) + v % k) := by
    rw [hp]; ring
  rw [e, Nat.add_mul_div_left _ _ (by positivity), Nat.div_eq_of_lt hl, Nat.zero_add, Nat.mul_add_mod]
  exact Nat.mod_mod _ _

/-- A field reads as before after another field of its word was put. -/
theorem bitsOf_putBits_other (w : Word) {hi lo h l : Nat} (v : Nat) (h1 : lo ≤ hi) (h2 : hi < 32) (h3 : l ≤ h)
    (h5 : h < lo ∨ hi < l) : bitsOf (putBits w hi lo v).toNat h l = bitsOf w.toNat h l := by
  rw [bitsOf, putBits_toNat w v h1 h2, bitsOf]
  have hl : w.toNat % 2 ^ lo < 2 ^ lo := Nat.mod_lt _ (by positivity)
  have hv : v % 2 ^ (hi + 1 - lo) < 2 ^ (hi + 1 - lo) := Nat.mod_lt _ (by positivity)
  have hp : (2 : Nat) ^ (hi + 1) = 2 ^ lo * 2 ^ (hi + 1 - lo) := by rw [← pow_add]; congr 1; omega
  rcases h5 with h5 | h5
  · have e : w.toNat / 2 ^ (hi + 1) * 2 ^ (hi + 1) + v % 2 ^ (hi + 1 - lo) * 2 ^ lo + w.toNat % 2 ^ lo
      = 2 ^ lo * (w.toNat / 2 ^ (hi + 1) * 2 ^ (hi + 1 - lo) + v % 2 ^ (hi + 1 - lo)) + w.toNat % 2 ^ lo := by rw [hp]; ring
    have hs : w.toNat = 2 ^ lo * (w.toNat / 2 ^ lo) + w.toNat % 2 ^ lo := (Nat.div_add_mod _ _).symm
    have key : ∀ a b : Nat, (2 ^ lo * a + b) / 2 ^ l % 2 ^ (h + 1 - l) = b / 2 ^ l % 2 ^ (h + 1 - l) := by
      intro a b
      have : (2 : Nat) ^ lo = 2 ^ l * (2 ^ (h + 1 - l) * 2 ^ (lo - (h + 1))) := by rw [← pow_add, ← pow_add]; congr 1; omega
      rw [this, mul_assoc, Nat.mul_add_div (by positivity), mul_assoc, Nat.mul_add_mod]
    rw [e, key]
    conv_rhs => rw [hs, key]
  · have hb : v % 2 ^ (hi + 1 - lo) * 2 ^ lo + w.toNat % 2 ^ lo < 2 ^ (hi + 1) := by
      calc _ < v % 2 ^ (hi + 1 - lo) * 2 ^ lo + 2 ^ lo := by omega
        _ = (v % 2 ^ (hi + 1 - lo) + 1) * 2 ^ lo := by ring
        _ ≤ 2 ^ (hi + 1 - lo) * 2 ^ lo := Nat.mul_le_mul_right _ hv
        _ = 2 ^ (hi + 1) := by rw [hp]; ring
    have hp2 : (2 : Nat) ^ l = 2 ^ (hi + 1) * 2 ^ (l - (hi + 1)) := by rw [← pow_add]; congr 1; omega
    have : (w.toNat / 2 ^ (hi + 1) * 2 ^ (hi + 1) + v % 2 ^ (hi + 1 - lo) * 2 ^ lo + w.toNat % 2 ^ lo) / 2 ^ l = w.toNat / 2 ^ l := by
      rw [hp2, ← Nat.div_div_eq_div_mul, ← Nat.div_div_eq_div_mul]
      congr 1
      rw [add_assoc, mul_comm, Nat.mul_add_div (by positivity), Nat.div_eq_of_lt hb, add_zero]
    rw [this]

/-- Reading a field that was just written. -/
theorem Dev.rd_wr_same (d : Dev) (F : Fld) (v i cp : Nat) (h1 : F.lo ≤ F.hi) (h2 : F.hi < 32) :
    (d.wr F v i cp).rd F i cp = v % 2 ^ (F.hi + 1 - F.lo) := by
  simp [Dev.rd, Dev.wr, bitsOf_putBits_same _ _ h1 h2]

/-- Writing a field leaves every other word as it was. -/
theorem Dev.word_wr_other (d : Dev) (F : Fld) (v i cp o c : Nat) (h : c * 2 ^ 24 + o ≠ cp * 2 ^ 24 + (F.off + i * F.stride)) :
    (d.wr F v i cp).word o c = d.word o c := Dev.word_setWord_other d _ h

/-- Writing a field leaves the fields of every other word as they were. -/
theorem Dev.rd_wr_other (d : Dev) (F G : Fld) (v i cp j c : Nat)
    (h : c * 2 ^ 24 + (G.off + j * G.stride) ≠ cp * 2 ^ 24 + (F.off + i * F.stride)) :
    (d.wr F v i cp).rd G j c = d.rd G j c := by
  simp [Dev.rd, Dev.word_wr_other d F v i cp _ _ h]

/-- Writing a field leaves the other fields of its word as they were. -/
theorem Dev.rd_wr_disjoint (d : Dev) (F G : Fld) (v i cp j : Nat) (h : G.off + j * G.stride = F.off + i * F.stride)
    (h1 : F.lo ≤ F.hi) (h2 : F.hi < 32) (g1 : G.lo ≤ G.hi) (_g2 : G.hi < 32) (g3 : G.hi < F.lo ∨ F.hi < G.lo) :
    (d.wr F v i cp).rd G j cp = d.rd G j cp := by
  simp only [Dev.rd, Dev.wr, h, Dev.word_setWord_same]
  exact bitsOf_putBits_other _ v h1 h2 g1 g3

end Sys2Proof.Machine
end

