-- ==== Sys2Proof/Laws/Parts.lean ====
section
/-!
SUPPORT. What a change of one part of the device leaves of the registers it shows, of its canvas and of its ports.
-/

namespace Sys2Proof.Machine

/-- A field reads the same on two devices with the same register file. -/
theorem Dev.on_congr {d e : Dev} (h : e.regs = d.regs) (F : Fld) (i cp : Nat) : e.on F i cp = d.on F i cp := by
  simp [Dev.on, Dev.rd_congr h]

theorem Dev.cfg_congr {d e : Dev} (h : e.cv = d.cv) : e.cfg = d.cfg := by simp [Dev.cfg, h]

theorem Dev.mode_congr {d e : Dev} (h : e.cv = d.cv) (p : Nat) : e.mode p = d.mode p := by simp [Dev.mode, Dev.cfg_congr h]

theorem Dev.isolated_congr {d e : Dev} (h : e.regs = d.regs) (p : Nat) : e.isolated p = d.isolated p := by
  simp [Dev.isolated, Dev.rd_congr h]

/-! ### Port state -/

theorem Dev.with_ports_regs (d : Dev) (x : SMap PortSt) : (Dev.regs { d with ports := x }) = d.regs := rfl
theorem Dev.with_ports_cv (d : Dev) (x : SMap PortSt) : (Dev.cv { d with ports := x }) = d.cv := rfl

@[simp] theorem Dev.onPort_regs (d : Dev) (p : Nat) (g : PortSt → PortSt) : (d.onPort p g).regs = d.regs :=
  Dev.with_ports_regs d _
@[simp] theorem Dev.onPort_cv (d : Dev) (p : Nat) (g : PortSt → PortSt) : (d.onPort p g).cv = d.cv := Dev.with_ports_cv d _
@[simp] theorem Dev.onPort_mode (d : Dev) (p q : Nat) (g : PortSt → PortSt) : (d.onPort p g).mode q = d.mode q :=
  Dev.mode_congr (Dev.onPort_cv d p g) q
@[simp] theorem Dev.onPort_isolated (d : Dev) (p q : Nat) (g : PortSt → PortSt) :
    (d.onPort p g).isolated q = d.isolated q := Dev.isolated_congr (Dev.onPort_regs d p g) q

/-! ### The clock -/

@[simp] theorem Dev.advance_rd (d : Dev) (c : Nat) (F : Fld) (i cp : Nat) : (d.advance c).rd F i cp = d.rd F i cp :=
  Dev.rd_congr (Dev.advance_regs d c) F i cp
@[simp] theorem Dev.advance_on (d : Dev) (c : Nat) (F : Fld) (i cp : Nat) : (d.advance c).on F i cp = d.on F i cp :=
  Dev.on_congr (Dev.advance_regs d c) F i cp
@[simp] theorem Dev.advance_mode (d : Dev) (c p : Nat) : (d.advance c).mode p = d.mode p :=
  Dev.mode_congr (Dev.advance_cv d c) p
@[simp] theorem Dev.advance_isolated (d : Dev) (c p : Nat) : (d.advance c).isolated p = d.isolated p :=
  Dev.isolated_congr (Dev.advance_regs d c) p
@[simp] theorem Dev.advance_cfg (d : Dev) (c : Nat) : (d.advance c).cfg = d.cfg := Dev.cfg_congr (Dev.advance_cv d c)

/-- Observing the counter never moves it back, and never past the end of the running tick. -/
theorem Dev.advance_cnt (d : Dev) (c : Nat) : d.time.cnt ≤ (d.advance c).time.cnt ∧
    (d.time.cnt < d.nextB → (d.advance c).time.cnt < d.nextB) := by
  show d.time.cnt ≤ max d.time.cnt (min c (d.nextB - 1)) ∧ (d.time.cnt < d.nextB → max d.time.cnt (min c (d.nextB - 1)) < d.nextB)
  omega

end Sys2Proof.Machine
end

