-- ==== Sys2Proof/Laws/Report.lean ====
section
/-!
SUPPORT. What reporting to firmware leaves as it was: counters, sticky bits, events, doorbells and interrupts change only registers,
events, mailboxes, interrupt vectors and what the device sends out.
-/

namespace Sys2Proof.Machine

/-! ### The inner parts -/

theorem Dev.with_regs_inner (d : Dev) (x : SMap Word) : Dev.inner { d with regs := x } = d.inner := rfl
theorem Dev.with_seats_inner (d : Dev) (x : SMap SeatSt) : Dev.inner { d with seats := x } = d.inner := rfl
theorem Dev.with_mbx_inner (d : Dev) (x : SMap MbxSt) : Dev.inner { d with mbx := x } = d.inner := rfl
theorem Dev.with_evt_inner (d : Dev) (x : EvtSt) : Dev.inner { d with evt := x } = d.inner := rfl
theorem Dev.with_out_inner (d : Dev) (x : List Out) : Dev.inner { d with out := x } = d.inner := rfl

@[simp] theorem Dev.setWord_inner (d : Dev) (off cp : Nat) (w : Word) : (d.setWord off cp w).inner = d.inner :=
  Dev.with_regs_inner d _
@[simp] theorem Dev.wr_inner (d : Dev) (F : Fld) (v i cp : Nat) : (d.wr F v i cp).inner = d.inner :=
  Dev.setWord_inner d _ _ _
@[simp] theorem Dev.bump_inner (d : Dev) (F : Fld) (n i cp : Nat) : (d.bump F n i cp).inner = d.inner := Dev.wr_inner d _ _ _ _
@[simp] theorem Dev.count_inner (d : Dev) (F : Fld) (n i cp : Nat) : (d.count F n i cp).inner = d.inner := Dev.wr_inner d _ _ _ _
@[simp] theorem Dev.peak_inner (d : Dev) (F : Fld) (v i cp : Nat) : (d.peak F v i cp).inner = d.inner := Dev.wr_inner d _ _ _ _
@[simp] theorem Dev.wr64_inner (d : Dev) (F : Fld) (v cp : Nat) : (d.wr64 F v cp).inner = d.inner := by simp [Dev.wr64]
@[simp] theorem Dev.emit_inner (d : Dev) (o : Out) : (d.emit o).inner = d.inner := Dev.with_out_inner d _
@[simp] theorem Dev.onSeat_inner (d : Dev) (n : Nat) (g : SeatSt → SeatSt) : (d.onSeat n g).inner = d.inner :=
  Dev.with_seats_inner d _
@[simp] theorem Dev.onMb_inner (d : Dev) (m : Nat) (g : MbxSt → MbxSt) : (d.onMb m g).inner = d.inner := Dev.with_mbx_inner d _

@[simp] theorem Dev.signal_inner (d : Dev) (n v : Nat) : (d.signal n v).inner = d.inner := by
  unfold Dev.signal; extract_lets; split <;> simp

@[simp] theorem Dev.mbxIrq_inner (d : Dev) (m : Nat) : (d.mbxIrq m).inner = d.inner := by
  unfold Dev.mbxIrq; split
  · extract_lets; split <;> simp
  · simp

@[simp] theorem Dev.ringBit_inner (d : Dev) (m b : Nat) : (d.ringBit m b).inner = d.inner := by
  unfold Dev.ringBit; dsimp only
  split
  · simp
  · split <;> simp

@[simp] theorem Dev.ringSeat_inner (d : Dev) (n b : Nat) : (d.ringSeat n b).inner = d.inner := by
  unfold Dev.ringSeat; split <;> simp

@[simp] theorem Dev.notifyView_inner (d : Dev) (view sev : Nat) : (d.notifyView view sev).inner = d.inner := by
  unfold Dev.notifyView; extract_lets; split <;> simp

@[simp] theorem Dev.pushEvt_inner (d : Dev) (e : Evt) : (d.pushEvt e).1.inner = d.inner := by
  unfold Dev.pushEvt; extract_lets v enter
  have h : ∀ f, (enter f).inner = d.inner := fun f => by
    show (Dev.notifyView _ _ _).inner = _
    rw [Dev.notifyView_inner]; exact Dev.with_evt_inner d _
  split
  · exact h _
  · split
    · exact h _
    · rfl

@[simp] theorem Dev.recordRaw_inner (d : Dev) (code sev view : Nat) (payload : Bytes) :
    (d.recordRaw code sev view payload).1.inner = d.inner := by
  unfold Dev.recordRaw; extract_lets
  split
  · rw [Dev.pushEvt_inner]; exact Dev.with_evt_inner d _
  · exact Dev.with_evt_inner d _

@[simp] theorem Dev.fbLost_inner (d : Dev) : d.fbLost.inner = d.inner := by
  unfold Dev.fbLost; extract_lets S d1 r
  have h : r.1.inner = d.inner := (Dev.recordRaw_inner _ _ _ _ _).trans (by simp [d1])
  split
  · rw [Dev.bump_inner, h]
  · exact h

@[simp] theorem Dev.record_inner (d : Dev) (code sev view idx : Nat) (vals : List (Nat × Nat)) :
    (d.record code sev view idx vals).inner = d.inner := by
  unfold Dev.record; extract_lets r
  have h : r.1.inner = d.inner := Dev.recordRaw_inner _ _ _ _ _
  split
  · rw [Dev.fbLost_inner, h]
  · exact h

@[simp] theorem Dev.raiseIn_inner (d : Dev) (S : Sticky) (i cp bit view idx : Nat) (vals : List (Nat × Nat)) :
    (d.raiseIn S i cp bit view idx vals).inner = d.inner := by
  unfold Dev.raiseIn; extract_lets
  rw [Dev.record_inner, Dev.wr_inner]

@[simp] theorem Dev.raise_inner (d : Dev) (S : Sticky) (idx : Nat) (vals : List (Nat × Nat)) :
    (d.raise S idx vals).inner = d.inner := Dev.raiseIn_inner d _ _ _ _ _ _ _
@[simp] theorem Dev.raisePort_inner (d : Dev) (S : Sticky) (p : Nat) (vals : List (Nat × Nat)) :
    (d.raisePort S p vals).inner = d.inner := Dev.raiseIn_inner d _ _ _ _ _ _ _
@[simp] theorem Dev.raiseNamingPort_inner (d : Dev) (S : Sticky) (p : Nat) (vals : List (Nat × Nat)) :
    (d.raiseNamingPort S p vals).inner = d.inner := Dev.raiseIn_inner d _ _ _ _ _ _ _
@[simp] theorem Dev.raiseFor_inner (d : Dev) (S : Sticky) (seat idx : Nat) (vals : List (Nat × Nat)) :
    (d.raiseFor S seat idx vals).inner = d.inner := Dev.raiseIn_inner d _ _ _ _ _ _ _
@[simp] theorem Dev.raiseCopy_inner (d : Dev) (S : Sticky) (seat : Nat) (vals : List (Nat × Nat)) :
    (d.raiseCopy S seat vals).inner = d.inner := Dev.raiseIn_inner d _ _ _ _ _ _ _
@[simp] theorem Dev.raiseSeat_inner (d : Dev) (S : Sticky) (seat : Nat) (vals : List (Nat × Nat)) :
    (d.raiseSeat S seat vals).inner = d.inner := Dev.raiseIn_inner d _ _ _ _ _ _ _
@[simp] theorem Dev.violate_inner (d : Dev) (n : Nat) : (d.violate n).inner = d.inner := by simp [Dev.violate]

/-- What `inner` keeps, field by field: a device with the same inner parts has the same clock, canvas, vault and so on. -/
theorem Dev.inner_fields {d e : Dev} (h : e.inner = d.inner) :
    e.time = d.time ∧ e.held = d.held ∧ e.cv = d.cv ∧ e.vault = d.vault ∧ e.ftl = d.ftl ∧ e.ports = d.ports ∧
    e.arb = d.arb ∧ e.edges = d.edges ∧ e.plc = d.plc ∧ e.rail = d.rail ∧ e.radio = d.radio ∧ e.grant = d.grant ∧
    e.pool = d.pool ∧ e.ldg = d.ldg ∧ e.camp = d.camp ∧ e.bal = d.bal ∧ e.cas = d.cas ∧ e.upd = d.upd ∧ e.sys = d.sys ∧
    e.free = d.free ∧ e.rdata = d.rdata := by
  simpa [Dev.inner] using h

/-! ### Registers outside EVENTS and MAILBOX -/

theorem Dev.word_signal (d : Dev) (n v o c : Nat) : (d.signal n v).word o c = d.word o c := by
  unfold Dev.signal; extract_lets; split
  · exact Dev.word_congr (Dev.onSeat_regs _ _ _) _ _
  · exact Dev.word_congr (Dev.emit_regs _ _) _ _

theorem Dev.word_mbxIrq (d : Dev) (m o c : Nat) : (d.mbxIrq m).word o c = d.word o c := by
  unfold Dev.mbxIrq; split
  · dsimp only; split
    · exact Dev.word_signal _ _ _ _ _
    · rfl
  · exact Dev.word_congr (Dev.emit_regs _ _) _ _

/-- A register that no ring changes: not a mailbox's PEND and not its counter word. -/
def ringFree (o c : Nat) : Prop :=
  ∀ m, m < 64 → c * 2 ^ 24 + o ≠ Reg.MBX_PEND.PEND.off + m * 0x40 ∧ c * 2 ^ 24 + o ≠ Reg.MBX_CNT.MERGED.off + m * 0x40

theorem ringFree_of_quiet {o : Nat} (h : quietOff o) (c : Nat) : ringFree o c := by
  intro m hm
  have e1 : Reg.MBX_PEND.PEND.off < 0x40040 ∧ 0x40000 ≤ Reg.MBX_PEND.PEND.off := by decide
  have e2 : Reg.MBX_CNT.MERGED.off < 0x40040 ∧ 0x40000 ≤ Reg.MBX_CNT.MERGED.off := by decide
  unfold quietOff at h; omega

/-- Ringing a mailbox changes no register but its PEND and its counters. -/
theorem Dev.word_ringBit (d : Dev) (m b o c : Nat) (hm : m < 64) (h : ringFree o c) : (d.ringBit m b).word o c = d.word o c := by
  have k : ∀ (F : Fld), F.stride = 0x40 → (F.off = Reg.MBX_PEND.PEND.off ∨ F.off = Reg.MBX_CNT.MERGED.off) →
      c * 2 ^ 24 + o ≠ 0 * 2 ^ 24 + (F.off + m * F.stride) := by
    intro F h1 h2; rw [h1]; have := h m hm; omega
  unfold Dev.ringBit; dsimp only
  split
  · exact Dev.word_wr_other _ _ _ _ _ _ _ (k _ rfl (.inr rfl))
  · have e : ∀ v g, ((d.wr Reg.MBX_PEND.PEND v m).onMb m g).word o c = d.word o c := fun v g =>
      (Dev.word_congr (Dev.onMb_regs _ _ _) _ _).trans (Dev.word_wr_other _ _ _ _ _ _ _ (k _ rfl (.inl rfl)))
    split
    · exact e _ _
    · rw [Dev.word_mbxIrq]; exact e _ _

theorem Dev.word_ringSeat (d : Dev) (n b o c : Nat) (h : ringFree o c) : (d.ringSeat n b).word o c = d.word o c := by
  unfold Dev.ringSeat; split
  · rename_i m hm
    refine Dev.word_ringBit _ _ _ _ _ ?_ h
    have := List.mem_of_head? hm
    simp only [Canvas.seatMbxs, List.mem_filter, List.mem_range] at this
    exact this.1
  · rfl

theorem Dev.word_notifyView (d : Dev) (view sev o c : Nat) (h : ringFree o c) :
    (d.notifyView view sev).word o c = d.word o c := by
  unfold Dev.notifyView; extract_lets; split
  · exact Dev.word_ringSeat _ _ _ _ _ h
  · rfl

theorem Dev.word_pushEvt (d : Dev) (e : Evt) (o c : Nat) (h : ringFree o c) : (d.pushEvt e).1.word o c = d.word o c := by
  unfold Dev.pushEvt; extract_lets v enter
  have k : ∀ f, (enter f).word o c = d.word o c := fun f => Dev.word_notifyView _ _ _ _ _ h
  split
  · exact k _
  · split
    · exact k _
    · rfl

theorem Dev.word_recordRaw (d : Dev) (code sev view : Nat) (payload : Bytes) (o c : Nat) (h : ringFree o c) :
    (d.recordRaw code sev view payload).1.word o c = d.word o c := by
  unfold Dev.recordRaw; extract_lets
  split
  · exact Dev.word_pushEvt _ _ _ _ h
  · rfl

/-- Recording an event changes no register outside EVENTS and MAILBOX (R396, R394). -/
theorem Dev.word_record (d : Dev) (code sev view idx : Nat) (vals : List (Nat × Nat)) (o c : Nat) (h : quietOff o) :
    (d.record code sev view idx vals).word o c = d.word o c := by
  have k : ∀ (e : Dev) (F : Fld) (v : Nat), 0x30000 ≤ F.off → F.off < 0x50000 → (e.wr F v).word o c = e.word o c := by
    intro e F v h1 h2
    refine Dev.word_wr_other _ _ _ _ _ _ _ ?_
    unfold quietOff at h; omega
  unfold Dev.record; extract_lets r
  have hr : r.1.word o c = d.word o c := Dev.word_recordRaw _ _ _ _ _ _ _ (ringFree_of_quiet h c)
  split
  · unfold Dev.fbLost; extract_lets S d1 r1
    have h1 : d1.word o c = d.word o c := by
      simp only [d1, S]
      rw [k _ _ _ (by decide) (by decide)]
      exact (k _ _ _ (by decide) (by decide)).trans hr
    have h2 : r1.1.word o c = d.word o c := (Dev.word_recordRaw _ _ _ _ _ _ _ (ringFree_of_quiet h c)).trans h1
    split
    · exact (k _ _ _ (by decide) (by decide)).trans h2
    · exact h2
  · exact hr

/-- Recording an event changes no field but those of a ring, the count of lost entries and FB_OVERWRITE. -/
theorem Dev.rd_record (d : Dev) (code sev view idx : Nat) (vals : List (Nat × Nat)) (F : Fld) (i cp : Nat)
    (h : ringFree (F.off + i * F.stride) cp) (h1 : cp * 2 ^ 24 + (F.off + i * F.stride) ≠ Reg.EVT_LOST.FB_LOST.off)
    (h2 : cp * 2 ^ 24 + (F.off + i * F.stride) = Stk.EVT.FB_OVERWRITE.fld.off →
      cp = 0 ∧ F.lo ≤ F.hi ∧ F.hi < 32 ∧ (F.hi < Stk.EVT.FB_OVERWRITE.fld.lo ∨ Stk.EVT.FB_OVERWRITE.fld.hi < F.lo)) :
    (d.record code sev view idx vals).rd F i cp = d.rd F i cp := by
  have kr : ∀ (e : Dev) (code sev view : Nat) (p : Bytes), (e.recordRaw code sev view p).1.rd F i cp = e.rd F i cp :=
    fun e code sev view p => by simp only [Dev.rd, Dev.word_recordRaw _ _ _ _ _ _ _ h]
  have kl : ∀ (e : Dev) (v : Nat), (e.wr Reg.EVT_LOST.FB_LOST v).rd F i cp = e.rd F i cp :=
    fun e v => Dev.rd_wr_other _ _ _ _ _ _ _ _ (by simpa using h1)
  have kb : ∀ (e : Dev) (v : Nat), (e.wr Stk.EVT.FB_OVERWRITE.fld v).rd F i cp = e.rd F i cp := by
    intro e v
    by_cases c : cp * 2 ^ 24 + (F.off + i * F.stride) = Stk.EVT.FB_OVERWRITE.fld.off
    · obtain ⟨rfl, g1, g2, g3⟩ := h2 c
      refine Dev.rd_wr_disjoint _ _ _ _ _ _ _ ?_ (by decide) (by decide) g1 g2 g3
      simpa using c
    · exact Dev.rd_wr_other _ _ _ _ _ _ _ _ (by simpa using c)
  unfold Dev.record; extract_lets r
  have hr : r.1.rd F i cp = d.rd F i cp := kr _ _ _ _ _
  split
  · unfold Dev.fbLost; extract_lets S d1 r1
    have e1 : d1.rd F i cp = d.rd F i cp := by
      simp only [d1, S]; rw [kb]; exact (kl _ _).trans hr
    have e2 : r1.1.rd F i cp = d.rd F i cp := (kr _ _ _ _ _).trans e1
    split
    · exact (kl _ _).trans e2
    · exact e2
  · exact hr

/-- Raising a sticky bit changes its own word, and nothing outside EVENTS and MAILBOX else. -/
theorem Dev.word_raiseIn (d : Dev) (S : Sticky) (i cp bit view idx : Nat) (vals : List (Nat × Nat)) (o c : Nat)
    (h : quietOff o) (hs : c * 2 ^ 24 + o ≠ cp * 2 ^ 24 + (S.fld.off + i * S.fld.stride)) :
    (d.raiseIn S i cp bit view idx vals).word o c = d.word o c := by
  unfold Dev.raiseIn; extract_lets F
  rw [Dev.word_record _ _ _ _ _ _ _ _ h]
  exact Dev.word_wr_other _ _ _ _ _ _ _ hs

/-- A raised sticky bit reads 1. -/
theorem Dev.on_raiseIn (d : Dev) (S : Sticky) (i cp view idx : Nat) (vals : List (Nat × Nat)) (hw : S.fld.hi = S.fld.lo)
    (hl : S.fld.lo < 32) (h : ringFree (S.fld.off + i * S.fld.stride) cp)
    (h1 : cp * 2 ^ 24 + (S.fld.off + i * S.fld.stride) ≠ Reg.EVT_LOST.FB_LOST.off)
    (h2 : cp * 2 ^ 24 + (S.fld.off + i * S.fld.stride) = Stk.EVT.FB_OVERWRITE.fld.off →
      cp = 0 ∧ (S.fld.lo < Stk.EVT.FB_OVERWRITE.fld.lo ∨ Stk.EVT.FB_OVERWRITE.fld.hi < S.fld.lo)) :
    (d.raiseIn S i cp 0 view idx vals).on S.fld i cp = true := by
  have ef : ∀ G : Fld, G.hi = G.lo → ({ G with hi := G.lo + 0, lo := G.lo + 0 } : Fld) = G := by
    rintro ⟨o, st, a, b⟩ g; dsimp only at g; subst g; rfl
  have e := ef S.fld hw
  have k : ((d.wr { S.fld with hi := S.fld.lo + 0, lo := S.fld.lo + 0 } 1 i cp).record S.code S.sev view idx vals).rd S.fld i cp = 1 := by
    rw [Dev.rd_record _ _ _ _ _ _ _ _ _ h h1 fun c => ⟨(h2 c).1, hw.ge, hw ▸ hl, by rw [hw]; exact (h2 c).2⟩, e,
      Dev.rd_wr_same _ _ _ _ _ hw.ge (hw ▸ hl), hw]
    simp
  unfold Dev.on
  rw [show (d.raiseIn S i cp 0 view idx vals).rd S.fld i cp = 1 from k]; rfl

/-! ### What reporting leaves of a seat -/

theorem Dev.seat_congr {d e : Dev} (h : e.seats = d.seats) (n : Nat) : e.seat n = d.seat n := by simp only [Dev.seat, h]

/-- Of what a seat holds, a ring changes only its interrupt vectors. -/
theorem Dev.seat_ring {α : Type} (f : SeatSt → α) (hf : ∀ (s : SeatSt) (x : SMap Msix), f { s with msix := x } = f s)
    (d : Dev) (m b n : Nat) : f ((d.ringBit m b).seat n) = f (d.seat n) := by
  have ks : ∀ (e : Dev) (k v : Nat), f ((e.signal k v).seat n) = f (e.seat n) := by
    intro e k v; unfold Dev.signal; extract_lets; split
    · by_cases c : n = k
      · subst c; simp only [Dev.seat, Dev.onSeat, SMap.upd, SMap.get_set_same]; exact hf _ _
      · simp only [Dev.seat, Dev.onSeat, SMap.upd, SMap.get_set_other _ _ _ c]
    · rfl
  have ki : ∀ e : Dev, f ((e.mbxIrq m).seat n) = f (e.seat n) := by
    intro e; unfold Dev.mbxIrq; split
    · dsimp only; split
      · exact ks _ _ _
      · rfl
    · rfl
  unfold Dev.ringBit; dsimp only; split
  · unfold Dev.bump; exact congrArg f (Dev.seat_congr (Dev.wr_seats _ _ _ _ _) n)
  · split
    · exact congrArg f (Dev.seat_congr ((Dev.onMb_seats _ _ _).trans (Dev.wr_seats _ _ _ _ _)) n)
    · exact (ki _).trans (congrArg f (Dev.seat_congr ((Dev.onMb_seats _ _ _).trans (Dev.wr_seats _ _ _ _ _)) n))

theorem Dev.seat_notify {α : Type} (f : SeatSt → α) (hf : ∀ (s : SeatSt) (x : SMap Msix), f { s with msix := x } = f s)
    (d : Dev) (view sev n : Nat) : f ((d.notifyView view sev).seat n) = f (d.seat n) := by
  unfold Dev.notifyView; extract_lets; split
  · unfold Dev.ringSeat; split
    · exact Dev.seat_ring f hf _ _ _ _
    · rfl
  · rfl

/-- Of what a seat holds, raising a sticky bit changes only its interrupt vectors. -/
theorem Dev.seat_raiseIn {α : Type} (f : SeatSt → α) (hf : ∀ (s : SeatSt) (x : SMap Msix), f { s with msix := x } = f s)
    (d : Dev) (S : Sticky) (i cp bit view idx : Nat) (vals : List (Nat × Nat)) (n : Nat) :
    f ((d.raiseIn S i cp bit view idx vals).seat n) = f (d.seat n) := by
  have kp : ∀ (e : Dev) (x : Evt), f ((e.pushEvt x).1.seat n) = f (e.seat n) := by
    intro e x; unfold Dev.pushEvt; extract_lets v enter
    have k : ∀ l, f ((enter l).seat n) = f (e.seat n) := fun l => Dev.seat_notify f hf _ _ _ _
    split
    · exact k _
    · split
      · exact k _
      · rfl
  have kr : ∀ (e : Dev) (code sev view : Nat) (p : Bytes), f ((e.recordRaw code sev view p).1.seat n) = f (e.seat n) := by
    intro e code sev view p; unfold Dev.recordRaw; extract_lets; split
    · exact kp _ _
    · rfl
  have kw : ∀ (e : Dev) (F : Fld) (v i cp : Nat), f ((e.wr F v i cp).seat n) = f (e.seat n) :=
    fun e F v i cp => congrArg f (Dev.seat_congr (Dev.wr_seats _ _ _ _ _) n)
  unfold Dev.raiseIn; extract_lets F; unfold Dev.record; extract_lets r
  have hr : f (r.1.seat n) = f (d.seat n) := (kr _ _ _ _ _).trans (kw _ _ _ _ _)
  split
  · unfold Dev.fbLost; extract_lets S1 d1 r1
    have h1 : f (r1.1.seat n) = f (d.seat n) := ((kr _ _ _ _ _).trans ((kw _ _ _ _ _).trans (by unfold Dev.bump; exact kw _ _ _ _ _))).trans hr
    split
    · unfold Dev.bump; exact (kw _ _ _ _ _).trans h1
    · exact h1
  · exact hr

end Sys2Proof.Machine
end

