-- ==== Sys2Proof/Tests/Slice0.lean ====
section
/-!
SUPPORT. The model's own tests: ill-formed commands are not well-formed, worked examples of the spec, and for every statement with
hypotheses a state and operands that meet them.
-/

namespace Sys2Proof.Tests

open Sys2Proof Sys2Proof.Machine

/-! ### Small states -/

/-- A device in operation, every register at its reset value. -/
def tUp : Dev := { sys := { phase := .up } }

/-- A device in operation with the listed registers. -/
def tR (regs : SMap Word) : Dev := { tUp with regs }

/-- A device in operation with a running canvas and the listed registers. -/
def tC (body : Canvas) (regs : SMap Word) : Dev := { tR regs with cv := { run := some body } }

/-- The section table over the bodies (R42): the entries and then the bodies, the first of them at `off`. -/
def wTable : List (Nat × Bytes) → Nat → Bytes
  | [], _ => []
  | (ty, b) :: rest, off => leBytes 1 ty ++ zeros 3 ++ leBytes 4 off ++ leBytes 4 b.length ++ zeros 4 ++ wTable rest (off + b.length)

/-- A canvas of a position with the given sections (R41, R42). -/
def wCanvas (pos : Nat) (secs : List (Nat × Bytes)) : Canvas :=
  zeros 20 ++ leBytes 2 secs.length ++ [0, BitVec.ofNat 8 pos] ++ leBytes 4 1024 ++ zeros 36 ++
    wTable secs (64 + 16 * secs.length) ++ secs.flatMap Prod.snd

/-- A standalone canvas of one section. -/
def wSect (ty : Nat) (body : Bytes) : Canvas := wCanvas 255 [(ty, body)]

/-- A canvas whose port 0 has a mode (R429). -/
def wPorts (mode : Nat) : Canvas := wSect 1 (zeros 64 ++ [BitVec.ofNat 8 mode])

/-- A canvas with the given SEATS section (R283). -/
def wSeats (body : Bytes) : Canvas := wSect 5 body

/-- A canvas whose seat 0 begins with the given bytes and owns slot 0. -/
def wSeat (b : Bytes) : Canvas := wSeats (if b.length ≤ 12 then b ++ zeros (12 - b.length) ++ [1] else b)

/-- A canvas that takes a position in a cascade of `npos` positions (R328). -/
def wPos (pos npos : Nat) : Canvas := wCanvas pos [(11, [BitVec.ofNat 8 npos])]

/-- A device whose seat 0 waits for the acknowledgement of a marker. -/
def wMark : Dev :=
  { tC (wSeat [3]) [(0x180008, 1)] with seats := [(0, { markers := [{ tag := 7, path := 1, count := 0, ord := 0, bytes := [] }] })] }

/-- A frame of the cascade with a good header seal and a good body seal (R330). -/
def wFrame (body : Bytes) : Bytes :=
  let h := zeros 2 ++ leBytes 2 body.length ++ zeros 24
  h ++ leBytes 4 (sealOf h) ++ body ++ leBytes 4 (sealOf body)

/-- A rail frame with a good seal (R121). -/
def wRail : Bytes :=
  let h : Bytes := [0x10] ++ zeros 11
  h ++ leBytes 4 (sealOf h)

/-- An item for engine 0. -/
def wItem (work : Work) : QItem := { work, slot := 0, seat := 0, opening := 0, aseq := 0, atick := 0 }

/-- A device whose engine 0 has one item in its carry queue. -/
def wEng (work : Work) : Dev := { tR [(0x1C0004, 1)] with ldg := { engines := [(0, { carry := [wItem work] })] } }

/-- An interval boundary of seat 0. -/
def wBound : Bound := { seat := 0, utc := 0, tick := 0 }

/-- An active device whose slot 0 has a boundary to close. -/
def wClose (ldg : LdgSt) : Dev :=
  { tC (wSeat [3]) [(0x1C0004, 1)] with ldg, time := { bounds := [wBound] } }

/-- A target that waits for its answer. -/
def wTarget : Target := { slot := 0, waiting := true }

/-- A device whose campaign 0 is in INITIATE and waits for the answer of slot 0. -/
def wCamp : Dev := { tUp with camp := { camps := [(0, { state := 3, targets := [wTarget] })] }, time := { tick := 3000 } }

/-- A device that holds the transmit grant and whose campaign 0 has a target to initiate on port 0. -/
def wCampTx : Dev :=
  { tC (wSeat [3]) [(0xD0000, 1), (0xE000C, 0)] with
    camp := { camps := [(0, { state := 3, kind := 1, targets := [{ slot := 0 }] })] }
    pool := { adir := [(4 * 2 ^ 128, { slot := 0, seat := 0, n := 0 })] } }

/-- The descriptor and payload of a calendar campaign over slot 0 (R248). -/
def wCampBody : Bytes := [2] ++ zeros 11 ++ [1] ++ zeros 13 ++ [1, 0, 1, 1, 1, 1] ++ zeros 33

/-- A device whose key cache holds the keys of slot 0, under a KEK that is usable. -/
def wKeys : Dev :=
  { tUp with
    pool := { cache := [(0, [{ slot := 0, ek := zeros 16, ak := zeros 16 }])] }
    vault := { eff := [(0, { attr := 128, usable := true })] } }

/-- An update message of seat 0. -/
def wMsg (op : Nat) : VMsg := { seat := 0, op, slot := 2, attr := 1, auth := 1, counter := 1, payload := [] }

/-- A device whose vault has accepted an update message. -/
def wVault (op : Nat) : Dev := { tUp with vault := { accepted := some (wMsg op) } }

/-- A RADIO frame to the device. -/
def wRadio : RadioFrame := { toUs := true, secured := false, ackReq := true, seq := 0, src := 1, psdu := [1] }

/-- An association request that is received well. -/
def wAssoc : AssocReq := { c := 0, frame := wRadio, eui := 0, fcsOk := true, endSet := true, late := false }

/-- A request for a GTS of `len` slots that is received well. -/
def wGts (len : Nat) : GtsReqs :=
  { c := 0, reqs := [(wRadio, { alloc := true, len, rx := false })], fcsOk := true, endSet := true, late := false }

/-- An untagged frame with a PTP event message (R78). -/
def wPtp : Bytes := zeros 12 ++ [0x88, 0xF7] ++ zeros 44

/-- A canvas whose port 0 is a PLC_AFE port that answers five joins in each 100 ticks (R117). -/
def wJoin : Canvas := wCanvas 255 [(1, zeros 64 ++ [1]), (0x0D, zeros 6 ++ [5])]

/-- A plaintext of slot 0. -/
def wPlain : Plain := { slot := 0, seat := 0, port := 0, bytes := [], chk := 0, frames := [] }

/-- A device with an entry of the address directory for the key that seat 0 has written. -/
def wAdir : Dev :=
  { tC (wSeat [3]) [(0x181010, 0), (0x181014, 0), (0x181018, 0), (0x18101C, 0), (0x181020, 0)] with
    pool := { adir := [(0, { slot := 0, seat := 0, n := 0 })] } }

/-- A canvas whose seat 0 has intervals of one minute, with one spanning node. -/
def wTopo : Canvas :=
  wCanvas 255 [(5, [3, 1] ++ zeros 10 ++ [1]), (6, [1] ++ zeros 2111 ++ [0, 0, 1] ++ zeros 29)]

/-- An event entry. -/
def wEvt : Evt :=
  { code := 1, sev := 1, tvalid := false, summary := false, lastgasp := false, seat := 0, hours := 0, secs := 0, cycles := 0
    tick := 0, ctime := 0, eseq := 0, supp := 0, pos := 0xFF, payload := [], chk := 0 }

/-- A one-bit block in use. -/
def wOneBit : NandBlock := { oneBit := true, st := .closed }

/-- A device all of whose listed blocks are one-bit blocks in use. -/
def wFull (n : Nat) : Dev := { tUp with ftl := { blocks := List.replicate n (0, wOneBit) } }

theorem wFull_free (n : Nat) : (wFull n).ftl.freeCount true = 2048 - n := by
  simp [FtlSt.freeCount, wFull, wOneBit, oneBitBlocks]

theorem wFull_least (n : Nat) :
    (wFull (n + 1)).ftl.least (fun b => b.oneBit && b.st != .free && b.st != .bad) (·.born) = some 0 := by
  have h : (wOneBit.oneBit && wOneBit.st != .free && wOneBit.st != .bad) = true := rfl
  simp only [FtlSt.least, wFull, List.replicate_succ, List.foldl_cons, h, if_true]
  induction n with
  | zero => rfl
  | succ k ih => simpa [List.replicate_succ, h] using ih

/-! ### Operands that do not exist (log entry 1) -/

/-- Each term breaks one check of WellFormed. -/
theorem test_refuses_Reset :
  [Instr.deviceStart { strap := [], strapRaw := 0, banks := [], noise := none, damage := [], away := 0 },
    .ledgerRestore [(2 ^ 70, 0)] [] true, .ledgerRestore [] [2 ^ 70] true, .vinSurge (2 ^ 70), .vinLow (2 ^ 70),
    .debugReset 0 (2 ^ 70) false, .l3Reset 0 (2 ^ 70), .thermSample []].all (fun i => !i.wf) = true := by decide

/-- Each term breaks one check of WellFormed. -/
theorem test_refuses_Regs :
  [Instr.regWrite (.seat 64) 0xFFFF0 0 0 [], .regWrite (.core 8) 0xFFFF0 0 0 [], .regWrite (.seat 0) 3 0 0 [],
    .regAccessMisaligned (2 ^ 70) 2 4 none, .regAccessMisaligned 0 (2 ^ 70) 4 none,
    .regAccessMisaligned 0 2 (2 ^ 70) none, .readClear (.seat 64) 0x10 0, .readClear (.core 8) 0x10 0,
    .readClear (.seat 0) 3 0, .timeNs32Read (2 ^ 70) 0, .timeSecHiRead (2 ^ 70), .tickLoRead (2 ^ 70) 0 true,
    .vaultCntLoRead (2 ^ 70), .rtcSecHiRead (2 ^ 70)].all (fun i => !i.wf) = true := by decide

/-- Each term breaks one check of WellFormed. -/
theorem test_refuses_Ticks :
  [Instr.fenceComplete (2 ^ 70), .uplinkFenceMarker (2 ^ 70) 1, .uplinkFenceMarker 0 (2 ^ 70)].all (fun i => !i.wf) = true := by decide

/-- Each term breaks one check of WellFormed. -/
theorem test_refuses_Times :
  [Instr.timeSlew 0 (2 ^ 70), .timeDiscipline 0 (2 ^ 70), .timeRateWrite 0 (2 ^ 70), .trigArm (2 ^ 70) 1,
    .trigArm 0 (2 ^ 70), .trigTickWrite (2 ^ 70) 1, .trigTickWrite 0 (2 ^ 70), .trigFire (2 ^ 70)].all (fun i => !i.wf) = true := by decide

/-- Each term breaks one check of WellFormed. -/
theorem test_refuses_PortCmds :
  [Instr.frameIngest (2 ^ 70) [] false, .arbiterRound (.port 16), .arbiterRound (.group 4), .fifoPtrMismatch (2 ^ 70),
    .portShort { port := 2 ^ 70, c := 0 }, .portOpen (2 ^ 70), .rxPairReversed (2 ^ 70), .portRetry (2 ^ 70), .portFlush (2 ^ 70),
    .fieldlinkAutoneg (2 ^ 70) true, .pauseRx (2 ^ 70) 0 1 65535, .pauseRx 0 0 (2 ^ 70) 65535, .pauseRx 0 0 1 (2 ^ 70),
    .pauseRelease (2 ^ 70), .edgeInput (.tamper 4) true false 0, .edgeInput (.irq 256) true false 0,
    .edgeSettle (.tamper 4) 1000000, .edgeSettle (.irq 256) 1000000, .irqStuck (2 ^ 70) 10000000, .irqPoll (2 ^ 70),
    .irqUnstuck (2 ^ 70) 100000000, .fpGrpRstWrite (2 ^ 70)].all (fun i => !i.wf) = true := by decide

/-- Each term breaks one check of WellFormed. -/
theorem test_refuses_FieldCmds :
  [Instr.afeSampleBlock (2 ^ 70) (zeros 131 ++ leBytes 2 (crcAfe (zeros 131))) [], .afeSampleBlock 0 [] [],
    .plcOverload (2 ^ 70) { first := 0, second := 0 }, .plcOverload 0 { first := 2 ^ 70, second := 0 },
    .plcOverload 0 { first := 0, second := 2 ^ 70 }, .afeStatusBlock (2 ^ 70) (zeros 7 ++ leBytes 2 (crcAfe (zeros 7))),
    .afeStatusBlock 0 [], .afeLockLoss (2 ^ 70) false, .plcFrameRx (2 ^ 70) 0 [1] none,
    .plcFrameRx 0 (2 ^ 70) [1] none, .plcJoinRequest { port := 2 ^ 70, eui := 0 }, .plcJoinRequest { port := 0, eui := 2 ^ 70 }, .beacon (2 ^ 70),
    .radioFrameRx (2 ^ 70) 0 wRadio true true false, .dataRequest (2 ^ 70) 0 wRadio true true false,
    .indirectTx (2 ^ 70) 0, .indirectExpire (2 ^ 70), .associationRequest (2 ^ 70) wAssoc,
    .associationRequest 0 { wAssoc with eui := 2 ^ 70 }, .gtsRequest (2 ^ 70) (wGts 1), .gtsRequest 0 (wGts 16),
    .partnerPsdu (2 ^ 70) 0 false { frame := wRadio, kind := .data }].all (fun i => !i.wf) = true := by decide

/-- Each term breaks one check of WellFormed. -/
theorem test_refuses_IngestCmds :
  [Instr.cipherEncrypt (2 ^ 70) 0 (zeros 8) [], .cipherEncrypt 0 (2 ^ 70) (zeros 8) [], .cipherEncrypt 0 0 [] []].all (fun i => !i.wf) = true := by decide

/-- Each term breaks one check of WellFormed. -/
theorem test_refuses_Ledgers :
  [Instr.apduUnpark (2 ^ 70), .applyRecord (2 ^ 70) 0 [] none, .applyRecord 0 0 [2 ^ 70] none, .sweepClose (2 ^ 70) 0,
    .catchupClose (2 ^ 70) 0, .slotRepairDone (2 ^ 70) none, .slotRepairTimeout (2 ^ 70),
    .shadowCorrectionInstall (2 ^ 70), .ldgFence (2 ^ 70) 0x30001, .ldgFence 63 (2 ^ 70), .ldgRerateGo (2 ^ 70),
    .rerateOrderApply (2 ^ 70) 0, .billingCloseAction (2 ^ 70) 0, .billingCloseAction 0 (2 ^ 70),
    .billingOrderApply (2 ^ 70) 0, .readoutRequest (2 ^ 70)].all (fun i => !i.wf) = true := by decide

/-- Each term breaks one check of WellFormed. -/
theorem test_refuses_SeatCmds :
  [Instr.uplinkSend (.records 64 0 false), .uplinkSend (.records 0 3 false), .uplAck (2 ^ 70) 7 1, .uplAck 0 (2 ^ 70) 1,
    .uplAck 0 7 (2 ^ 70), .uplRetx (2 ^ 70) 7 1, .uplRetx 0 (2 ^ 70) 1, .uplRetx 0 7 (2 ^ 70), .uplRetxDone (2 ^ 70),
    .uplinkFrameRx (2 ^ 70) 0 (zeros 14) none, .uplinkFrameRx 0 0 [] none, .regAccessDatagram (2 ^ 70) 0,
    .ringHostPtrWrite (2 ^ 70) 1 0 [], .ringHostPtrWrite 0 (2 ^ 70) 0 [], .ringHostPtrWrite 0 1 (2 ^ 70) [],
    .adirInsert (2 ^ 70), .adirDelete (2 ^ 70), .adirLookup (2 ^ 70), .vfFlr (2 ^ 70), .seatL4 (2 ^ 70),
    .seatReopen (2 ^ 70), .mbxDoorbell (.seat 64) 0 31, .mbxDoorbell (.core 8) 0 31,
    .mbxDoorbell (.core 0) (2 ^ 70) 31, .mbxDoorbell (.core 0) 0 (2 ^ 70), .doorbellNoticeVisible (.seat 64),
    .doorbellNoticeVisible (.core 8), .mbxLock [.seat 64] 63, .mbxLock [.core 0] (2 ^ 70), .mbxUnlock (.seat 64) 0 1].all (fun i => !i.wf) = true := by decide

/-- Each term breaks one check of WellFormed. -/
theorem test_refuses_SeatCmds1 :
  [Instr.mbxUnlock (.core 8) 0 1, .mbxUnlock (.core 7) (2 ^ 70) 1, .mbxUnlock (.core 7) 0 (2 ^ 70),
    .doorbellAged (2 ^ 70), .lockTimeout (2 ^ 70)].all (fun i => !i.wf) = true := by decide

/-- Each term breaks one check of WellFormed. -/
theorem test_refuses_MemoryCmds :
  [Instr.sramAccess 0 [{ req := 64, addr := 0, wdata := none }] [],
    .sramAccess 0 [{ req := 0, addr := 0, wdata := some (zeros 9) }] [],
    .sramAccess 0 [{ req := 0, addr := 0, wdata := some [] }] [], .sramAtomic 0 (2 ^ 70) (2 ^ 27 - 8) 8 .add 1 [],
    .sramAtomic 0 28 3 8 .add 1 [], .sramAtomic 0 28 (2 ^ 27 - 8) (2 ^ 70) .add 1 [],
    .partialWrite .dram (2 ^ 34 - 1) [] [], .bankRetention 1000 (2 ^ 70), .memClrCollide (2 ^ 70),
    .garbageCollect (2 ^ 70)].all (fun i => !i.wf) = true := by decide

/-- Each term breaks one check of WellFormed. -/
theorem test_refuses_CanvasCmds :
  [Instr.canvasStage (2 ^ 70), .partnerValidationReport (2 ^ 70), .canvasCtlConflict (2 ^ 70)].all (fun i => !i.wf) = true := by decide

/-- Each term breaks one check of WellFormed. -/
theorem test_refuses_CampaignCmds :
  [Instr.campCreate (2 ^ 70), .campStart (2 ^ 70) .sound, .campPause (2 ^ 70), .campResume (2 ^ 70),
    .campAbort (2 ^ 70), .campRelease (2 ^ 70), .campTxSlot (2 ^ 70) (zeros 8) 0 false .sound,
    .campTxSlot 0 [] 0 false .sound, .campResponse 0 (2 ^ 70) .done, .campAttemptTimeout 0 (2 ^ 70)].all (fun i => !i.wf) = true := by decide

/-- Each term breaks one check of WellFormed. -/
theorem test_refuses_VaultCmds :
  [Instr.vaultEnrol (2 ^ 70) .made, .vaultZeroise (2 ^ 70) 0xA55A, .vaultZeroise 0 (2 ^ 70), .vaultSubmit (2 ^ 70),
    .vaultChal (2 ^ 70), .vaultExport (2 ^ 70)].all (fun i => !i.wf) = true := by decide

/-- Each term breaks one check of WellFormed. -/
theorem test_refuses_CascadeCmds :
  [Instr.linkHello (.deal 4) { pos := 1, side := 0, idx := 1 }, .linkHello (.lane 2) { pos := 1, side := 0, idx := 1 },
    .linkDelayMeasure (.deal 4) 0, .linkDelayMeasure (.lane 2) 0, .dealFrameForward (2 ^ 70) [],
    .elect (2 ^ 70) 1 (zeros 8), .elect 39 (2 ^ 70) (zeros 8), .sync (2 ^ 70) (wFrame (zeros 38)) 0 0 0,
    .dirAnswer (2 ^ 70) none, .checkAnswer (2 ^ 70),
    .discover { ({ pos := 0, side := 0, plan := zeros 8, serial := 0, cfl := 0, pref := false, step := 0, jtick := 0 } : Discover) with side := 2 },
    .dealer { ({ pos := 1, side := 0, epoch := 1, tick := 0, plan := zeros 8 } : DealerMsg) with pos := 40 },
    .dealer { ({ pos := 1, side := 0, epoch := 1, tick := 0, plan := zeros 8 } : DealerMsg) with side := 2 },
    .check { ({ pos := 39, side := 1, plan := [], tickSel := 0, serial := 0, digest := [], same := false } : CheckMsg) with pos := 40 },
    .check { ({ pos := 39, side := 1, plan := [], tickSel := 0, serial := 0, digest := [], same := false } : CheckMsg) with side := 2 }].all (fun i => !i.wf) = true := by decide

/-- Each term breaks one check of WellFormed. -/
theorem test_refuses_BalanceCmds :
  [Instr.nodeEvaluate { seat := 2 ^ 70, cost := 0 }, .balRebase (2 ^ 70), .balResetTrack (2 ^ 70), .trackerOrderApply (2 ^ 70) 0].all (fun i => !i.wf) = true := by decide

/-- Each term breaks one check of WellFormed. -/
theorem test_refuses_PartnerCmds :
  [Instr.positionLost (2 ^ 70), .takeoverNotice (2 ^ 70) [],
    .health { ({ pos := 0, side := 0, epoch := 0, roleA := 0, roleB := 0, fault := 0, diverge := 0, tj := 0, spare := 0 } : HealthMsg) with pos := 40 },
    .health { ({ pos := 0, side := 0, epoch := 0, roleA := 0, roleB := 0, fault := 0, diverge := 0, tj := 0, spare := 0 } : HealthMsg) with side := 2 }].all (fun i => !i.wf) = true := by decide

/-- Each term breaks one check of WellFormed. -/
theorem test_refuses_UpdateCmds :
  [Instr.engineMicrocodeSwap (2 ^ 70)].all (fun i => !i.wf) = true := by decide

/-- Each term breaks one check of WellFormed. -/
theorem test_refuses_EventCmds :
  [Instr.evtFetch (2 ^ 70), .evtFetchDone (2 ^ 70) none, .characterLock (2 ^ 70), .blockLockLoss (.deal 4),
    .blockLockLoss (.lane 2), .dramPowerDown 1000 (2 ^ 70), .laneSleep (2 ^ 70) 0 true].all (fun i => !i.wf) = true := by decide

/-! ### Worked examples of the spec -/

/-- 07_ingest_seal_cipher.md, the seals of four 32-byte inputs. -/
theorem test_seals :
    sealOf (zeros 32) = 0x5EA19240 ∧ sealOf (List.replicate 32 0xFF) = 0xB6980FA9 ∧
    sealOf ((List.range 32).map fun i => BitVec.ofNat 8 i) = 0x92EDDDA4 ∧
    sealOf ((List.range 32).reverse.map fun i => BitVec.ofNat 8 i) = 0xC50F7FB6 := by decide +kernel

/-- R65: slot 412,907 is bit-reversed to 881,446, and closes 2,521 ticks after its boundary at the default span. -/
theorem test_sweep_offset : Canvas.bitrev20 412907 = 881446 ∧ 881446 * 3000 / 2 ^ 20 = 2521 := by decide +kernel

/-- 12_vault.md, a carry cut short: counter 9 before the carry, and after each of the steps that power can cut. -/
def cutBase : Counter :=
  { hi0 := { st := .good, value := 1 }, hi1 := { st := .good, value := 0 },
    lo0 := { st := .good, value := 0xFFFFFFF0, aux := 1 }, lo1 := { st := .good, value := 0xFFFFFFE8, aux := 1 } }

theorem test_carry_cut :
    cutBase.read = some 0x1FFFFFFF0 ∧
    ({ cutBase with hi1 := { st := .bad } } : Counter).read = some 0x1FFFFFFF0 ∧
    ({ cutBase with hi1 := { st := .good, value := 2, aux := 5, pend := true } } : Counter).recover.read = some 0x200000005 ∧
    ({ cutBase with hi1 := { st := .good, value := 2, aux := 5, pend := true }, lo1 := { st := .bad } } : Counter).recover.read =
      some 0x200000005 ∧
    ({ cutBase with
        hi0 := { st := .bad }, hi1 := { st := .good, value := 2, aux := 5, pend := true },
        lo1 := { st := .good, value := 5, aux := 2 } } : Counter).recover.read = some 0x200000005 ∧
    cutBase.advanceTo 0x200000005 =
      { hi0 := { st := .good, value := 2 }, hi1 := { st := .good, value := 2, aux := 5, pend := true },
        lo0 := cutBase.lo0, lo1 := { st := .good, value := 5, aux := 2 } } := by decide +kernel

/-- 13_seats_and_mailboxes.md, two seats contend: seat 5 (number 21) wins against seat 9 (number 25). -/
theorem test_lowest_requester :
    lowestAgent [.seat 9, .seat 5] = some (.seat 5) ∧ (Agent.seat 5).num = 21 ∧ (Agent.seat 9).num = 25 := by decide

/-- R74: a slew of 20,000,000 ns at 500 ppm takes 40 s. -/
theorem test_slew_takes_40_s :
    ({ start := 0, amount := 20000000, ppm := 500 } : Slew).done 40000000000 = 20000000 ∧
    ({ start := 0, amount := 20000000, ppm := 500 } : Slew).done 39999000000 < 20000000 := by decide

/-- 10_loss_and_theft.md, a jumper across one meter: the residuals before and after in basis points. -/
theorem test_jumper_residual : rbpOf 360 146000 = 24 ∧ rbpOf 6411 146000 = 439 := by decide

/-- R161: a late counter inside the window is taken once, an equal one never. -/
theorem test_replay :
    replayCheck 10 0 12 = some (12, 2) ∧ replayCheck 12 2 11 = some (12, 3) ∧ replayCheck 12 3 11 = none ∧
    replayCheck 12 3 12 = none := by decide

/-- R376: 3.3 kΩ is code 4, and three samples in different ranges make the strap bad. -/
theorem test_strap : strapOf [3300, 3310, 3290] = some 4 ∧ strapOf [3300, 3700, 3800] = none := by decide

/-- The table gives no row any bits, so no word spells a command. -/
theorem test_no_word (n w : Nat) : decodeTableWord n w = none := rfl

/-- Ringing a bit that is set already is counted in MERGED (R297). -/
theorem test_ring_merges :
    (((tUp.ringBit 3 7).ringBit 3 7).rd Reg.MBX_CNT.MERGED 3, ((tUp.ringBit 3 7).ringBit 3 7).rd Reg.MBX_PEND.PEND 3) =
      (1, 2 ^ 7) := by decide +kernel

/-- R280, the worked example of a carry cut short: counter 9 before the carry, what each point of the power loss leaves, and what
the next start reads. -/
def wCarry : Counter :=
  { hi0 := { st := .good, value := 1 }, hi1 := { st := .good, value := 0 }
    lo0 := { st := .good, value := 0xFFFFFFF0, aux := 1 }, lo1 := { st := .good, value := 0xFFFFFFE8, aux := 1 } }

def cutAt (k : Nat) (torn : Bool) : Option Nat :=
  let ps := wCarry.pulses 0x0000000200000005
  (((ps.take k ++ if torn then ((ps.drop k).take 1).map CellWrite.torn else []).foldl Counter.pulse wCarry).recover).read

theorem test_carry_cut_short :
    wCarry.read = some 0x00000001FFFFFFF0 ∧ cutAt 0 true = some 0x00000001FFFFFFF0 ∧ cutAt 1 false = some 0x0000000200000005 ∧
    cutAt 1 true = some 0x0000000200000005 ∧ cutAt 2 true = some 0x0000000200000005 ∧
    cutAt 3 false = some 0x0000000200000005 := by decide

/-! ### What the other statements assume can be met -/

/-- The state around a device. -/
def st (d : Dev) : State := { dev := d }

theorem witness_IllFormedCommandsAreRefused : ∃ c : Instr, c.wf = false := ⟨.portShort { port := 256, c := 0 }, by decide⟩

theorem witness_AddressesOutsideMemoryFault :
    ((Instr.sramAccess 0 [{ req := 0, addr := 2 ^ 27, wdata := none }] []).wf = true ∧ (2 : Nat) ^ 27 ≤ 2 ^ 27) ∧
    (Instr.sramAtomic 0 0 (2 ^ 27) 8 .add 1 []).wf = true ∧ (Instr.partialWrite .sram (2 ^ 27) [0] []).wf = true ∧
    (Instr.partialWrite .dram (2 ^ 34) [0] []).wf = true ∧ (∃ w : Nat, 2 ^ 24 ≤ w) ∧ ∃ w : Nat, 2 ^ 31 ≤ w :=
  ⟨⟨by decide, le_refl _⟩, by decide, by decide, by decide, ⟨2 ^ 24, le_refl _⟩, ⟨2 ^ 31, le_refl _⟩⟩

theorem witness_ResetState : ∃ off cp : Nat, off < 2 ^ 24 ∧ ¬ (cp = 0 ∧ 0x44 ≤ off ∧ off < 0x6C) := ⟨0x6C, 0, by decide⟩

theorem witness_StrapDecode :
    (∃ i r : Nat, i < 16 ∧ strapBounds.getD i 0 < r ∧ r < strapBounds.getD (i + 1) 0) ∧ (strapCode 849 = none) ∧
    strapCode 850 = some 0 ∧ strapCode 88000 = some 15 ∧ strapCode 88001 = none :=
  ⟨⟨15, 87999, by decide⟩, by decide⟩

theorem witness_ReplayWindow :
    (∃ rx ic : Nat, rx < ic) ∧ (∃ rx win ic : Nat, ic < rx ∧ rx - ic ≤ 16 ∧ bitOf win (rx - 1 - ic) = false) ∧
    (∃ rx ic : Nat, ic = rx) ∧ (∃ rx ic : Nat, 16 < rx - ic) ∧
    ∃ rx win ic : Nat, ic < rx ∧ bitOf win (rx - 1 - ic) = true :=
  ⟨⟨0, 1, by decide⟩, ⟨16, 0, 0, by decide⟩, ⟨0, 0, rfl⟩, ⟨17, 0, by decide⟩, ⟨1, 1, 0, by decide⟩⟩

/-- Each clause of R11: an aligned 64-bit access of the MSI-X table, written and read; a narrow access of each block. -/
theorem witness_MisalignedAccess :
    ((Instr.regAccessMisaligned 0 msixTable 8 (some 0)).wf = true ∧ (Instr.regAccessMisaligned 0 msixTable 8 none).wf = true ∧
      inMsix msixTable = true ∧ msixTable % 8 = 0) ∧
    ((Instr.regAccessMisaligned 0 1 4 none).wf = true ∧ ¬ (inMsix 1 = true ∧ 4 = 8 ∧ 1 % 8 = 0) ∧ ¬ (4 = 4 ∧ 1 % 4 = 0)) ∧
    ((Instr.regAccessMisaligned 0 (msixTable + 4) 8 none).wf = true ∧
      ¬ (inMsix (msixTable + 4) = true ∧ 8 = 8 ∧ (msixTable + 4) % 8 = 0) ∧ ¬ (8 = 4 ∧ (msixTable + 4) % 4 = 0)) ∧
    tUp.sys.phase = .up := by decide

theorem witness_MailboxLock :
    ((Instr.mbxLock [.core 0, .vault] 12).wf = true ∧ tUp.sys.phase = .up ∧ (∀ n, Agent.seat n ∈ [Agent.core 0, .vault] →
      (tUp.cfg.seatMbxs n).contains 12 = true) ∧ lowestAgent [.core 0, .vault] = some (.core 0)) ∧
    ((Instr.mbxUnlock (.core 0) 12 1).wf = true ∧ tUp.mbxOf (.core 0) 12 = some 12 ∧ bitOf 1 0 = true ∧
      ∃ i, (Agent.core 0) = .core i) ∧
    (tUp.mbxOf .vault 12 = some 12 ∧ tUp.rd Reg.MBX_LOCK.OWNER 12 ≠ Agent.vault.num ∧ tUp.receives .vault 12 = false ∧
      ∀ i, Agent.vault ≠ .core i) :=
  ⟨⟨by decide, rfl, fun n h => by simp at h, by decide⟩, ⟨by decide, by decide, by decide, 0, rfl⟩, by decide, by decide, by decide,
    fun _ h => by cases h⟩

/-- Each clause of R384, at its bounds: warned and not, at 115.0, 114.9, 110.0 and 109.9 °C. -/
theorem witness_ThermalWarning :
    tUp.sys.phase ≠ .off ∧ tUp.on Reg.THERM_STAT.WARN = false ∧
    (tUp.wr Reg.THERM_STAT.WARN 1).on Reg.THERM_STAT.WARN = true ∧ (tUp.wr Reg.THERM_STAT.WARN 1).sys.phase ≠ .off ∧
    [[1150, 0, 0, 0], [1149, 0, 0, 0], [1100, 0, 0, 0], [1099, 0, 0, 0]].map (fun l => (hottest l).1) = [1150, 1149, 1100, 1099] ∧
    (Instr.thermSample [1150, 0, 0, 0]).wf = true := by decide +kernel

theorem witness_RtcCapture :
    (tUp.sys.phase = .up ∧ tUp.on Reg.RTC_STAT.LOCKED = false ∧ tUp.on Reg.RTC_STAT.FROZEN = false) ∧
    (tR [(0x200D0, 2)]).on Reg.RTC_STAT.FROZEN = true ∧ (tR [(0x200D0, 2)]).on Reg.RTC_STAT.LOCKED = false ∧
    (Instr.rtcSecHiRead 0).wf = true ∧ (Instr.rtcSecHiRead 63).wf = true := by decide +kernel

theorem witness_OnlyMemoryCommandsTouchMemory :
    ∃ (c : Instr) (s s' : State), usesMemory c = false ∧ exec c s = .next s' := ⟨.evtInject, st {}, st {}, rfl, rfl⟩

/-- A device that quiesces with its RTC locked. -/
def wLocked : Dev := { sys := { phase := .quiesced }, regs := [(0x200D0, 4)] }

/-- Each clause: a command that does nothing, a write that the lock of the RTC meets, and an edge. -/
theorem witness_OutsideOperationNothingHappens :
    (∃ (c : Instr) (s s' : State), c.wf = true ∧ s.dev.sys.phase ≠ .up ∧ exec c s = .next s' ∧ actsAlways c = false ∧
      writesRtc c = false) ∧
    (∃ (c : Instr) (s s' : State), c.wf = true ∧ s.dev.sys.phase = .quiesced ∧ exec c s = .next s' ∧ actsAlways c = false ∧
      writesRtc c = true ∧ s.dev.on Reg.RTC_STAT.LOCKED = true) ∧
    ∃ (s s' : State), (Instr.edgeInput (.tamper 3) true false 0).wf = true ∧ s.dev.sys.phase ≠ .up ∧
      exec (.edgeInput (.tamper 3) true false 0) s = .next s' :=
  ⟨⟨.evtInject, State.reset, State.reset, rfl, by decide, rfl, rfl, rfl⟩,
    ⟨.rtcCapture 0, st wLocked, _, rfl, rfl, rfl, rfl, rfl, by decide⟩, State.reset, _, by decide, by decide, rfl⟩

theorem witness_QueueOnlyLosesItsFront :
    ∃ (c : Instr) (s s' : State), exec c s = .next s' ∧ step ⟨[c], s.arr, s.dev⟩ = .next s' :=
  ⟨.evtInject, State.reset, State.reset, rfl, rfl⟩

/-- A word of one field, two words, and two fields of one word. -/
theorem witness_RegisterReadsBack :
    Reg.THERM_STAT.WARN.lo ≤ Reg.THERM_STAT.WARN.hi ∧ Reg.THERM_STAT.WARN.hi < 32 ∧
    0 * 2 ^ 24 + (Reg.THERM_PEAK.PEAK.off + 0 * Reg.THERM_PEAK.PEAK.stride) ≠
      0 * 2 ^ 24 + (Reg.THERM_STAT.WARN.off + 0 * Reg.THERM_STAT.WARN.stride) ∧
    Reg.THERM_STAT.TJ.off + 0 * Reg.THERM_STAT.TJ.stride = Reg.THERM_STAT.WARN.off + 0 * Reg.THERM_STAT.WARN.stride ∧
    (Reg.THERM_STAT.TJ.hi < Reg.THERM_STAT.WARN.lo ∨ Reg.THERM_STAT.WARN.hi < Reg.THERM_STAT.TJ.lo) := by decide

/-- A row with a field of each access type but one, and a row with a reserved bit. -/
theorem witness_AccessTypes :
    (∀ x ∈ [Acc.rw, .ro, .wo, .w1c, .rc, .rws], (regRows.any fun r => r.fields.any fun f => f.acc == x) = true) ∧
    (regRows.any fun r => r.fields.all fun f => !decide (f.lo ≤ 31 ∧ 31 ≤ f.hi)) = true := by decide +kernel

theorem witness_HiddenWriteFrame :
    (0 < 64 ∧ 0xFFFF0 % 4 = 0 ∧ tUp.sys.phase = .up ∧ tUp.hasFunction 0 = true ∧ 0xFFFF0 < msixTable ∧
      (tUp.advance 0).spot 0 0xFFFF0 = .hidden) ∧
    ∃ (d : Dev) (n off : Nat) (r : RegRow) (i cp : Nat), n < 64 ∧ off % 4 = 0 ∧ d.sys.phase = .up ∧ d.hasFunction n = true ∧
      off < msixTable ∧ (d.advance 0).spot n off = .look r i cp ∧ writable r.fields = true :=
  ⟨by decide +kernel, tC (wSeats (zeros 128 ++ [3])) [], 1, 0x20028, (rowAt 0x20028).get (by decide +kernel), 0, 0, by decide +kernel⟩

theorem witness_PlainWriteFrame :
    ∃ (d : Dev) (n off c : Nat) (v : Word) (items : List Bytes) (r : RegRow) (i cp : Nat), n < 64 ∧ off % 4 = 0 ∧
      d.sys.phase = .up ∧ d.hasFunction n = true ∧ off < msixTable ∧ (d.advance c).spot n off = .reach r i cp ∧
      r.off ≠ Reg.MBX_DOORBELL.BIT.off ∧ r.off ≠ Reg.MBX_UNLOCK.REL.off ∧ (d.advance c).writeSys n r.off i v.toNat c = none ∧
      (d.advance c).writeWork n r.off i v.toNat = none ∧ (d.advance c).writeSeats n r.off i v.toNat c items = none ∧ r.view = .o :=
  ⟨tUp, 0, 0x30004, 0, 5, [], (rowAt 0x30004).get (by decide +kernel), 0, 0, by decide +kernel⟩

theorem witness_CorrectedTimeNeverSteps :
    (5 : Nat) < 2 ^ 32 ∧ tUp.sys.phase = .up ∧
    -(2 ^ 63) ≤ (tUp.advance 0).time.ofs + (tUp.advance 0).accrued (tUp.advance 0).time.cnt ∧
    (tUp.advance 0).time.ofs + (tUp.advance 0).accrued (tUp.advance 0).time.cnt < 2 ^ 63 := by decide +kernel

theorem witness_SealOpens : (zeros 16).length = 16 ∧ (zeros 12).length = 12 := by decide

theorem witness_SramAtomicFrame :
    ∃ (s s' : State), exec (.sramAtomic 0 28 0 8 .add 1 []) s = .next s' ∧ 8 ≤ (8 : Nat) := ⟨st {}, st {}, rfl, le_refl _⟩

theorem witness_AtomicReturnsOld :
    (Instr.sramAtomic 0 28 0 8 .add 1 []).wf = true ∧ 0 < 2 ^ 27 ∧ (st tUp).dev.sys.phase = .up ∧ AtomicOp.add ≠ .other ∧
    (st tUp).dev.groupOff (bankOf (0 / 8)) = false ∧ (st tUp).dev.groupFailed (bankOf (0 / 8)) = false ∧
    (st tUp).arr.sram.check (0 / 8) = .clean ∧ ({ ecc := [(0, .single)] } : MemArray).check 0 = .single := by decide +kernel

theorem witness_PartialWriteFrame :
    (∃ s s' : State, exec (.partialWrite .dram 0 [1] []) s = .next s') ∧ (Instr.partialWrite .sram 0 [1] []).wf = true ∧
    0 < 2 ^ 27 ∧ (st tUp).dev.sys.phase = .up ∧ (st tUp).dev.groupOff (bankOf (0 / 8)) = false ∧
    (st tUp).dev.groupFailed (bankOf (0 / 8)) = false ∧
    ({ ecc := [(0, .double), (1, .poison), (2, .single)] } : MemArray).check 0 = .double ∧
    ({ ecc := [(0, .double), (1, .poison), (2, .single)] } : MemArray).check 1 = .poison ∧
    (st (tR [(0x1A0004, 1)])).dev.sys.phase = .up ∧ (st (tR [(0x1A0004, 1)])).dev.groupOff (bankOf (0 / 8)) = true :=
  ⟨⟨st {}, st {}, rfl⟩, by decide⟩

theorem witness_SramAccessFrame :
    ∃ (reqs : List MemReq) (s s' : State) (x : Nat), exec (.sramAccess 0 reqs []) s = .next s' ∧ ∀ r ∈ reqs, ¬ storesTo r x :=
  ⟨[], st {}, st {}, 0, rfl, by simp⟩

theorem witness_AnEventEntersOneView :
    ∃ (S : Sticky) (view v o : Nat), v ≠ view ∧ v ≠ 0xFF ∧ quietOff o ∧ 0 * 2 ^ 24 + o ≠ 0 * 2 ^ 24 + (S.fld.off + 0 * S.fld.stride) :=
  ⟨Stk.GLB.ACCESS, 0xFF, 3, 0, by decide, by decide, .inl (by decide), by decide⟩

theorem witness_ReportFrame : ∃ s s' : State, exec .evtInject s = .next s' := ⟨st {}, st {}, rfl⟩

theorem witness_TimeFrame : ∃ s s' : State, exec (.ppsEdge 0) s = .next s' := ⟨st {}, st {}, rfl⟩

theorem witness_RingMerges :
    (Instr.mbxDoorbell (.core 0) 3 7).wf = true ∧ tUp.sys.phase = .up ∧ tUp.mbxOf (.core 0) 3 = some 3 ∧
    tUp.mayRing (.core 0) 3 (bitsOf 7 4 0) = true ∧ bitOf 7 5 = false ∧
    bitOf (tUp.rd Reg.MBX_PEND.PEND 3) (bitsOf 7 4 0) = false ∧
    bitOf ((tUp.ringBit 3 7).rd Reg.MBX_PEND.PEND 3) (bitsOf 7 4 0) = true := by decide +kernel

/-- A device whose seat 0 has four fences outstanding. -/
def wFences : Dev :=
  let f : Fence := { tag := 0, mark := false, notify := false, db := 0, cut := 0, tick := 0 }
  { tUp with seats := [(0, { fences := List.replicate 4 f })] }

theorem witness_FenceLimit :
    (Instr.ldgFence 0 5).wf = true ∧ tUp.sys.phase = .up ∧ (tUp.seat 0).fences.length < 4 ∧
    ¬ (bitOf 5 17 = true ∧ 28 ≤ bitsOf 5 22 18) ∧
    4 ≤ (wFences.seat 0).fences.length := by decide

theorem witness_StepKeepsMemoryCanonical : ∃ s s' : State, Memory.wf s.arr = true ∧ step s = .next s' :=
  ⟨State.reset, State.reset, by decide, rfl⟩

theorem witness_ReplayNeverTwice : acceptedCounters 10 0 [12, 11, 11, 12, 40, 39] = [12, 11, 40, 39] := by decide

/-! ### Every command can complete: what the statements assume can be met -/

theorem witness_PowerAndStartComplete :
  (∃ (d : Dev) (_away : Nat), d.sys.phase = .quiesced) ∧
  (∃ (d : Dev) (_away : Nat), d.sys.phase ≠ .quiesced) ∧
  (∃ (d : Dev) (start : StartIn), (Instr.deviceStart start).wf = true ∧ d.sys.phase = .inReset ∧ d.sys.cold = true ∧
    d.heldByBall = false) ∧
  (∃ (d : Dev), d.sys.phase = .up ∧ d.rd Reg.MEM_FTL_STAT.STATE = 1) ∧
  (∃ (d : Dev) (_bad : List (Nat × Nat)), d.sys.phase = .up ∧ d.rd Reg.MEM_FTL_STAT.STATE = 2) ∧
  (∃ (d : Dev) (bad : List (Nat × Nat)) (badKeys : List Nat) (same : Bool), (Instr.ledgerRestore bad badKeys same).wf = true ∧
    d.sys.phase = .up ∧ d.step = 6) ∧
  (∃ (d : Dev) (_c : Nat) (_clean : Bool), d.sys.phase ≠ .off) ∧
  (∃ (_d : Dev) (vin : Nat), (Instr.vinSurge vin).wf = true) ∧
  (∃ (_d : Dev) (vin : Nat), (Instr.vinLow vin).wf = true) :=
  ⟨⟨{ sys := { phase := .quiesced } }, 0, by decide⟩,
    ⟨tUp, 0, by decide⟩,
    ⟨{ regs := [(0x10, 1)], sys := { phase := .inReset } }, { strap := [0, 0, 0], strapRaw := 0, banks := [], noise := none, damage := [], away := 0 }, by decide, by decide, by decide, by decide⟩,
    ⟨tR [(0x1A0040, 1)], by decide, by decide⟩,
    ⟨tR [(0x1A0040, 2)], [], by decide, by decide⟩,
    ⟨tR [(0x1C0004, 0x30)], [], [], true, by decide, by decide, by decide⟩,
    ⟨tUp, 0, true, by decide⟩,
    ⟨tUp, 6001, by decide⟩,
    ⟨tUp, 449, by decide⟩⟩

theorem witness_ResetAndThermalComplete :
  (∃ (d : Dev), d.on Reg.GLB_RSTN.LEVEL = false ∧ d.sys.ballStuck = false) ∧
  (∃ (d : Dev), d.on Reg.GLB_RSTN.LEVEL = true) ∧
  (∃ (d : Dev) (_c : Nat), d.mandStuck = true) ∧
  (∃ (_d : Dev) (c : Nat) (v : Nat) (port : Bool), (Instr.debugReset c v port).wf = true ∧ (port = true ∨ bitsOf v 31 16 =
    0xDB61)) ∧
  (∃ (d : Dev) (_c : Nat), d.sys.phase = .quiesced) ∧
  (∃ (d : Dev), d.sys.phase = .inReset ∧ d.sys.cold = false ∧ d.heldByBall = false) ∧
  (∃ (d : Dev) (c : Nat) (source : Nat), (Instr.l3Reset c source).wf = true ∧ d.sys.phase = .up) ∧
  (∃ (_d : Dev) (temps : List Int), (Instr.thermSample temps).wf = true) ∧
  (∃ (d : Dev) (_c : Nat), 3 ≤ d.sys.hot ∧ d.sys.phase = .up) ∧
  (∃ (d : Dev), d.sys.thermal = true ∧ d.sys.phase = .off ∧ 100000 ≤ d.sys.cool) :=
  ⟨⟨tR [(0x10, 0)], by decide, by decide⟩,
    ⟨tR [(0x10, 3)], by decide⟩,
    ⟨{ tC (wSeat [3]) [(0x1C0004, 1)] with ldg := { spill := [(0, 0)] }, time := { tick := 3 } }, 0, by decide⟩,
    ⟨tUp, 0, 0xDB610001, false, by decide, by decide⟩,
    ⟨{ sys := { phase := .quiesced } }, 0, by decide⟩,
    ⟨{ regs := [(0x10, 1)], sys := { phase := .inReset, cold := false } }, by decide, by decide, by decide⟩,
    ⟨tUp, 0, 3, by decide, by decide⟩,
    ⟨tUp, [0, 0, 0, 0], by decide⟩,
    ⟨{ sys := { phase := .up, hot := 3 } }, 0, by decide, by decide⟩,
    ⟨{ sys := { phase := .off, thermal := true, cool := 100000 } }, by decide, by decide, by decide⟩⟩

theorem witness_RegisterAccessesComplete :
  (∃ (d : Dev) (off : Nat) (v : Word) (c : Nat) (items : List Bytes) (n : Nat), (Instr.regWrite (.seat n) off v c items).wf =
    true ∧ d.sys.phase = .up ∧ d.hasFunction n = true ∧ off < msixTable ∧ (d.advance c).spot n off = .hidden) ∧
  (∃ (d : Dev) (off : Nat) (v : Word) (c : Nat) (items : List Bytes) (n : Nat) (r : RegRow) (i cp : Nat), (Instr.regWrite
    (.seat n) off v c items).wf = true ∧ d.sys.phase = .up ∧ d.hasFunction n = true ∧ off < msixTable ∧ (d.advance c).spot n
    off = .reach r i cp) ∧
  (∃ (d : Dev) (n : Nat) (off : Nat) (len : Nat) (wdata : Option Nat), (Instr.regAccessMisaligned n off len wdata).wf = true ∧
    d.sys.phase = .up ∧ ¬ (inMsix off = true ∧ len = 8 ∧ off % 8 = 0) ∧ ¬ (len = 4 ∧ off % 4 = 0)) ∧
  (∃ (d : Dev) (off : Nat) (c : Nat) (n : Nat) (r : RegRow) (i cp : Nat), (Instr.readClear (.seat n) off c).wf = true ∧
    d.sys.phase = .up ∧ d.hasFunction n = true ∧ off < msixTable ∧ ((d.advance c).spot n off = .reach r i cp ∨ (d.advance
    c).spot n off = .look r i cp)) ∧
  (∃ (d : Dev) (n : Nat) (c : Nat), (Instr.timeNs32Read n c).wf = true ∧ d.sys.phase = .up) ∧
  (∃ (d : Dev) (n : Nat), (Instr.timeSecHiRead n).wf = true ∧ d.sys.phase = .up) ∧
  (∃ (d : Dev) (n : Nat) (c : Nat) (cnt : Bool), (Instr.tickLoRead n c cnt).wf = true ∧ d.sys.phase = .up) ∧
  (∃ (d : Dev) (n : Nat), (Instr.vaultCntLoRead n).wf = true ∧ d.sys.phase = .up) ∧
  (∃ (d : Dev) (n : Nat), (Instr.rtcSecHiRead n).wf = true ∧ d.sys.phase = .up) :=
  ⟨⟨tUp, 0xFFFF0, 0, 0, [], 0, by decide, by decide, by decide, by decide, by decide⟩,
    ⟨tUp, 0x10, 0, 0, [], 0, (rowAt 0x10).get (by decide), 0, 0, by decide, by decide, by decide, by decide, by decide⟩,
    ⟨tUp, 0, 2, 4, none, by decide, by decide, by decide, by decide⟩,
    ⟨tUp, 0x10, 0, 0, (rowAt 0x10).get (by decide), 0, 0, by decide, by decide, by decide, by decide, by decide⟩,
    ⟨tUp, 0, 0, by decide, by decide⟩,
    ⟨tUp, 0, by decide, by decide⟩,
    ⟨tUp, 0, 0, true, by decide, by decide⟩,
    ⟨tUp, 0, by decide, by decide⟩,
    ⟨tUp, 0, by decide, by decide⟩⟩

theorem witness_TicksComplete :
  (∃ (d : Dev) (_power : PowerIn), d.sys.phase = .up) ∧
  (∃ (d : Dev) (j : JTick) (js : List JTick), d.sys.phase = .up ∧ d.ftlReady = true ∧ d.ldg.jwait = j :: js) ∧
  (∃ (d : Dev) (n : Nat) (f : Fence) (fs : List Fence), (Instr.fenceComplete n).wf = true ∧ d.sys.phase = .up ∧ (d.seat
    n).fences = f :: fs ∧ 0 < (d.seat n).fencesDue) ∧
  (∃ (d : Dev) (n : Nat) (path : Nat) (m : MarkDue) (e : Dev) (count : Nat) (bs : Bytes), (Instr.uplinkFenceMarker n path).wf
    = true ∧ d.sys.phase = .up ∧ (d.seat n).marks.find? (fun m => m.paths.contains path) = some m ∧ d.isActive = true ∧
    (d.seat n).allSent m = true ∧ count = SMap.get (fun _ => 0) (d.seat n).since path ∧ bs = d.upHeader upFENCE 0 16 n (d.seat
    n).useq m.tick ++ fenceBody m.tag path count (SMap.get (fun _ => 0) (d.seat n).lastTag path) (SMap.get (fun _ => 0)
    (d.seat n).ords path == 0) ∧ d.onPath n path bs = some e) :=
  ⟨⟨tUp, { vin := 0, iin := 0, pin := 0, blocks := [], pkgLate := false }, by decide⟩,
    ⟨{ tR [(0x1A0040, 0)] with ldg := { jwait := [{}] } }, {}, [], by decide, by decide, by decide⟩,
    ⟨{ tUp with seats := [(0, { fences := [{ tag := 1, mark := true, notify := true, db := 0, cut := 0, tick := 0 }], fencesDue := 1 })], time := { tick := 2 } }, 0, { tag := 1, mark := true, notify := true, db := 0, cut := 0, tick := 0 }, [], by decide, by decide, by decide, by decide⟩,
    ⟨{ tR [(0x1C0004, 1)] with seats := [(0, { marks := [{ tag := 7, opening := 0, cut := 0, tick := 0, paths := [1] }] })] }, 0, 1, { tag := 7, opening := 0, cut := 0, tick := 0, paths := [1] }, _, _, _, by decide, by decide, by decide, by decide, by decide, rfl, rfl, rfl⟩⟩

theorem witness_TimeAdjustmentsComplete :
  (∃ (d : Dev) (c : Nat), d.sys.phase = .up ∧ (((d.advance c).endSlew).stepAmount).natAbs ≤ 1000000) ∧
  (∃ (d : Dev) (c : Nat), d.sys.phase = .up ∧ 1000000 < (((d.advance c).endSlew).stepAmount).natAbs) ∧
  (∃ (d : Dev) (amt : Int), d.sys.phase = .up ∧ d.time.stepPend = some amt ∧ d.time.stepTick < d.time.tick) ∧
  (∃ (d : Dev) (c : Nat) (ppm : Nat), (Instr.timeSlew c ppm).wf = true ∧ d.sys.phase = .up ∧ ((d.advance c).stepAmount).natAbs
    ≤ 2 ^ 31 ∧ 1 ≤ ppm ∧ ppm ≤ 1000) ∧
  (∃ (d : Dev) (c : Nat) (w : Slew), d.sys.phase = .up ∧ (d.advance c).time.slew = some w ∧ w.done (d.advance c).time.cnt =
    w.amount) ∧
  (∃ (d : Dev) (c : Nat) (src : Nat), (Instr.timeDiscipline c src).wf = true ∧ d.sys.phase = .up ∧ 2 ≤ src ∧ src ≤ 4) ∧
  (∃ (d : Dev) (c : Nat) (v : Nat), (Instr.timeRateWrite c v).wf = true ∧ d.sys.phase = .up) ∧
  (∃ (d : Dev), d.sys.phase = .up ∧ d.on Reg.TIME_STAT.VALID = true ∧ d.holdLimit < d.timeHold) ∧
  (∃ (d : Dev) (c : Nat), d.sys.phase = .up ∧ (d.advance c).on Reg.TIME_UTC_OFS.PEND = true ∧ Int.fdiv (d.advance
    c).time.leapFrom dayNs < Int.fdiv ((d.advance c).cU (d.advance c).time.cnt) dayNs) ∧
  (∃ (d : Dev) (_c : Nat), d.sys.phase = .up) ∧
  (∃ (d : Dev) (c : Nat), d.sys.phase = .up ∧ (d.advance c).on Reg.TIME_STAT.PPS_LOST = false ∧ (d.advance c).time.ppsAt +
    1500000000 ≤ (d.advance c).time.cnt) :=
  ⟨⟨tUp, 0, by decide, by decide⟩,
    ⟨tR [(Reg.TIME_STEP.AMOUNT.off, 2000000), (Reg.TIME_STEP.AMOUNT.off + 4, 0)], 0, by decide, by decide⟩,
    ⟨{ tUp with time := { stepPend := some 5, tick := 1 } }, 5, by decide, by decide, by decide⟩,
    ⟨tUp, 0, 1000, by decide, by decide, by decide, by decide, by decide⟩,
    ⟨{ tUp with time := { slew := some { start := 0, amount := 0, ppm := 1 } } }, 0, { start := 0, amount := 0, ppm := 1 }, by decide, by decide, by decide⟩,
    ⟨tUp, 0, 4, by decide, by decide, by decide, by decide⟩,
    ⟨tUp, 0, 0, by decide, by decide⟩,
    ⟨{ tR [(0x20038, 1)] with time := { cnt := 2 ^ 60 } }, by decide, by decide, by decide⟩,
    ⟨{ tR [(Reg.TIME_UTC_OFS.OFS.off, putBits 0 Reg.TIME_UTC_OFS.PEND.hi Reg.TIME_UTC_OFS.PEND.lo 1)] with time := { cnt := 2 ^ 48 } }, 0, by decide, by decide, by decide⟩,
    ⟨tUp, 0, by decide⟩,
    ⟨{ tR [(0x20038, 1)] with time := { cnt := 1500000000 } }, 0, by decide, by decide, by decide⟩⟩

theorem witness_TriggersAndClockComplete :
  (∃ (d : Dev) (i : Nat) (v : Nat), (Instr.trigArm i v).wf = true ∧ d.sys.phase = .up) ∧
  (∃ (d : Dev) (i : Nat) (v : Nat), (Instr.trigTickWrite i v).wf = true ∧ d.sys.phase = .up) ∧
  (∃ (d : Dev) (i : Nat) (T : Nat), (Instr.trigFire i).wf = true ∧ d.sys.phase = .up ∧ SMap.find d.time.trigT i = some T ∧ T ≤
    d.time.tick) ∧
  (∃ (d : Dev) (c : Nat), d.sys.phase = .up ∧ (d.advance c).on Reg.TIME_STAT.VALID = true ∧ 2 ≤ (d.advance c).rd
    Reg.TIME_STAT.SRC ∧ (d.advance c).rd Reg.TIME_STAT.SRC ≤ 4) ∧
  (∃ (d : Dev) (c : Nat), d.sys.phase = .up ∧ (d.advance c).on Reg.RTC_STAT.LOCKED = false ∧ (d.advance c).on
    Reg.RTC_STAT.FROZEN = false) ∧
  (∃ (d : Dev), d.sys.phase = .up ∧ d.on Reg.RTC_STAT.LOCKED = false) ∧
  (∃ (d : Dev) (c : Nat), d.sys.phase = .up ∧ (d.advance c).time.hourAt + 3600 * 1000000000 ≤ (d.advance c).time.cnt) :=
  ⟨⟨tUp, 0, 1, by decide, by decide⟩,
    ⟨tUp, 0, 1, by decide, by decide⟩,
    ⟨{ tUp with time := { trigT := [(0, 0)] } }, 0, 0, by decide, by decide, by decide, by decide⟩,
    ⟨tR [(0x20038, 5)], 0, by decide, by decide, by decide, by decide⟩,
    ⟨tR [(0x200D0, 0)], 0, by decide, by decide, by decide⟩,
    ⟨tR [(0x200D0, 0)], by decide, by decide⟩,
    ⟨{ tUp with time := { cnt := 3600000000000 } }, 0, by decide, by decide⟩⟩

theorem witness_FramePathComplete :
  (∃ (d : Dev) (p : Nat) (bytes : Bytes) (err : Bool) (f : Bytes) (fs : List Bytes), (Instr.frameIngest p bytes err).wf = true
    ∧ d.sys.phase = .up ∧ (d.mode p = Canvas.mPLC ∨ d.mode p = Canvas.mRADIO) ∧ d.isolated p = false ∧ f.length ≤
    d.cfg.maxFrame p ∧ (d.port p).rxq = f :: fs ∧ (d.startOfFrame p).fifoTakes p = true) ∧
  (∃ (d : Dev) (p : Nat) (bytes : Bytes) (err : Bool), (Instr.frameIngest p bytes err).wf = true ∧ d.sys.phase = .up ∧ (d.mode
    p = Canvas.mFIELDLINK ∨ d.mode p = Canvas.mSERIAL) ∧ d.isolated p = false ∧ d.rd Reg.FP_STAT.LINK p = 1) ∧
  (∃ (d : Dev) (t : Tier), (Instr.arbiterRound t).wf = true ∧ d.sys.phase = .up) ∧
  (∃ (d : Dev) (_how : FifoRead) (g : PoolGrant) (gs : List PoolGrant) (f : Frame) (fs : List Frame), d.sys.phase = .up ∧
    d.arb.toPool = g :: gs ∧ d.draining g.port = f :: fs) ∧
  (∃ (d : Dev) (p : Nat), (Instr.fifoPtrMismatch p).wf = true ∧ d.sys.phase = .up ∧ d.mode p ≠ Canvas.mOFF) ∧
  (∃ (d : Dev) (x : PortAt), (Instr.portShort x).wf = true ∧ d.sys.phase = .up ∧ (d.advance x.c).mode x.port ≠ Canvas.mOFF ∧
    (d.advance x.c).isolated x.port = false) ∧
  (∃ (d : Dev) (p : Nat), (Instr.portOpen p).wf = true ∧ d.sys.phase = .up ∧ (d.mode p = Canvas.mPLC ∨ d.mode p =
    Canvas.mFIELDLINK) ∧ d.isolated p = false) ∧
  (∃ (d : Dev) (p : Nat), (Instr.portOpen p).wf = true ∧ d.sys.phase = .up ∧ d.mode p = Canvas.mSERIAL ∧ d.isolated p = false) :=
  ⟨⟨{ tC (wPorts 1) [] with ports := [(0, { rxq := [[1]] })] }, 0, [], false, [1], [], by decide, by decide, by decide, by decide, by decide, by decide, by decide⟩,
    ⟨tC (wPorts 3) [(0x80008, 1)], 0, [], false, by decide, by decide, by decide, by decide, by decide⟩,
    ⟨tUp, .ingress, by decide, by decide⟩,
    ⟨{ tR [(0x80008, 1)] with arb := { toPool := [{ port := 0, bufs := [0] }] }, ports := [(0, { bank1 := [{ bytes := [1], chk := 0 }] })] }, .clean, { port := 0, bufs := [0] }, [], { bytes := [1], chk := 0 }, [], by decide, by decide, by decide⟩,
    ⟨tC (wPorts 1) [], 0, by decide, by decide, by decide⟩,
    ⟨tC (wPorts 1) [(0x80008, 1)], { port := 0, c := 0 }, by decide, by decide, by decide, by decide⟩,
    ⟨tC (wPorts 1) [(0x80008, 1)], 0, by decide, by decide, by decide, by decide⟩,
    ⟨tC (wPorts 4) [(0x80008, 1)], 0, by decide, by decide, by decide, by decide⟩⟩

theorem witness_PortFaultsAndEdgesComplete :
  (∃ (d : Dev) (p : Nat), (Instr.rxPairReversed p).wf = true ∧ d.sys.phase = .up ∧ (d.mode p = Canvas.mPLC ∨ d.mode p =
    Canvas.mFIELDLINK) ∧ d.isolated p = false) ∧
  (∃ (d : Dev) (p : Nat), (Instr.portRetry p).wf = true ∧ d.sys.phase = .up ∧ (d.port p).retryTick ≠ some d.time.tick ∧
    d.isolated p = true) ∧
  (∃ (d : Dev) (p : Nat), (Instr.portFlush p).wf = true ∧ d.sys.phase = .up) ∧
  (∃ (d : Dev) (p : Nat) (gigFull : Bool), (Instr.fieldlinkAutoneg p gigFull).wf = true ∧ d.sys.phase = .up ∧ d.mode p =
    Canvas.mFIELDLINK ∧ d.isolated p = false) ∧
  (∃ (d : Dev) (p : Nat) (c : Nat) (opcode : Nat) (quanta : Nat), (Instr.pauseRx p c opcode quanta).wf = true ∧ d.sys.phase =
    .up ∧ (d.advance c).mode p = Canvas.mFIELDLINK ∧ (d.advance c).isolated p = false) ∧
  (∃ (d : Dev) (p : Nat), (Instr.pauseRelease p).wf = true ∧ d.sys.phase = .up ∧ d.on Reg.FP_STAT.PAUSE_TX p = true ∧
    d.fifoTakes p = true ∧ d.on Reg.ING_STAT.HOLD = false) ∧
  (∃ (d : Dev) (e : EdgeIn) (level : Bool) (glitch : Bool) (c : Nat), (Instr.edgeInput e level glitch c).wf = true ∧
    d.sys.phase = .up ∧ glitch = false) ∧
  (∃ (d : Dev) (e : EdgeIn) (c : Nat), (Instr.edgeSettle e c).wf = true ∧ d.sys.phase = .up ∧ ((d.advance c).edge e).lastEdge
    + 1000000 ≤ c) ∧
  (∃ (d : Dev) (p : Nat) (c : Nat), (Instr.irqStuck p c).wf = true ∧ d.sys.phase = .up ∧ (d.advance c).isRadio p = true ∧
    (d.advance c).irqHeld p c = true ∧ (d.advance c).on Reg.FP_STAT.IRQ_POLL p = false) ∧
  (∃ (d : Dev) (p : Nat), (Instr.irqPoll p).wf = true ∧ d.sys.phase = .up ∧ d.on Reg.FP_STAT.IRQ_POLL p = true ∧ d.isRadio p =
    true ∧ d.granted = true) ∧
  (∃ (d : Dev) (p : Nat) (c : Nat), (Instr.irqUnstuck p c).wf = true ∧ d.sys.phase = .up ∧ ((d.advance c).edge (.irq p)).raw =
    false ∧ ((d.advance c).edge (.irq p)).lastEdge + 100000000 ≤ c) ∧
  (∃ (d : Dev) (v : Nat), (Instr.fpGrpRstWrite v).wf = true ∧ d.sys.phase = .up) :=
  ⟨⟨tC (wPorts 1) [(0x80008, 1)], 0, by decide, by decide, by decide, by decide⟩,
    ⟨tC (wPorts 1) [(0x80008, 3)], 0, by decide, by decide, by decide, by decide⟩,
    ⟨tUp, 255, by decide, by decide⟩,
    ⟨tC (wPorts 3) [(0x80008, 1)], 0, true, by decide, by decide, by decide, by decide⟩,
    ⟨tC (wPorts 3) [(0x80008, 1)], 0, 0, 1, 65535, by decide, by decide, by decide, by decide⟩,
    ⟨tC (wPorts 3) [(0x80008, 0x11), (0xE000C, 0)], 0, by decide, by decide, by decide, by decide, by decide⟩,
    ⟨tUp, .pps, true, false, 0, by decide, by decide, by decide⟩,
    ⟨tUp, .tamper 3, 1000000, by decide, by decide, by decide⟩,
    ⟨{ tC (wPorts 2) [(0x80008, 1)] with edges := [(16, { raw := true })], ports := [(0, { served := some 0 })] }, 0, 10000000, by decide, by decide, by decide, by decide, by decide⟩,
    ⟨tC (wPorts 2) [(0x80008, 0x21), (0xD0000, 1)], 0, by decide, by decide, by decide, by decide, by decide⟩,
    ⟨tUp, 0, 100000000, by decide, by decide, by decide, by decide⟩,
    ⟨tUp, 1, by decide, by decide⟩⟩

theorem witness_PowerLineComplete :
  (∃ (d : Dev) (p : Nat) (chars : Bytes) (marks : List (Nat × PlcMark)), (Instr.afeSampleBlock p chars marks).wf = true ∧
    d.sys.phase = .up ∧ d.isPlc p = true ∧ crcAfe (slice chars 0 131) = u chars 131 2 ∧ (d.plcSt p).seq = none) ∧
  (∃ (d : Dev) (p : Nat) (x : NextSymbols), (Instr.plcOverload p x).wf = true ∧ d.sys.phase = .up ∧ d.isPlc p = true ∧
    (d.plcSt p).overload = true ∧ d.on Reg.PLC_STAT.IN_FRAME p = true) ∧
  (∃ (d : Dev) (p : Nat) (chars : Bytes), (Instr.afeStatusBlock p chars).wf = true ∧ d.sys.phase = .up ∧ d.isPlc p = true ∧
    crcAfe (slice chars 0 7) = u chars 7 2) ∧
  (∃ (d : Dev) (p : Nat) (atAfe : Bool), (Instr.afeLockLoss p atAfe).wf = true ∧ d.sys.phase = .up ∧ d.isPlc p = true) ∧
  (∃ (d : Dev) (p : Nat) (sender : Nat) (frame : Bytes) (zc : Option (Nat × Nat)), (Instr.plcFrameRx p sender frame zc).wf =
    true ∧ d.sys.phase = .up ∧ d.isPlc p = true ∧ zc = none ∧ (d.count Reg.PLC_RXCNT.FRAMES 1 p).rxqRoom p frame.length =
    true) ∧
  (∃ (d : Dev) (p : Nat) (sender : Nat) (frame : Bytes) (zc : Option (Nat × Nat)) (start delay : Nat), (Instr.plcFrameRx p
    sender frame zc).wf = true ∧ d.sys.phase = .up ∧ d.isPlc p = true ∧ zc = some (start, delay) ∧ ((d.count
    Reg.PLC_RXCNT.FRAMES 1 p).neighbourPhase p sender start delay).rxqRoom p frame.length = true) ∧
  (∃ (d : Dev) (r : JoinReq), (Instr.plcJoinRequest r).wf = true ∧ d.sys.phase = .up ∧ d.isPlc r.port = true ∧ d.granted =
    true ∧ d.joinDeferred r.port = false) ∧
  (∃ (d : Dev) (c : Nat) (busy : Bool) (f : RailTx) (rest : List RailTx), d.sys.phase = .up ∧ (d.advance c).on
    Reg.RAIL_CFG.ENABLED = true ∧ d.rail.holdTo ≤ (d.advance c).time.cnt ∧ d.rail.waiting = none ∧ d.rail.queue = f :: rest ∧
    busy = false) ∧
  (∃ (d : Dev) (c : Nat) (bs : Bytes), d.sys.phase = .up ∧ (d.advance c).on Reg.RAIL_CFG.ENABLED = true ∧ bs.length = 16 + u
    bs 1 1 ∧ sealOf (slice bs 0 (12 + u bs 1 1)) = u bs (12 + u bs 1 1) 4 ∧ u bs 0 1 / 16 = 1) ∧
  (∃ (d : Dev) (f : RailTx), d.sys.phase = .up ∧ d.rail.waiting = some f) ∧
  (∃ (d : Dev) (_t : Nat) (_above : Option Nat), d.sys.phase = .up) ∧
  (∃ (d : Dev) (_level : Int), d.sys.phase = .up ∧ d.on Reg.RAIL_CFG.ENABLED = true) :=
  ⟨⟨tC (wPorts 1) [(0x80008, 1)], 0, zeros 131 ++ leBytes 2 (crcAfe (zeros 131)), [], by decide +kernel, by decide, by decide, by decide +kernel, by decide⟩,
    ⟨{ tC (wPorts 1) [(0x80008, 1), (0xA0004, 0x80)] with plc := [(0, { overload := true })] }, 0, { first := 0, second := 1 }, by decide, by decide, by decide, by decide, by decide⟩,
    ⟨tC (wPorts 1) [(0x80008, 1)], 0, zeros 7 ++ leBytes 2 (crcAfe (zeros 7)), by decide, by decide, by decide, by decide +kernel⟩,
    ⟨tC (wPorts 1) [(0x80008, 1)], 0, false, by decide, by decide, by decide⟩,
    ⟨tC (wPorts 1) [(0x80008, 1)], 0, 0, [1], none, by decide, by decide, by decide, by decide, by decide⟩,
    ⟨tC (wPorts 1) [(0x80008, 1)], 0, 0, [1], some (0, 0), 0, 0, by decide, by decide, by decide, by decide, by decide⟩,
    ⟨tC wJoin [(0x80008, 1), (0xD0000, 1)], { port := 0, eui := 0 }, by decide, by decide, by decide, by decide, by decide⟩,
    ⟨{ tR [(0xB0000, 0x100)] with rail := { queue := [{ bytes := [], ackReq := false }] } }, 0, false, { bytes := [], ackReq := false }, [], by decide, by decide, by decide, by decide, by decide, by decide⟩,
    ⟨tR [(0xB0000, 0x100)], 0, wRail, by decide, by decide, by decide, by decide +kernel, by decide⟩,
    ⟨{ tUp with rail := { waiting := some { bytes := [], ackReq := true } } }, { bytes := [], ackReq := true }, by decide, by decide⟩,
    ⟨tUp, 0, some 0, by decide⟩,
    ⟨tR [(0xB0000, 0x100)], 0, by decide, by decide⟩⟩

theorem witness_RadioAndGrantComplete :
  (∃ (d : Dev) (p : Nat), (Instr.beacon p).wf = true ∧ d.sys.phase = .up ∧ d.isRadio p = true ∧ (d.beaconAt p (d.rad
    p).k).toNat < d.nextB) ∧
  (∃ (d : Dev) (p : Nat) (c : Nat) (f : RadioFrame) (fcsOk : Bool) (endSet : Bool) (late : Bool), (Instr.radioFrameRx p c f
    fcsOk endSet late).wf = true ∧ d.sys.phase = .up ∧ d.isRadio p = true ∧ d.granted = true ∧ endSet = true ∧ fcsOk = true ∧
    f.secured = false ∧ f.toUs = true) ∧
  (∃ (d : Dev) (p : Nat) (c : Nat) (f : RadioFrame) (fcsOk : Bool) (endSet : Bool) (late : Bool), (Instr.dataRequest p c f
    fcsOk endSet late).wf = true ∧ d.sys.phase = .up ∧ d.isRadio p = true ∧ d.granted = true ∧ endSet = true ∧ fcsOk = true ∧
    f.secured = false ∧ f.toUs = true) ∧
  (∃ (d : Dev) (p : Nat) (fails : Nat) (f : Indirect), (Instr.indirectTx p fails).wf = true ∧ d.sys.phase = .up ∧ d.isRadio p
    = true ∧ d.granted = true ∧ d.indirectHead p = some f) ∧
  (∃ (d : Dev) (p : Nat), (Instr.indirectExpire p).wf = true ∧ d.sys.phase = .up ∧ d.isRadio p = true) ∧
  (∃ (d : Dev) (p : Nat) (r : AssocReq), (Instr.associationRequest p r).wf = true ∧ d.sys.phase = .up ∧ d.isRadio p = true ∧
    d.granted = true ∧ r.endSet = true ∧ r.fcsOk = true ∧ r.frame.secured = false ∧ r.frame.toUs = true) ∧
  (∃ (d : Dev) (p : Nat) (r : GtsReqs), (Instr.gtsRequest p r).wf = true ∧ d.sys.phase = .up ∧ d.isRadio p = true ∧ d.granted
    = true ∧ r.endSet = true ∧ r.fcsOk = true) ∧
  (∃ (d : Dev) (c : Nat), d.sys.phase = .up ∧ (d.advance c).mayGrant = true) ∧
  (∃ (d : Dev) (_c : Nat), d.sys.phase = .up) ∧
  (∃ (d : Dev) (_c : Nat), d.sys.phase = .up) ∧
  (∃ (d : Dev) (p : Nat) (t0 : Nat) (dup : Bool) (f : ShadowPsdu), (Instr.partnerPsdu p t0 dup f).wf = true ∧ d.sys.phase =
    .up ∧ d.isRadio p = true ∧ d.granted = false) :=
  ⟨⟨tC (wPorts 2) [(0x80008, 1)], 0, by decide, by decide, by decide, by decide⟩,
    ⟨tC (wPorts 2) [(0x80008, 1), (0xD0000, 1)], 0, 0, wRadio, true, true, false, by decide, by decide, by decide, by decide, by decide, by decide, by decide, by decide⟩,
    ⟨tC (wPorts 2) [(0x80008, 1), (0xD0000, 1)], 0, 0, wRadio, true, true, false, by decide, by decide, by decide, by decide, by decide, by decide, by decide, by decide⟩,
    ⟨{ tC (wPorts 2) [(0x80008, 1), (0xD0000, 1)] with radio := [(0, { polled := [1], indirect := [{ dst := 1, bytes := [], from_ := .other }] })] }, 0, 0, { dst := 1, bytes := [], from_ := .other }, by decide, by decide, by decide, by decide, by decide⟩,
    ⟨tC (wPorts 2) [(0x80008, 1)], 0, by decide, by decide, by decide⟩,
    ⟨tC (wPorts 2) [(0x80008, 1), (0xD0000, 1)], 0, wAssoc, by decide, by decide, by decide, by decide, by decide, by decide, by decide, by decide⟩,
    ⟨tC (wPorts 2) [(0x80008, 1), (0xD0000, 1)], 0, wGts 1, by decide, by decide, by decide, by decide, by decide, by decide⟩,
    ⟨{ tC (wPorts 2) [(0xD0000, 0), (0x1C0004, 1)] with time := { cnt := 10000000 } }, 0, by decide, by decide⟩,
    ⟨tUp, 0, by decide⟩,
    ⟨tUp, 0, by decide⟩,
    ⟨tC (wPorts 2) [(0x80008, 1), (0xD0000, 0)], 0, 0, false, { frame := wRadio, kind := .data }, by decide, by decide, by decide, by decide⟩⟩

theorem witness_IngestComplete :
  (∃ (d : Dev) (g : Fragment) (f : PoolFrame), d.sys.phase = .up ∧ d.pool.frames[g.frame]? = some f) ∧
  (∃ (d : Dev), d.sys.phase = .up) ∧
  (∃ (d : Dev) (_is : List Nat), d.sys.phase = .up) ∧
  (∃ (d : Dev) (slot : Nat) (port : Nat) (sys : Bytes) (pt : Bytes) (bs : Bytes), (Instr.cipherEncrypt slot port sys pt).wf =
    true ∧ d.sys.phase = .up ∧ (d.cipherTo slot sys pt).2 = some bs) :=
  ⟨⟨{ tUp with pool := { frames := [{ port := 0, bytes := [], chk := 0, bufs := [] }] } }, { frame := 0, src := 0, tag := 0, off := 0, len := 0, pos := 0, total := none }, { port := 0, bytes := [], chk := 0, bufs := [] }, by decide, by decide⟩,
    ⟨tUp, by decide⟩,
    ⟨tUp, [1, 0], by decide⟩,
    ⟨wKeys, 0, 0, zeros 8, [], (wKeys.cipherTo 0 (zeros 8) []).2.get (by decide +kernel), by decide, by decide, (Option.some_get _).symm⟩⟩

theorem witness_LedgersComplete :
  (∃ (d : Dev) (_its : List DlmsItem) (_push : Bool) (_asRead : Option Bytes) (p : Plain), d.sys.phase = .up ∧ d.step = 0 ∧
    d.stalledLanes < 8 ∧ d.pool.plains.find? (fun p => !(d.pool.parked.any fun k => k.stalled && k.plain.slot == p.slot)) =
    some p) ∧
  (∃ (d : Dev) (e : Nat), (Instr.apduUnpark e).wf = true ∧ d.sys.phase = .up ∧ d.step = 0 ∧ (d.eng e).stopped = false) ∧
  (∃ (d : Dev) (e : Nat) (cost : Nat) (bad : List Nat) (asRead : Option Bytes) (q : QItem) (d1 : Dev) (rb : Bytes) (chk :
    Nat), (Instr.applyRecord e cost bad asRead).wf = true ∧ d.sys.phase = .up ∧ d.step = 0 ∧ d.mayDispatch e 2000 = true ∧
    d.catchSlots e = [] ∧ cost ≤ 2000 ∧ d.nextItem e = some (q, d1) ∧ q.work = .record rb chk) ∧
  (∃ (d : Dev) (slot : Nat) (cost : Nat) (b : Bound), (Instr.sweepClose slot cost).wf = true ∧ d.sys.phase = .up ∧ d.step = 0
    ∧ d.isActive = true ∧ (d.ledger slot).catching = false ∧ cost ≤ 4000 ∧ (d.eng (d.engOf slot)).used + cost ≤ d.budget ∧
    d.lateWork = false ∧ d.dueBound slot = some b) ∧
  (∃ (d : Dev) (slot : Nat) (cost : Nat) (b : Bound), (Instr.sweepClose slot cost).wf = true ∧ d.sys.phase = .up ∧ d.step = 0
    ∧ d.isActive = true ∧ (d.ledger slot).catching = false ∧ cost ≤ 4000 ∧ (d.eng (d.engOf slot)).used + cost ≤ d.budget ∧
    (d.ldg.spill.any fun s => s.1 == slot) = true ∧ d.dueBound slot = some b) ∧
  (∃ (d : Dev) (e : Nat) (cost : Nat) (slot : Nat) (b : Bound), (Instr.catchupClose e cost).wf = true ∧ d.sys.phase = .up ∧
    d.step = 0 ∧ d.isActive = true ∧ d.mayDispatch e 4000 = true ∧ cost ≤ 4000 ∧ (d.catchSlots e).head? = some slot ∧
    d.dueBound slot = some b) ∧
  (∃ (d : Dev) (slot : Nat) (partner : Option Machine.Ledger), (Instr.slotRepairDone slot partner).wf = true ∧ d.sys.phase =
    .up ∧ d.step = 0 ∧ (d.ledger slot).st = 2) ∧
  (∃ (d : Dev) (slot : Nat), (Instr.slotRepairTimeout slot).wf = true ∧ d.sys.phase = .up ∧ d.step = 0 ∧ (d.ledger slot).st =
    2 ∧ (d.ledger slot).repairAt + 100 ≤ d.time.tick) ∧
  (∃ (d : Dev), d.sys.phase = .up ∧ d.step = 0 ∧ (d.ledger (d.rd Reg.LDG_SLOT_SEL.SLOT)).st = 3) ∧
  (∃ (d : Dev) (cost : Nat) (_cmp : Machine.ShadowCmp) (x : ShadowItem) (xs : List ShadowItem), d.sys.phase = .up ∧ d.step = 0
    ∧ d.ldg.shadowUsed + cost ≤ d.budget ∧ d.on Reg.LDG_SHADOW.EN = true ∧ d.ldg.shadowStopped = false ∧ d.ldg.shadowLast = x
    :: xs) ∧
  (∃ (d : Dev) (slot : Nat) (k : Correction), (Instr.shadowCorrectionInstall slot).wf = true ∧ d.sys.phase = .up ∧ d.step = 0
    ∧ d.ldg.corr.find? (·.slot == slot) = some k ∧ k.tick < d.time.tick) ∧
  (∃ (d : Dev) (n : Nat) (v : Nat), (Instr.ldgFence n v).wf = true ∧ d.sys.phase = .up ∧ (d.seat n).fences.length < 4 ∧ (bitOf
    v 17 = false ∨ bitsOf v 22 18 < 28)) ∧
  (∃ (d : Dev) (n : Nat) (x y : Nat), (Instr.ldgRerateGo n).wf = true ∧ d.sys.phase = .up ∧ d.on Reg.TIME_STAT.VALID = true ∧
    d.on Reg.LDG_RERATE_CTL.BUSY 0 n = false ∧ d.rd Reg.LDG_RERATE_FIRST.SLOT 0 n = x ∧ d.rd Reg.LDG_RERATE_LAST.SLOT 0 n = y
    ∧ x ≤ y ∧ y < x + 65536 ∧ d.cfg.seatOfSlot x = some n ∧ d.cfg.seatOfSlot y = some n) ∧
  (∃ (d : Dev) (e : Nat) (cost : Nat) (q : QItem) (d1 : Dev) (go : Nat), (Instr.rerateOrderApply e cost).wf = true ∧
    d.sys.phase = .up ∧ d.step = 0 ∧ d.mayDispatch e 2000 = true ∧ d.catchSlots e = [] ∧ cost ≤ 2000 ∧ d.nextItem e = some (q,
    d1) ∧ q.work = .rerate go) ∧
  (∃ (d : Dev) (n : Nat) (slot : Nat), (Instr.billingCloseAction n slot).wf = true ∧ d.sys.phase = .up ∧ d.on
    Reg.TIME_STAT.VALID = true) ∧
  (∃ (d : Dev) (e : Nat) (cost : Nat) (q : QItem) (d1 : Dev), (Instr.billingOrderApply e cost).wf = true ∧ d.sys.phase = .up ∧
    d.step = 0 ∧ d.mayDispatch e 2000 = true ∧ d.catchSlots e = [] ∧ cost ≤ 2000 ∧ d.nextItem e = some (q, d1) ∧ q.work =
    .billing) ∧
  (∃ (d : Dev) (n : Nat) (r : Readout) (rs : List Readout), (Instr.readoutRequest n).wf = true ∧ d.sys.phase = .up ∧ d.rd
    Reg.SEAT_STAT.STATE n = 1 ∧ (d.seat n).readouts = r :: rs) :=
  ⟨⟨{ tR [(0x1C0004, 1)] with pool := { plains := [wPlain] } }, [], false, none, wPlain, by decide, by decide, by decide, by decide⟩,
    ⟨tR [(0x1C0004, 0)], 0, by decide, by decide, by decide, by decide⟩,
    ⟨wEng (.record [] 0), 0, 0, [], none, wItem (.record [] 0), _, [], 0, by decide, by decide, by decide, by decide, by decide, by decide, rfl, by decide⟩,
    ⟨wClose {}, 0, 0, wBound, by decide, by decide, by decide, by decide, by decide, by decide, by decide, by decide, by decide⟩,
    ⟨wClose { spill := [(0, 0)] }, 0, 0, wBound, by decide, by decide, by decide, by decide, by decide, by decide, by decide, by decide, by decide⟩,
    ⟨wClose { ledgers := [(0, { catching := true })] }, 0, 0, 0, wBound, by decide, by decide, by decide, by decide, by decide, by decide, by decide, by decide⟩,
    ⟨{ tR [(0x1C0004, 1)] with ldg := { ledgers := [(0, { st := 2 })] } }, 0, none, by decide, by decide, by decide, by decide⟩,
    ⟨{ tR [(0x1C0004, 1)] with ldg := { ledgers := [(0, { st := 2 })] }, time := { tick := 100 } }, 0, by decide, by decide, by decide, by decide, by decide⟩,
    ⟨{ tR [(Reg.LDG_SLOT_SEL.SLOT.off, 0), (0x1C0004, 1)] with ldg := { ledgers := [(0, { st := 3 })] } }, by decide, by decide, by decide⟩,
    ⟨{ tR [(0x100008, 1), (0x1C0004, 1)] with ldg := { shadowLast := [{ engine := 0, item := wItem .rebase, pre := {} }] } }, 0, .equal, { engine := 0, item := wItem .rebase, pre := {} }, [], by decide, by decide, by decide, by decide, by decide, by decide⟩,
    ⟨{ tR [(0x1C0004, 1)] with ldg := { corr := [{ engine := 0, slot := 0, tick := 0, pre := {}, work := [] }] }, time := { tick := 1 } }, 0, { engine := 0, slot := 0, tick := 0, pre := {}, work := [] }, by decide, by decide, by decide, by decide, by decide⟩,
    ⟨tUp, 63, 0x30001, by decide, by decide, by decide, by decide⟩,
    ⟨tC (wSeat [3]) [(0x20038, 1), (Reg.LDG_RERATE_FIRST.SLOT.off, 0), (Reg.LDG_RERATE_LAST.SLOT.off, 0), (Reg.LDG_RERATE_CTL.BUSY.off, 0)], 0, 0, 0, by decide, by decide, by decide, by decide, by decide, by decide, by decide, by decide, by decide, by decide⟩,
    ⟨wEng (.rerate 1), 0, 0, wItem (.rerate 1), _, 1, by decide, by decide, by decide, by decide, by decide, by decide, rfl, by decide⟩,
    ⟨tR [(0x20038, 1)], 0, 0, by decide, by decide, by decide⟩,
    ⟨wEng .billing, 0, 0, wItem .billing, _, by decide, by decide, by decide, by decide, by decide, by decide, rfl, by decide⟩,
    ⟨{ tR [(0x180008, 1)] with seats := [(0, { readouts := [{ path := 2, sl := 0, tag := 0, apdu := [0xC0, 1] }] })] }, 0, { path := 2, sl := 0, tag := 0, apdu := [0xC0, 1] }, [], by decide, by decide, by decide, by decide⟩⟩

theorem witness_UplinksAndDirectoryComplete :
  (∃ (d : Dev) (w : UpSend) (n path : Nat) (sak : Bool), (Instr.uplinkSend w).wf = true ∧ d.sys.phase = .up ∧ w = .records n
    path sak ∧ d.isActive = true ∧ (d.cfg.seatPaths n).contains path = true ∧ d.rd Reg.SEAT_STAT.STATE n = 1 ∧ (path = 2 ∨
    d.cfg.seatCak n = 0 ∨ sak = true)) ∧
  (∃ (d : Dev) (w : UpSend) (uu : Nat) (frame : Bytes) (c : Nat) (d1 : Dev) (bs : List Nat), (Instr.uplinkSend w).wf = true ∧
    d.sys.phase = .up ∧ w = .house uu frame c ∧ d.poolAsk .house 0 (bufsOf frame.length) = (d1, some bs) ∧ ptpEvent frame =
    none) ∧
  (∃ (d : Dev) (w : UpSend) (uu : Nat) (frame : Bytes) (c : Nat) (d1 : Dev) (m : Bytes) (l : List Nat), (Instr.uplinkSend
    w).wf = true ∧ d.sys.phase = .up ∧ w = .house uu frame c ∧ d.poolAsk .house 0 (bufsOf frame.length) = (d1, some l) ∧
    ptpEvent frame = some m) ∧
  (∃ (d : Dev) (n : Nat) (tag : Nat) (path : Nat) (m : Marker), (Instr.uplAck n tag path).wf = true ∧ d.sys.phase = .up ∧
    (d.seat n).marker tag path = some m) ∧
  (∃ (d : Dev) (n : Nat) (tag : Nat) (path : Nat) (m : Marker), (Instr.uplRetx n tag path).wf = true ∧ d.sys.phase = .up ∧
    d.on Reg.UPL_STAT.RETX_BUSY 0 n = false ∧ path ≠ 3 ∧ (d.seat n).marker tag path = some m) ∧
  (∃ (d : Dev) (n : Nat) (r : Retx), (Instr.uplRetxDone n).wf = true ∧ d.sys.phase = .up ∧ (d.seat n).retx = some r) ∧
  (∃ (d : Dev) (uplink : Nat) (c : Nat) (frame : Bytes) (mac : Option Bytes), (Instr.uplinkFrameRx uplink c frame mac).wf =
    true ∧ d.sys.phase = .up ∧ ofBe (slice frame 12 2) ≠ etVlan) ∧
  (∃ (d : Dev) (uplink : Nat) (c : Nat) (frame : Bytes) (mac : Option Bytes) (n : Nat), (Instr.uplinkFrameRx uplink c frame
    mac).wf = true ∧ d.sys.phase = .up ∧ ofBe (slice frame 12 2) = etVlan ∧ (d.advance c).cfg.seatOfVid (vidOf frame) = some n
    ∧ (d.advance c).cfg.seatCak n = 0) ∧
  (∃ (d : Dev) (uplink : Nat) (c : Nat) (frame : Bytes) (mac : Option Bytes) (n : Nat) (b : Bytes), (Instr.uplinkFrameRx
    uplink c frame mac).wf = true ∧ d.sys.phase = .up ∧ ofBe (slice frame 12 2) = etVlan ∧ (d.advance c).cfg.seatOfVid (vidOf
    frame) = some n ∧ (d.advance c).cfg.seatCak n ≠ 0 ∧ mac = some b) ∧
  (∃ (d : Dev) (n : Nat) (c : Nat) (r : DgramReq) (rest : List DgramReq), (Instr.regAccessDatagram n c).wf = true ∧
    d.sys.phase = .up ∧ (d.seat n).dgramWait = r :: rest ∧ ((d.onSeat n fun s => { s with dgramWait := rest }).seat
    n).dgramLast = none) ∧
  (∃ (d : Dev) (n : Nat) (r : Nat) (v : Nat) (items : List Bytes), (Instr.ringHostPtrWrite n r v items).wf = true ∧
    d.sys.phase = .up) ∧
  (∃ (d : Dev) (n : Nat), (Instr.adirInsert n).wf = true ∧ d.sys.phase = .up ∧ d.cfg.seatOfSlot (d.rd Reg.ADIR_ARG.SLOT 0 n) =
    some n ∧ d.pool.adirSoon (d.adirKeyOf n) = none ∧ d.pool.adirSize < adirCap) ∧
  (∃ (d : Dev) (n : Nat) (e : AdirEnt), (Instr.adirInsert n).wf = true ∧ d.sys.phase = .up ∧ d.cfg.seatOfSlot (d.rd
    Reg.ADIR_ARG.SLOT 0 n) = some n ∧ d.pool.adirSoon (d.adirKeyOf n) = some e ∧ e.seat = n) ∧
  (∃ (d : Dev) (n : Nat) (e : AdirEnt), (Instr.adirDelete n).wf = true ∧ d.sys.phase = .up ∧ d.pool.adirSoon (d.adirKeyOf n) =
    some e ∧ e.seat = n) ∧
  (∃ (d : Dev) (n : Nat) (e : AdirEnt), (Instr.adirLookup n).wf = true ∧ d.sys.phase = .up ∧ SMap.find d.pool.adir
    (d.adirKeyOf n) = some e ∧ e.seat = n) :=
  ⟨⟨tC (wSeat [3]) [(0x180008, 1), (0x1C0004, 1)], .records 0 2 false, 0, 2, false, by decide, by decide, by decide, by decide, by decide, by decide, by decide⟩,
    ⟨tUp, .house 1 [1] 0, 1, [1], 0, _, _, by decide, by decide, rfl, rfl, by decide⟩,
    ⟨tUp, .house 1 wPtp 0, 1, wPtp, 0, _, _, _, by decide, by decide, rfl, rfl, rfl⟩,
    ⟨wMark, 0, 7, 1, { tag := 7, path := 1, count := 0, ord := 0, bytes := [] }, by decide, by decide, by decide⟩,
    ⟨wMark, 0, 7, 1, { tag := 7, path := 1, count := 0, ord := 0, bytes := [] }, by decide, by decide, by decide, by decide, by decide⟩,
    ⟨{ tUp with seats := [(0, { retx := some { tag := 1, path := 0, span := [] } })] }, 0, { tag := 1, path := 0, span := [] }, by decide, by decide, by decide⟩,
    ⟨tUp, 0, 0, zeros 14, none, by decide, by decide, by decide⟩,
    ⟨tC (wSeat [5]) [], 0, 0, zeros 12 ++ [0x81, 0, 0, 0], none, 0, by decide, by decide, by decide, by decide, by decide⟩,
    ⟨tC (wSeat ([5] ++ zeros 109 ++ [1])) [], 0, 0, zeros 12 ++ [0x81, 0, 0, 0], some [], 0, [], by decide, by decide, by decide, by decide +kernel, by decide +kernel, by decide⟩,
    ⟨{ tUp with seats := [(0, { dgramWait := [{ path := 0, port := 0, bytes := [] }] })] }, 0, 0, { path := 0, port := 0, bytes := [] }, [], by decide, by decide, by decide, by decide⟩,
    ⟨tUp, 0, 1, 0, [], by decide, by decide⟩,
    ⟨tC (wSeat [3]) [(0x181010, 0), (0x181014, 0), (0x181018, 0), (0x18101C, 0), (0x181020, 0)], 0, by decide, by decide, by decide, by decide, by decide⟩,
    ⟨wAdir, 0, { slot := 0, seat := 0, n := 0 }, by decide, by decide, by decide, by decide, by decide⟩,
    ⟨wAdir, 0, { slot := 0, seat := 0, n := 0 }, by decide, by decide, by decide, by decide⟩,
    ⟨wAdir, 0, { slot := 0, seat := 0, n := 0 }, by decide, by decide, by decide, by decide⟩⟩

theorem witness_SeatsAndMailboxesComplete :
  (∃ (d : Dev) (n : Nat), (Instr.vfFlr n).wf = true ∧ d.sys.phase = .up ∧ d.rd Reg.SEAT_STAT.STATE n = 1) ∧
  (∃ (d : Dev), d.sys.phase = .up) ∧
  (∃ (d : Dev) (n : Nat), (Instr.seatL4 n).wf = true ∧ d.sys.phase = .up ∧ d.rd Reg.SEAT_STAT.STATE n = 1) ∧
  (∃ (d : Dev) (n : Nat), (Instr.seatReopen n).wf = true ∧ d.sys.phase = .up ∧ d.rd Reg.SEAT_STAT.STATE n = 2) ∧
  (∃ (d : Dev) (ag : Agent) (m : Nat) (v : Nat) (k : Nat), (Instr.mbxDoorbell ag m v).wf = true ∧ d.sys.phase = .up ∧ d.mbxOf
    ag m = some k ∧ d.mayRing ag k (bitsOf v 4 0) = true) ∧
  (∃ (d : Dev) (ag : Agent), (Instr.doorbellNoticeVisible ag).wf = true ∧ d.sys.phase = .up) ∧
  (∃ (d : Dev) (ags : List Agent) (m : Nat), (Instr.mbxLock ags m).wf = true ∧ d.sys.phase = .up) ∧
  (∃ (d : Dev) (ag : Agent) (m : Nat) (v : Nat) (k : Nat), (Instr.mbxUnlock ag m v).wf = true ∧ d.sys.phase = .up ∧ d.mbxOf ag
    m = some k ∧ bitOf v 0 = true ∧ ((∃ i, ag = .core i) ∨ d.receives ag k = true ∨ d.rd Reg.MBX_LOCK.OWNER k = ag.num)) ∧
  (∃ (d : Dev) (m : Nat), (Instr.doorbellAged m).wf = true ∧ d.sys.phase = .up ∧ (d.mb m).agedDone = false ∧ d.hasAged m =
    true) ∧
  (∃ (d : Dev) (m : Nat), (Instr.lockTimeout m).wf = true ∧ d.sys.phase = .up ∧ d.rd Reg.MBX_LOCK.OWNER m ≠ 0 ∧ (d.mb
    m).lockTick + 100 ≤ d.time.tick) :=
  ⟨⟨tC (wSeats (zeros 128 ++ [3])) [(0x180048, 1)], 1, by decide, by decide, by decide⟩,
    ⟨tUp, by decide⟩,
    ⟨tR [(0x180008, 1)], 0, by decide, by decide, by decide⟩,
    ⟨tR [(0x180008, 2)], 0, by decide, by decide, by decide⟩,
    ⟨tUp, .core 0, 0, 31, 0, by decide, by decide, by decide, by decide⟩,
    ⟨tUp, .core 0, by decide, by decide⟩,
    ⟨tUp, [.core 0], 63, by decide, by decide⟩,
    ⟨tUp, .core 7, 0, 1, 0, by decide, by decide, by decide, by decide, .inl ⟨7, rfl⟩⟩,
    ⟨{ tUp with mbx := [(0, { pendSince := [(0, 1)] })], time := { tick := 1000 } }, 0, by decide, by decide, by decide, by decide⟩,
    ⟨{ tR [(0x4000C, 16)] with time := { tick := 100 } }, 0, by decide, by decide, by decide, by decide⟩⟩

theorem witness_MemoryComplete :
  (∃ (d : Dev) (c : Nat) (reqs : List MemReq) (ups : List Upset), (Instr.sramAccess c reqs ups).wf = true ∧ d.sys.phase = .up
    ∧ (∀ r ∈ reqs, r.addr < 2 ^ 27)) ∧
  (∃ (d : Dev) (c : Nat) (req : Nat) (addr : Nat) (n : Nat) (op : AtomicOp) (v : Nat) (ups : List Upset), (Instr.sramAtomic c
    req addr n op v ups).wf = true ∧ d.sys.phase = .up ∧ addr < 2 ^ 27) ∧
  (∃ (d : Dev) (sel : MemSel) (addr : Nat) (bs : Bytes) (ups : List Upset), (Instr.partialWrite sel addr bs ups).wf = true ∧
    d.sys.phase = .up ∧ addr < memBytes sel) ∧
  (∃ (d : Dev) (_r : PoisonReader), d.sys.phase = .up) ∧
  (∃ (d : Dev) (w : Nat) (_ups : List Upset), d.sys.phase = .up ∧ w < 2 ^ 24) ∧
  (∃ (d : Dev) (w : Nat) (_ups : List Upset), d.sys.phase = .up ∧ w < 2 ^ 31) ∧
  (∃ (a : Arrays) (d : Dev) (c : Nat) (bank : Nat) (ns : Nat), (Instr.bankRetention c bank).wf = true ∧ d.sys.phase = .up ∧
    (d.advance c).cfg.bankIdleNs (bank / 16) = some ns ∧ (d.advance c).groupOff bank = false ∧ (d.advance c).groupFailed bank
    = false ∧ a.retained.contains bank = false ∧ SMap.get (fun _ => 0) a.bankUse bank + ns ≤ c) ∧
  (∃ (d : Dev) (v : Nat), (Instr.memClrCollide v).wf = true ∧ d.sys.phase = .up) ∧
  (∃ (d : Dev), d.sys.phase = .up) ∧
  (∃ (d : Dev) (id : Nat), d.sys.phase = .up ∧ d.ftl.freeCount true < 256 ∧ d.ftl.least (fun b => b.oneBit && b.st != .free &&
    b.st != .bad) (·.born) = some id) ∧
  (∃ (d : Dev) (stream : Nat) (id : Nat), (Instr.garbageCollect stream).wf = true ∧ d.sys.phase = .up ∧ d.ftl.least (fun b =>
    !b.oneBit && b.st == .closed && b.stream == stream) (fun b => (b.pages.filter (·.valid)).length) = some id) ∧
  (∃ (d : Dev) (src dst : Nat), d.sys.phase = .up ∧ (if d.ftl.wearOn then decide (d.ftl.wearSpread.1 - d.ftl.wearSpread.2 >
    150) else decide (d.ftl.wearSpread.1 - d.ftl.wearSpread.2 > 200)) = true ∧ (d.ftl.wearTick = 0 ∨ d.ftl.wearTick + 100 ≤
    d.time.tick) ∧ d.ftl.least (fun b => !b.oneBit && b.st == .closed && b.stream == sCOLD) (·.erases) = some src ∧
    d.ftl.least (fun b => !b.oneBit && b.st == .free) (fun b => 0xFFFFFFFF - b.erases) = some dst) ∧
  (∃ (d : Dev) (id : Nat), d.sys.phase = .up ∧ (d.ftl.block id).st ≠ .bad ∧ id < oneBitBlocks + tlcBlocks) ∧
  (∃ (d : Dev) (id : Nat) (highErrors : Bool), d.sys.phase = .up ∧ (100000 ≤ (d.ftl.block id).reads ∨ highErrors = true) ∧
    (d.ftl.block id).st ≠ .free ∧ (d.ftl.block id).st ≠ .bad) :=
  ⟨⟨tUp, 0, [{ req := 0, addr := 2 ^ 27 - 8, wdata := none }], [], by decide, by decide, by decide⟩,
    ⟨tUp, 0, 28, 2 ^ 27 - 8, 8, .add, 1, [], by decide, by decide, by decide⟩,
    ⟨tUp, .dram, 2 ^ 34 - 1, [1], [], by decide, by decide, by decide⟩,
    ⟨tUp, .core 0, by decide⟩,
    ⟨tUp, 2 ^ 24 - 1, [], by decide, by decide⟩,
    ⟨tUp, 2 ^ 31 - 1, [], by decide, by decide⟩,
    ⟨{}, tC (wSect 0x0A ([0, 0, 0, 0] ++ [1])) [(Reg.MEM_SRAM_STAT.OFF.off, 0)], 1000, 0, 1000, by decide, by decide, by decide, by decide, by decide, by decide, by decide⟩,
    ⟨tUp, 1, by decide, by decide⟩,
    ⟨tUp, by decide⟩,
    ⟨wFull (1799 + 1), 0, by decide, (by rw [wFull_free]; decide), wFull_least 1799⟩,
    ⟨{ tUp with ftl := { blocks := [(oneBitBlocks, { oneBit := false, st := .closed, stream := 1 })] } }, 1, oneBitBlocks, by decide, by decide, by decide⟩,
    ⟨{ tUp with ftl := { blocks := [(2048, { oneBit := false, st := .closed, stream := 2 }), (2049, { oneBit := false, erases := 201 })] } }, 2048, 2049, by decide, by decide, by decide, by decide, by decide⟩,
    ⟨tUp, 0, by decide, by decide, by decide⟩,
    ⟨{ tUp with ftl := { blocks := [(0, { oneBit := true, st := .closed })] } }, 0, true, by decide, by decide, by decide, by decide⟩⟩

theorem witness_CanvasComplete :
  (∃ (d : Dev) (mode : Nat), (Instr.canvasStage mode).wf = true ∧ d.sys.phase = .up ∧ (d.cvState = 0 ∨ d.cvState = 0xF) ∧
    d.rd64 Reg.CANVAS_SRC_ADDR.ADDR % 64 = 0) ∧
  (∃ (d : Dev) (_bytes : Option Bytes), d.sys.phase = .up ∧ d.cvState = 1) ∧
  (∃ (d : Dev) (b : Bytes), d.sys.phase = .up ∧ d.cv.fetched = some b ∧ d.cvState = 2 ∧ d.cv.staged = none ∧ (d.cv.run.isSome
    = true ∨ d.mayStore = true)) ∧
  (∃ (d : Dev) (x : CvStaged), d.sys.phase = .up ∧ d.cv.staged = some x ∧ d.cvState = 2 ∧ d.mayStore = true) ∧
  (∃ (d : Dev) (_mode : Nat) (_b : Option Bytes), d.sys.phase = .up) ∧
  (∃ (d : Dev) (_t : Nat), d.sys.phase = .up) ∧
  (∃ (d : Dev) (_abandoned : Bool), d.sys.phase = .up) ∧
  (∃ (d : Dev), d.sys.phase = .up) ∧
  (∃ (d : Dev) (code : Nat), (Instr.partnerValidationReport code).wf = true ∧ d.sys.phase = .up) ∧
  (∃ (d : Dev) (x : CvStaged), d.sys.phase = .up ∧ d.cv.staged = some x ∧ d.cvState = 3 ∧ x.mode = 0 ∧ d.time.tick + 8 ≤
    d.rd64 Reg.CANVAS_APPLY_TICK.TICK ∧ d.rd64 Reg.CANVAS_APPLY_TICK.TICK ≤ d.time.tick + 2 ^ 32) ∧
  (∃ (d : Dev), d.sys.phase = .up ∧ d.cvState = 4 ∧ d.cv.commit = none ∧ d.cv.armT ≤ d.time.tick + 1 ∧ d.partnerOk = false) ∧
  (∃ (d : Dev) (x : CvStaged), d.sys.phase = .up ∧ d.cv.staged = some x ∧ d.cvState = 4 ∧ d.cv.commit = none ∧ d.cv.armT ≤
    d.time.tick ∧ d.partnerOk = true) ∧
  (∃ (d : Dev) (x : CvStaged), d.sys.phase = .up ∧ d.cv.staged = some x ∧ d.cvState = 3 ∧ x.mode = 1 ∧ d.cv.commit = none) ∧
  (∃ (d : Dev) (_c : Nat), d.sys.phase = .up) ∧
  (∃ (d : Dev), d.sys.phase = .up ∧ d.cv.commit = none ∧ (d.cvState = 1 ∨ d.cvState = 2)) ∧
  (∃ (d : Dev), d.sys.phase = .up ∧ d.cv.commit = none ∧ (d.cvState = 3 ∨ (d.cvState = 4 ∧ d.time.tick < d.cv.armT))) ∧
  (∃ (d : Dev) (v : Nat), (Instr.canvasCtlConflict v).wf = true ∧ d.sys.phase = .up ∧ 1 < cvCommands v) :=
  ⟨⟨tR [(0x10004, 0), (Reg.CANVAS_SRC_ADDR.ADDR.off, 64), (Reg.CANVAS_SRC_ADDR.ADDR.off + 4, 0)], 1, by decide, by decide, by decide, by decide⟩,
    ⟨tR [(0x10004, 1)], none, by decide, by decide⟩,
    ⟨{ tC [] [(0x10004, 2)] with cv := { run := some [], fetched := some [] } }, [], by decide, by decide, by decide, by decide, by decide⟩,
    ⟨{ tR [(0x10004, 2), (0x1A0040, 0)] with cv := { staged := some { bytes := [], mode := 0, store := 0 } } }, { bytes := [], mode := 0, store := 0 }, by decide, by decide, by decide, by decide⟩,
    ⟨tUp, 1, some [], by decide⟩,
    ⟨tUp, 0, by decide⟩,
    ⟨tUp, true, by decide⟩,
    ⟨tUp, by decide⟩,
    ⟨tUp, 0, by decide, by decide⟩,
    ⟨{ tR [(0x10004, 3), (Reg.CANVAS_APPLY_TICK.TICK.off, 8), (Reg.CANVAS_APPLY_TICK.TICK.off + 4, 0)] with cv := { staged := some { bytes := [], mode := 0, store := 0 } } }, { bytes := [], mode := 0, store := 0 }, by decide, by decide, by decide, by decide, by decide, by decide⟩,
    ⟨tC (wCanvas 0 [(11, [4, 0, 4])]) [(0x10004, 4)], by decide, by decide, by decide, by decide, by decide⟩,
    ⟨{ tR [(0x10004, 0x24)] with cv := { staged := some { bytes := [], mode := 0, store := 0 } } }, { bytes := [], mode := 0, store := 0 }, by decide, by decide, by decide, by decide, by decide, by decide⟩,
    ⟨{ tR [(0x10004, 3)] with cv := { staged := some { bytes := [], mode := 1, store := 0 } } }, { bytes := [], mode := 1, store := 0 }, by decide, by decide, by decide, by decide, by decide⟩,
    ⟨tUp, 0, by decide⟩,
    ⟨tR [(0x10004, 1)], by decide, by decide, by decide⟩,
    ⟨tR [(0x10004, 3)], by decide, by decide, by decide⟩,
    ⟨tUp, 0x24, by decide, by decide, by decide⟩⟩

theorem witness_CampaignsComplete :
  (∃ (d : Dev) (n : Nat), (Instr.campCreate n).wf = true ∧ d.sys.phase = .up ∧ (d.campaign (d.campSel n)).state = 0) ∧
  (∃ (d : Dev) (i : Nat) (body : Option Bytes) (b : Bytes), d.sys.phase = .up ∧ (d.campaign i).state = 1 ∧ body = some b ∧
    d.campCause (d.campaign i).owner i b = none) ∧
  (∃ (d : Dev) (i : Nat) (body : Option Bytes), d.sys.phase = .up ∧ (d.campaign i).state = 1 ∧ body = none) ∧
  (∃ (d : Dev) (n : Nat) (seen : ImgSeen), (Instr.campStart n seen).wf = true ∧ d.sys.phase = .up ∧ d.campOwned n (d.campSel
    n) = true ∧ (d.campaign (d.campSel n)).state = 2) ∧
  (∃ (d : Dev) (n : Nat), (Instr.campPause n).wf = true ∧ d.sys.phase = .up ∧ d.campOwned n (d.campSel n) = true ∧ campPhase
    (d.campaign (d.campSel n)).state = true) ∧
  (∃ (d : Dev) (n : Nat), (Instr.campResume n).wf = true ∧ d.sys.phase = .up ∧ d.campOwned n (d.campSel n) = true ∧
    (d.campaign (d.campSel n)).state = 8) ∧
  (∃ (d : Dev) (n : Nat), (Instr.campAbort n).wf = true ∧ d.sys.phase = .up ∧ d.campOwned n (d.campSel n) = true) ∧
  (∃ (d : Dev) (n : Nat), (Instr.campRelease n).wf = true ∧ d.sys.phase = .up ∧ d.campOwned n (d.campSel n) = true ∧
    ((d.campaign (d.campSel n)).state = 7 ∨ (d.campaign (d.campSel n)).state = 9)) ∧
  (∃ (d : Dev) (p : Nat) (sys : Bytes) (airtime : Nat) (busy : Bool) (seen : ImgSeen) (e : Dev) (k : Nat), (Instr.campTxSlot p
    sys airtime busy seen).wf = true ∧ d.sys.phase = .up ∧ e = (List.range 16).foldl (fun d i => (if campPhase (d.campaign
    i).phase && d.campLost (d.campaign i) != d.campaign i then d.onCamp i d.campLost else d).campAdvance i seen campFuel) d ∧
    e.granted = true ∧ e.on Reg.ING_STAT.HOLD = false ∧ (e.mode p ≠ Canvas.mRADIO ∨ e.on Reg.RADIO_STAT.STORM p = false) ∧
    busy = false ∧ e.isolated p = false ∧ e.paused p = false ∧ (e.port p).txq = [] ∧ SMap.get (fun _ => 0) e.camp.gapTo p ≤
    e.time.tick ∧ (List.range 16).find? (fun k => e.campHas p ((SMap.get (fun _ => 0) e.camp.turn p + k) % 16)) = some k) ∧
  (∃ (d : Dev) (i : Nat) (slot : Nat) (answer : CampAnswer) (t : Target), (Instr.campResponse i slot answer).wf = true ∧
    d.sys.phase = .up ∧ campPhase (d.campaign i).phase = true ∧ (d.campaign i).targets.find? (fun t => t.slot == slot &&
    t.waiting) = some t) ∧
  (∃ (d : Dev) (i : Nat) (slot : Nat) (t : Target), (Instr.campAttemptTimeout i slot).wf = true ∧ d.sys.phase = .up ∧
    campPhase (d.campaign i).phase = true ∧ (d.campaign i).targets.find? (fun t => t.slot == slot && t.waiting) = some t ∧
    t.lastTick + 3000 ≤ d.time.tick) :=
  ⟨⟨tR [(Reg.CAMP_SEL.ID.off, 15)], 0, by decide, by decide, by decide⟩,
    ⟨{ tC (wCanvas 255 [(5, [3] ++ zeros 11 ++ [1]), (15, zeros 12 ++ [1])]) [(0x1A0040, 0)] with camp := { camps := [(0, { state := 1 })] } }, 0, some wCampBody, wCampBody, by decide, by decide, by decide, by decide⟩,
    ⟨{ tUp with camp := { camps := [(0, { state := 1 })] } }, 0, none, by decide, by decide, by decide⟩,
    ⟨{ tR [(Reg.CAMP_SEL.ID.off, 0)] with camp := { camps := [(0, { state := 2 })] } }, 0, .sound, by decide, by decide, by decide, by decide⟩,
    ⟨{ tR [(Reg.CAMP_SEL.ID.off, 0)] with camp := { camps := [(0, { state := 4 })] } }, 0, by decide, by decide, by decide, by decide⟩,
    ⟨{ tR [(Reg.CAMP_SEL.ID.off, 0)] with camp := { camps := [(0, { state := 8 })] } }, 0, by decide, by decide, by decide, by decide⟩,
    ⟨{ tR [(Reg.CAMP_SEL.ID.off, 0)] with camp := { camps := [(0, { state := 4 })] } }, 0, by decide, by decide, by decide⟩,
    ⟨{ tR [(Reg.CAMP_SEL.ID.off, 0)] with camp := { camps := [(0, { state := 9 })] } }, 0, by decide, by decide, by decide, by decide⟩,
    ⟨wCampTx, 0, zeros 8, 0, false, .sound, _, 0, by decide, by decide, rfl, by decide +kernel, by decide +kernel, by decide +kernel, by decide +kernel, by decide +kernel, by decide +kernel, by decide +kernel, by decide +kernel, by decide +kernel⟩,
    ⟨wCamp, 0, 0, .done, wTarget, by decide, by decide, by decide, by decide⟩,
    ⟨wCamp, 0, 0, wTarget, by decide, by decide, by decide, by decide, by decide⟩⟩

theorem witness_VaultComplete :
  (∃ (d : Dev) (n : Nat) (ps : Pulses) (root : Bytes), (Instr.vaultEnrol n ps).wf = true ∧ d.sys.phase = .up ∧
    d.rootKey = some root ∧ n = 0 ∧ d.on Reg.VAULT_STAT.ENROL_PERMIT = true ∧ ofLe (x25519 (hkdf root (d.rdBytes
    Reg.VAULT_ENROL_NONCE.VALUE 8) (ascii "HZ-DEVKEY") 32) (d.rdBytes Reg.VAULT_ENROL_PUB.VALUE 8)) ≠ 0 ∧ ps = .made) ∧
  (∃ (d : Dev) (n : Nat) (zkey : Nat), (Instr.vaultZeroise n zkey).wf = true ∧ d.sys.phase = .up ∧ n = 0 ∧ zkey = 0xA55A ∧
    d.on Reg.VAULT_STAT.ENROL_PERMIT = true) ∧
  (∃ (d : Dev) (n : Nat), (Instr.vaultSubmit n).wf = true ∧ d.sys.phase = .up ∧ d.vault.queue.contains n = false) ∧
  (∃ (d : Dev) (_m : Option Bytes) (n : Nat), d.sys.phase = .up ∧ d.vault.queue.head? = some n ∧ d.vault.accepted = none) ∧
  (∃ (d : Dev) (_ps : Pulses) (m : VMsg), d.sys.phase = .up ∧ d.acceptedOp 1 = some m) ∧
  (∃ (d : Dev) (_ps : Pulses) (m : VMsg), d.sys.phase = .up ∧ d.acceptedOp 2 = some m) ∧
  (∃ (d : Dev) (_ps : Pulses) (m : VMsg), d.sys.phase = .up ∧ d.acceptedOp 3 = some m) ∧
  (∃ (d : Dev) (_ps : Pulses) (m : VMsg), d.sys.phase = .up ∧ d.acceptedOp 4 = some m) ∧
  (∃ (d : Dev) (_ps : Pulses) (m : VMsg), d.sys.phase = .up ∧ d.acceptedOp 5 = some m) ∧
  (∃ (d : Dev), d.sys.phase = .up ∧ d.vault.sweepRoots ≠ []) ∧
  (∃ (d : Dev) (n : Nat), (Instr.vaultChal n).wf = true ∧ d.sys.phase = .up ∧ (d.seat n).chalTick ≠ some d.time.tick) ∧
  (∃ (d : Dev) (n : Nat), (Instr.vaultExport n).wf = true ∧ d.sys.phase = .up ∧ n = 0 ∧ d.rootKey.isSome = true ∧ d.usable
    (d.rd Reg.VAULT_SLOT_SEL.SLOT) = true ∧ attrEXPW (d.vslot (d.rd Reg.VAULT_SLOT_SEL.SLOT)).attr = true ∧ (usageOf (d.vslot
    (d.vslot (d.rd Reg.VAULT_SLOT_SEL.SLOT)).link).attr = 1 ∨ usageOf (d.vslot (d.vslot (d.rd
    Reg.VAULT_SLOT_SEL.SLOT)).link).attr = 5)) :=
  ⟨⟨{ tR [(0x50004, 8), (Reg.VAULT_ENROL_PUB.VALUE.off, 9)] with vault := { root := { st0 := .good } } }, 0, .made, [], by decide, by decide, by decide, by decide, by decide, by decide +kernel, by decide⟩,
    ⟨tR [(0x50004, 8)], 0, 0xA55A, by decide, by decide, by decide, by decide, by decide⟩,
    ⟨tUp, 63, by decide, by decide, by decide⟩,
    ⟨{ tUp with vault := { queue := [5] } }, none, 5, by decide, by decide, by decide⟩,
    ⟨wVault 1, .made, wMsg 1, by decide, by decide⟩,
    ⟨wVault 2, .made, wMsg 2, by decide, by decide⟩,
    ⟨wVault 3, .made, wMsg 3, by decide, by decide⟩,
    ⟨wVault 4, .made, wMsg 4, by decide, by decide⟩,
    ⟨wVault 5, .made, wMsg 5, by decide, by decide⟩,
    ⟨{ tUp with vault := { sweepRoots := [1] } }, by decide, by decide⟩,
    ⟨tUp, 0, by decide, by decide, by decide⟩,
    ⟨{ tR [(0x50018, 2)] with vault := { root := { st0 := .good }, slots := [(1, { attr := 1 }), (2, { attr := 0x11, link := 1 })] } }, 0, by decide, by decide, by decide, by decide, by decide, by decide, by decide⟩⟩

theorem witness_LinksAndElectionComplete :
  (∃ (d : Dev) (l : LinkId) (h : Hello) (k : Nat), (Instr.linkHello l h).wf = true ∧ d.sys.phase = .up ∧ l = .deal k ∧ k < 4 ∧
    d.inCascade = true ∧ h.pos = d.farOf k ∧ h.side = d.side ∧ d.linkIdle k = false ∧ h.idx < 4 ∧ d.farFrom h.pos h.idx =
    d.pos ∧ d.linkUp k = false) ∧
  (∃ (d : Dev) (l : LinkId) (h : Hello) (k : Nat), (Instr.linkHello l h).wf = true ∧ d.sys.phase = .up ∧ l = .deal k ∧ k < 4 ∧
    d.inCascade = true ∧ (h.pos ≠ d.farOf k ∨ h.side ≠ d.side)) ∧
  (∃ (d : Dev) (l : LinkId) (h : Hello) (i : Nat), (Instr.linkHello l h).wf = true ∧ d.sys.phase = .up ∧ l = .lane i) ∧
  (∃ (d : Dev) (l : LinkId) (ns : Nat), (Instr.linkDelayMeasure l ns).wf = true ∧ d.sys.phase = .up ∧ d.idUp l = true ∧
    (SMap.find d.cas.delays (linkNum l) = none ∨ ∃ x, SMap.find d.cas.delays (linkNum l) = some x ∧ x.2 + 100 ≤ d.time.tick)) ∧
  (∃ (d : Dev) (k : Nat) (b : Bytes), (Instr.dealFrameForward k b).wf = true ∧ d.sys.phase = .up ∧ d.inCascade = true ∧
    d.linkUp k = true) ∧
  (∃ (d : Dev) (x : Discover), (Instr.discover x).wf = true ∧ d.sys.phase = .up ∧ d.inCascade = true ∧ x.plan = d.plan8) ∧
  (∃ (d : Dev) (pos : Nat) (side : Nat) (plan : Bytes), (Instr.elect pos side plan).wf = true ∧ d.sys.phase = .up ∧
    d.inCascade = true ∧ plan = d.plan8) ∧
  (∃ (d : Dev) (m : DealerMsg), (Instr.dealer m).wf = true ∧ d.sys.phase = .up ∧ d.inCascade = true ∧ m.plan = d.plan8 ∧ ((∃
    t, d.cas.elec = .listen t) ∨ (∃ t x, d.cas.elec = .discover t x) ∨ (d.cas.elec = .joined ∧ d.rd Reg.CAS_DEALER_EPOCH.EPOCH
    ≤ m.epoch) ∨ (∃ t, d.cas.elec = .dealer t ∧ m.pos < d.pos) ∨ (∃ t p x, d.cas.elec = .elect t p x ∧ ¬ (p = d.pos ∧ x =
    d.side ∧ d.pos ≤ m.pos)))) ∧
  (∃ (d : Dev) (_rail : Bool) (_c : Nat) (_b : Bytes), d.sys.phase = .up ∧ d.inCascade = true) ∧
  (∃ (d : Dev) (c : Nat) (since : Nat), d.sys.phase = .up ∧ d.cas.elec = .listen since ∧ since + secNs ≤ (d.advance
    c).time.cnt) ∧
  (∃ (d : Dev) (c : Nat) (since : Nat) (last : Option Nat), d.sys.phase = .up ∧ d.cas.elec = .discover since last ∧ (last =
    none ∨ ∃ x, last = some x ∧ x + 200000000 ≤ (d.advance c).time.cnt)) ∧
  (∃ (d : Dev) (c : Nat) (since : Nat) (last : Option Nat) (p s : Nat), d.sys.phase = .up ∧ d.cas.elec = .discover since last
    ∧ since + secNs ≤ (d.advance c).time.cnt ∧ candOf ((d.advance c).ownDiscover :: (d.advance c).cas.heard) = some (p, s)) ∧
  (∃ (d : Dev) (c : Nat) (since : Nat) (last : Option Nat), d.sys.phase = .up ∧ d.cas.elec = .discover since last ∧ since +
    secNs ≤ (d.advance c).time.cnt ∧ candOf ((d.advance c).ownDiscover :: (d.advance c).cas.heard) = none) ∧
  (∃ (d : Dev) (c : Nat) (since p s : Nat), d.sys.phase = .up ∧ d.cas.elec = .elect since p s ∧ p = (d.advance c).pos ∧ s =
    (d.advance c).side ∧ since + 200000000 ≤ (d.advance c).time.cnt) ∧
  (∃ (d : Dev) (c : Nat) (last : Option Nat), d.sys.phase = .up ∧ d.cas.elec = .dealer last ∧ (d.advance c).isDealer = true ∧
    (last = none ∨ ∃ x, last = some x ∧ x + secNs ≤ (d.advance c).time.cnt)) :=
  ⟨⟨tC (wPos 0 4) [(0x1C0000, 0), (0x1C0004, 0)], .deal 0, { pos := 1, side := 0, idx := 1 }, 0, by decide, by decide, by decide, by decide, by decide, by decide, by decide, by decide, by decide, by decide, by decide⟩,
    ⟨tC (wPos 0 4) [(0x1C0000, 0)], .deal 3, { pos := 0, side := 1, idx := 0 }, 3, by decide, by decide, by decide, by decide, by decide, by decide⟩,
    ⟨tUp, .lane 1, { pos := 0, side := 1, idx := 1 }, 1, by decide, by decide, by decide⟩,
    ⟨{ tUp with cas := { lanes := [1] } }, .lane 1, 0, by decide, by decide, by decide, .inl (by decide)⟩,
    ⟨tC (wPos 0 4) [(0x1C0000, 0), (0x1C0004, 0x400)], 3, [], by decide, by decide, by decide, by decide⟩,
    ⟨tC (wPos 0 4) [], { pos := 0, side := 0, plan := zeros 8, serial := 0, cfl := 0, pref := false, step := 0, jtick := 0 }, by decide, by decide, by decide, by decide⟩,
    ⟨tC (wPos 0 4) [], 39, 1, zeros 8, by decide, by decide, by decide, by decide⟩,
    ⟨{ tC (wPos 0 4) [(0x1C0000, 0)] with cas := { elec := .listen 0 } }, { pos := 1, side := 0, epoch := 1, tick := 0, plan := zeros 8 }, by decide, by decide, by decide, by decide, .inl ⟨0, rfl⟩⟩,
    ⟨tC (wPos 0 4) [], false, 0, [], by decide, by decide⟩,
    ⟨{ tUp with cas := { elec := .listen 0 }, time := { cnt := 1000000000 } }, 0, 0, by decide, by decide, by decide⟩,
    ⟨{ tUp with cas := { elec := .discover 0 none } }, 0, 0, none, by decide, by decide, by decide⟩,
    ⟨{ tC (wCanvas 0 [(11, [4, 0, 1])]) [(0x1C0000, 0)] with cas := { elec := .discover 0 none }, time := { cnt := 1000000000 } }, 0, 0, none, 0, 0, by decide, by decide, by decide, by decide⟩,
    ⟨{ tC (wPos 0 4) [(0x1C0000, 0)] with cas := { elec := .discover 0 none }, time := { cnt := 1000000000 } }, 0, 0, none, by decide, by decide, by decide, by decide⟩,
    ⟨{ tR [(0x1C0000, 0x3)] with cas := { elec := .elect 0 3 0 }, time := { cnt := 200000000 } }, 0, 0, 3, 0, by decide, by decide, by decide, by decide, by decide⟩,
    ⟨{ tR [(0x1C0004, 4)] with cas := { elec := .dealer none } }, 0, none, by decide, by decide, by decide, by decide⟩⟩

theorem witness_DealerTrafficComplete :
  (∃ (d : Dev) (k : Nat) (b : Bytes) (at0 : Int) (resid : Nat) (c : Nat), (Instr.sync k b at0 resid c).wf = true ∧ d.sys.phase
    = .up ∧ k < 4 ∧ d.inCascade = true ∧ d.linkUp k = true ∧ frameOk b = true ∧ ((d.advance c).syncForward k b resid).rd
    Reg.CAS_DEALER_EPOCH.EPOCH ≤ (syncOf (slice b 32 38)).epoch ∧ ((d.advance c).syncForward k b resid).isDealer = false) ∧
  (∃ (d : Dev), d.sys.phase = .up ∧ d.cas.synced = true ∧ d.isDealer = false ∧ d.cas.syncLost = false ∧ d.cas.lastSync + 10 ≤
    d.time.tick) ∧
  (∃ (d : Dev) (_c : Nat), d.sys.phase = .up ∧ d.cas.synced = true ∧ d.isDealer = false ∧ d.cas.elec = .joined ∧
    d.cas.lastSync + 100 ≤ d.time.tick) ∧
  (∃ (d : Dev), d.sys.phase = .up ∧ 10 ≤ d.cas.alignRun) ∧
  (∃ (d : Dev) (c : Nat) (t : Nat) (at0 : Int), d.sys.phase = .up ∧ d.cas.ahead = some (t, at0) ∧ (d.advance c).step = 3 ∧
    (d.advance c).on Reg.CAS_ERR_STICKY.TICK_AHEAD = true) ∧
  (∃ (d : Dev) (_m : DirMsg), d.sys.phase = .up) ∧
  (∃ (d : Dev), d.sys.phase = .up) ∧
  (∃ (d : Dev) (title : Nat) (r : Option (Nat × Nat)), (Instr.dirAnswer title r).wf = true ∧ d.sys.phase = .up ∧ d.cas.query =
    some title) ∧
  (∃ (d : Dev) (m : CheckMsg), (Instr.check m).wf = true ∧ d.sys.phase = .up ∧ d.isDealer = true) ∧
  (∃ (d : Dev) (code : Nat), (Instr.checkAnswer code).wf = true ∧ d.sys.phase = .up ∧ d.step = 5) :=
  ⟨⟨tC (wPos 0 4) [(0x1C0000, 0), (0x1C0004, 0x80), (0x1C000C, 0)], 0, wFrame (zeros 38), 0, 0, 0, by decide, by decide, by decide, by decide, by decide, by decide +kernel, by decide +kernel, by decide +kernel⟩,
    ⟨{ tR [(0x1C0004, 0)] with cas := { synced := true, lastSync := 0 }, time := { tick := 10 } }, by decide, by decide, by decide, by decide, by decide⟩,
    ⟨{ tR [(0x1C0004, 0)] with cas := { synced := true, lastSync := 0, elec := .joined }, time := { tick := 100 } }, 0, by decide, by decide, by decide, by decide, by decide⟩,
    ⟨{ tUp with cas := { alignRun := 10 } }, by decide, by decide⟩,
    ⟨{ tR [(0x1C0004, 0x18), (0x1C0210, 0x1000)] with cas := { ahead := some (0, 0) } }, 0, 0, 0, by decide, by decide, by decide, by decide⟩,
    ⟨tUp, .updates [], by decide⟩,
    ⟨tUp, by decide⟩,
    ⟨{ tUp with cas := { query := some 9 } }, 9, none, by decide, by decide, by decide⟩,
    ⟨tR [(0x1C0004, 4)], { pos := 39, side := 1, plan := [], tickSel := 0, serial := 0, digest := [], same := false }, by decide, by decide, by decide⟩,
    ⟨tR [(0x1C0004, 0x28)], 0, by decide, by decide, by decide⟩⟩

theorem witness_BalanceComplete :
  (∃ (d : Dev) (_bs : Bytes), d.sys.phase = .up ∧ d.isDealer = true) ∧
  (∃ (d : Dev), d.sys.phase = .up ∧ d.isDealer = true) ∧
  (∃ (d : Dev) (bs : Bytes) (i : Nat), d.sys.phase = .up ∧ d.cfg.spanNode (u bs 0 4) = some i ∧ sealOf (slice bs 0 12) = u bs
    12 4) ∧
  (∃ (d : Dev) (x : NodeTurn) (b : Bound) (bs : List Bound) (d1 : Dev), (Instr.nodeEvaluate x).wf = true ∧ d.sys.phase = .up ∧
    d.cfg.hasTopo = true ∧ d1 = d.abandonEvals x.seat (d.evalPending x.seat) ∧ d1.evalPending x.seat = b :: bs ∧ d1.evalDue b
    = true ∧ d1.bal.used + x.cost ≤ d1.budget) ∧
  (∃ (d : Dev) (n : Nat), (Instr.balRebase n).wf = true ∧ d.sys.phase = .up ∧ d.cfg.seatOfSlot (d.rd Reg.BAL_SLOT_SEL.INDEX 0
    n) = some n) ∧
  (∃ (d : Dev) (n : Nat), (Instr.balResetTrack n).wf = true ∧ d.sys.phase = .up ∧ d.cfg.seatOfSlot (d.rd
    Reg.BAL_SLOT_SEL.INDEX 0 n) = some n) ∧
  (∃ (d : Dev) (e : Nat) (cost : Nat) (q : QItem) (d1 : Dev), (Instr.trackerOrderApply e cost).wf = true ∧ d.sys.phase = .up ∧
    d.step = 0 ∧ d.mayDispatch e 2000 = true ∧ d.catchSlots e = [] ∧ cost ≤ 2000 ∧ d.nextItem e = some (q, d1) ∧ (q.work =
    .rebase ∨ q.work = .resetTrack)) :=
  ⟨⟨tR [(0x1C0004, 4)], [], by decide, by decide⟩,
    ⟨tR [(0x1C0004, 4)], by decide, by decide⟩,
    ⟨tC wTopo [], zeros 12 ++ leBytes 4 (sealOf (zeros 12)), 0, by decide, by decide +kernel, by decide +kernel⟩,
    ⟨{ tC wTopo [] with time := { bounds := [wBound], tick := 100 } }, { seat := 0, cost := 0 }, wBound, [], _, by decide, by decide, by decide +kernel, rfl, by decide +kernel, by decide +kernel, by decide +kernel⟩,
    ⟨tC (wSeat [3]) [(Reg.BAL_SLOT_SEL.INDEX.off, 0)], 0, by decide, by decide, by decide⟩,
    ⟨tC (wSeat [3]) [(Reg.BAL_SLOT_SEL.INDEX.off, 0)], 0, by decide, by decide, by decide⟩,
    ⟨wEng .rebase, 0, 0, wItem .rebase, _, by decide, by decide, by decide, by decide, by decide, by decide, rfl, by decide⟩⟩

theorem witness_PositionHealthComplete :
  (∃ (d : Dev) (m : HealthMsg), (Instr.health m).wf = true ∧ d.sys.phase = .up ∧ d.isDealer = true) ∧
  (∃ (d : Dev), d.sys.phase = .up ∧ d.isActive = true ∧ d.step = 0 ∧ d.inCascade = true ∧ d.cas.healthAt + 100 ≤ d.time.tick ∧
    ({ d with cas := { d.cas with healthAt := d.time.tick } } : Dev).isDealer = false) ∧
  (∃ (d : Dev), d.sys.phase = .up ∧ d.isActive = true ∧ d.step = 0 ∧ d.inCascade = true ∧ d.cas.healthAt + 100 ≤ d.time.tick ∧
    ({ d with cas := { d.cas with healthAt := d.time.tick } } : Dev).isDealer = true) ∧
  (∃ (d : Dev) (p : Nat) (t : Nat), (Instr.positionLost p).wf = true ∧ d.sys.phase = .up ∧ SMap.find d.cas.posAt p = some t ∧
    d.isDealer = true ∧ t + 300 ≤ d.time.tick ∧ p < 40) ∧
  (∃ (d : Dev) (_jtick : Nat) (_pref : Bool), d.sys.phase = .up ∧ d.partnerUp = true ∧ d.step = 4) ∧
  (∃ (d : Dev) (jtick : Nat) (_pref : Bool), d.sys.phase = .up ∧ d.partnerUp = true ∧ d.step = 0 ∧ jtick
    ≠ d.journalHigh) ∧
  (∃ (d : Dev) (_h : Beat), d.sys.phase = .up ∧ d.partnerUp = true) ∧
  (∃ (d : Dev) (h : Beat), d.sys.phase = .up ∧ d.cas.beat = some h ∧ d.rd Reg.CAS_STAT.ROLE = 0 ∧ d.step = 0 ∧
    d.cfg.hasPartner = true ∧ h.tick + 3 ≤ d.time.tick) ∧
  (∃ (d : Dev) (k : Nat) (b : Bytes), (Instr.takeoverNotice k b).wf = true ∧ d.sys.phase = .up ∧ d.inCascade = true ∧ d.linkUp
    k = true) ∧
  (∃ (d : Dev) (t : Nat), d.sys.phase = .up ∧ d.isActive = true ∧ d.cas.giveUp = some t ∧ t < d.time.tick) :=
  ⟨⟨tR [(0x1C0004, 4)], { pos := 0, side := 0, epoch := 0, roleA := 0, roleB := 0, fault := 0, diverge := 0, tj := 0, spare := 0 }, by decide, by decide, by decide⟩,
    ⟨{ tC (wPos 0 4) [(0x1C0004, 1)] with time := { tick := 100 } }, by decide, by decide, by decide, by decide, by decide, by decide⟩,
    ⟨{ tC (wPos 0 4) [(0x1C0004, 5)] with time := { tick := 100 } }, by decide, by decide, by decide, by decide, by decide, by decide⟩,
    ⟨{ tR [(0x1C0004, 4)] with cas := { posAt := [(39, 0)] }, time := { tick := 300 } }, 39, 0, by decide, by decide, by decide, by decide, by decide, by decide⟩,
    ⟨tR [(0x1C0004, 0x60)], 0, true, by decide, by decide, by decide⟩,
    ⟨tR [(0x1C0004, 0x40)], 5, true, by decide, by decide, by decide, by decide⟩,
    ⟨tR [(0x1C0004, 0x40)], { tick := 0, role := 1, epoch := 0, pkg := 0, fault := 0, grant := true }, by decide, by decide⟩,
    ⟨{ tC (wCanvas 0 [(11, [4, 0, 4])]) [(0x1C0004, 0)] with cas := { beat := some { tick := 0, role := 1, epoch := 0, pkg := 0, fault := 0, grant := true } }, time := { tick := 3 } }, { tick := 0, role := 1, epoch := 0, pkg := 0, fault := 0, grant := true }, by decide, by decide, by decide, by decide, by decide, by decide⟩,
    ⟨tC (wPos 0 4) [(0x1C0000, 0), (0x1C0004, 0x400)], 3, [], by decide, by decide, by decide, by decide⟩,
    ⟨{ tR [(0x1C0004, 1)] with cas := { giveUp := some 0 }, time := { tick := 1 } }, 0, by decide, by decide, by decide, by decide⟩⟩

theorem witness_ResyncAndSwapComplete :
  (∃ (d : Dev) (_pk : Machine.Package), d.sys.phase = .up ∧ d.isActive = false ∧ d.partnerUp = true ∧ d.step = 0) ∧
  (∃ (d : Dev), d.sys.phase = .up ∧ d.isActive = false) ∧
  (∃ (d : Dev) (_item : Machine.BulkItem) (_tick : Nat), d.sys.phase = .up ∧ d.isActive = false ∧ d.partnerUp = true ∧
    d.cas.resyncAt.isSome = true) ∧
  (∃ (d : Dev), d.sys.phase = .up ∧ d.partnerUp = true ∧ d.isActive = true) ∧
  (∃ (d : Dev) (t : Nat), d.sys.phase = .up ∧ d.partnerUp = true ∧ d.isActive = false ∧ d.cas.resyncAt = some t) ∧
  (∃ (d : Dev) (t : Nat), d.sys.phase = .up ∧ d.cas.resyncAt = some t ∧ t + 300 ≤ d.time.tick) ∧
  (∃ (d : Dev), d.sys.phase = .up ∧ d.isActive = true ∧ d.on Reg.CAS_STAT.RESYNCED = true ∧ d.time.tick + 8 ≤ d.rd64
    Reg.CAS_SWAP_TICK.TICK) ∧
  (∃ (d : Dev), d.sys.phase = .up ∧ d.isActive = true ∧ d.cas.swapAt = some d.time.tick) ∧
  (∃ (d : Dev), d.sys.phase = .up ∧ d.isActive = false ∧ d.rd Reg.CAS_STAT.ROLE = 0 ∧ d.on Reg.CAS_STAT.RESYNCED = true ∧
    d.partnerUp = true ∧ d.step = 0) ∧
  (∃ (d : Dev) (_c : Nat) (r : ResetCmd) (level : Nat), d.sys.phase = .up ∧ r = .partner level ∧ d.isActive = false ∧
    d.partnerUp = true) ∧
  (∃ (d : Dev) (_c : Nat) (r : ResetCmd) (b : Bytes), d.sys.phase = .up ∧ r = .dealer b ∧ d.inCascade = true) :=
  ⟨⟨tR [(0x1C0004, 0x40)], { j := {} }, by decide, by decide, by decide, by decide⟩,
    ⟨tR [(0x1C0004, 0)], by decide, by decide⟩,
    ⟨{ tR [(0x1C0004, 0x40)] with cas := { resyncAt := some 0 } }, .key 0 [], 0, by decide, by decide, by decide, by decide⟩,
    ⟨tR [(0x1C0004, 0x41)], by decide, by decide, by decide⟩,
    ⟨{ tR [(0x1C0004, 0x40)] with cas := { resyncAt := some 0 } }, 0, by decide, by decide, by decide, by decide⟩,
    ⟨{ tUp with cas := { resyncAt := some 0 }, time := { tick := 300 } }, 0, by decide, by decide, by decide⟩,
    ⟨tR [(0x1C0004, 0x20001), (Reg.CAS_SWAP_TICK.TICK.off, 8), (Reg.CAS_SWAP_TICK.TICK.off + 4, 0)], by decide, by decide, by decide, by decide⟩,
    ⟨{ tR [(0x1C0004, 1)] with cas := { swapAt := some 0 } }, by decide, by decide, by decide⟩,
    ⟨tR [(0x1C0004, 0x20040)], by decide, by decide, by decide, by decide, by decide, by decide⟩,
    ⟨tR [(0x1C0004, 0x40)], 0, .partner 2, 2, by decide, by decide, by decide, by decide⟩,
    ⟨tC (wPos 0 4) [], 0, .dealer [], [], by decide, by decide, by decide⟩⟩

theorem witness_UpdateComplete :
  (∃ (d : Dev) (_downgrade : Bool), d.sys.phase = .up ∧ d.rd Reg.UPD_STAT.STATE = 0 ∧ d.rd Reg.UPD_SRC_ADDR_LO.VALUE % 64 = 0) ∧
  (∃ (d : Dev) (img : Option Bytes) (b : Bytes), d.sys.phase = .up ∧ d.rd Reg.UPD_STAT.STATE = 1 ∧ img = some b) ∧
  (∃ (d : Dev) (img : Option Bytes), d.sys.phase = .up ∧ d.rd Reg.UPD_STAT.STATE = 1 ∧ img = none) ∧
  (∃ (d : Dev), d.sys.phase = .up ∧ d.updWaits = true ∧ (d.idleImage.map (·.restart)).getD false = false ∧ d.time.tick + 8 ≤
    d.rd64 Reg.UPD_APPLY_TICK.TICK ∧ d.rd64 Reg.UPD_APPLY_TICK.TICK ≤ d.time.tick + 2 ^ 32 ∧ d.rd Reg.CANVAS_STAT.STATE ≠ 4) ∧
  (∃ (d : Dev), d.sys.phase = .up ∧ d.rd Reg.UPD_STAT.STATE = 3 ∧ d.upd.armT ≤ d.time.tick) ∧
  (∃ (d : Dev) (e : Nat) (s : Swap), (Instr.engineMicrocodeSwap e).wf = true ∧ d.sys.phase = .up ∧ d.upd.swap = some s ∧ s.t +
    1 + e ≤ d.time.tick ∧ s.engines.contains e = false) ∧
  (∃ (d : Dev) (s : Swap), d.sys.phase = .up ∧ d.upd.swap = some s ∧ s.t + 17 ≤ d.time.tick ∧ 16 ≤ s.engines.length) ∧
  (∃ (d : Dev) (_c : Nat), d.sys.phase = .up ∧ d.updWaits = true ∧ (d.idleImage.map (·.restart)).getD false = true) ∧
  (∃ (d : Dev), d.sys.phase = .up ∧ (d.rd Reg.UPD_STAT.STATE = 2 ∨ d.rd Reg.UPD_STAT.STATE = 3 ∨ d.updWaits = true)) ∧
  (∃ (d : Dev), d.sys.phase = .up) ∧
  (∃ (d : Dev) (t : Nat), d.sys.phase = .up ∧ d.rd Reg.UPD_STAT.STATE = 4 ∧ d.cfg.confWin ≤ d.rd Reg.UPD_CLEAN.TICKS ∧
    d.upd.healthy = some t ∧ d.upd.trialAt ≤ t ∧ d.time.tick ≤ t + 100) ∧
  (∃ (d : Dev) (_c : Nat), d.sys.phase = .up ∧ d.rd Reg.UPD_STAT.STATE = 4 ∧ d.runImage.restart = false) ∧
  (∃ (d : Dev) (_c : Nat), d.sys.phase = .up ∧ d.rd Reg.UPD_STAT.STATE = 4 ∧ d.runImage.restart = true) ∧
  (∃ (d : Dev) (_c : Nat), d.sys.phase = .up ∧ d.upd.trialAt + 3 * d.cfg.confWin ≤ d.time.tick ∧ d.rd Reg.UPD_STAT.STATE = 4 ∧
    d.runImage.restart = false) ∧
  (∃ (d : Dev) (_c : Nat), d.sys.phase = .up ∧ d.upd.trialAt + 3 * d.cfg.confWin ≤ d.time.tick ∧ d.rd Reg.UPD_STAT.STATE = 4 ∧
    d.runImage.restart = true) :=
  ⟨⟨tR [(0x1E0004, 0), (Reg.UPD_SRC_ADDR_LO.VALUE.off, 64)], false, by decide, by decide, by decide⟩,
    ⟨tR [(0x1E0004, 1)], some [], [], by decide, by decide, by decide⟩,
    ⟨tR [(0x1E0004, 1)], none, by decide, by decide, by decide⟩,
    ⟨{ tR [(0x10004, 0), (0x1E0004, 2), (Reg.UPD_APPLY_TICK.TICK.off, 8), (Reg.UPD_APPLY_TICK.TICK.off + 4, 0)] with upd := { store1 := some { version := 1 } } }, by decide, by decide, by decide, by decide, by decide, by decide⟩,
    ⟨tR [(0x1E0004, 3)], by decide, by decide, by decide⟩,
    ⟨{ tUp with upd := { swap := some { t := 0 } }, time := { tick := 16 } }, 15, { t := 0 }, by decide, by decide, by decide, by decide, by decide⟩,
    ⟨{ tUp with upd := { swap := some { t := 0, engines := List.range 16 } }, time := { tick := 17 } }, { t := 0, engines := List.range 16 }, by decide, by decide, by decide, by decide⟩,
    ⟨{ tR [(0x1E0004, 2)] with upd := { store1 := some { version := 1, restart := true } } }, 0, by decide, by decide, by decide⟩,
    ⟨tR [(0x1E0004, 2)], by decide, by decide⟩,
    ⟨tUp, by decide⟩,
    ⟨{ tR [(0x1E0004, 4), (0x1E0024, 0)] with upd := { healthy := some 0 }, time := { tick := 100 } }, 0, by decide, by decide, by decide, by decide, by decide, by decide⟩,
    ⟨tR [(0x1E0004, 4)], 0, by decide, by decide, by decide⟩,
    ⟨{ tR [(0x1E0004, 4)] with upd := { store0 := some { version := 1, restart := true } } }, 0, by decide, by decide, by decide⟩,
    ⟨tR [(0x1E0004, 4)], 0, by decide, by decide, by decide, by decide⟩,
    ⟨{ tR [(0x1E0004, 4)] with upd := { store0 := some { version := 1, restart := true } } }, 0, by decide, by decide, by decide, by decide⟩⟩

theorem witness_EventsAndPowerStatesComplete :
  (∃ (d : Dev), d.sys.phase = .up ∧ (d.evt.dram ++ d.evt.front).isEmpty = false ∧ d.ftlReady = true) ∧
  (∃ (d : Dev), d.sys.phase = .up) ∧
  (∃ (d : Dev) (n : Nat), (Instr.evtFetch n).wf = true ∧ d.sys.phase = .up) ∧
  (∃ (d : Dev) (n : Nat) (asRead : Option Bytes) (view req : Nat), (Instr.evtFetchDone n asRead).wf = true ∧ d.sys.phase = .up
    ∧ SMap.get (fun _ => none) d.evt.fetch n = some (view, req)) ∧
  (∃ (d : Dev), d.sys.phase = .up ∧ 0xF000 ≤ d.rd Reg.EVT_INJ.CODE) ∧
  (∃ (d : Dev) (p : Nat), (Instr.characterLock p).wf = true ∧ d.sys.phase = .up ∧ d.mode p = Canvas.mPLC ∧ d.isolated p =
    false) ∧
  (∃ (d : Dev) (p : Nat), (Instr.characterLock p).wf = true ∧ d.sys.phase = .up ∧ d.mode p = Canvas.mFIELDLINK ∧ d.isolated p
    = false) ∧
  (∃ (d : Dev) (l : LinkId), (Instr.blockLockLoss l).wf = true ∧ d.sys.phase = .up) ∧
  (∃ (a : Arrays) (d : Dev) (c : Nat) (ch : Nat), (Instr.dramPowerDown c ch).wf = true ∧ d.sys.phase = .up ∧ Canvas.f
    (d.advance c).cfg Canvas.tyPOWER 20 2 ≠ 0 ∧ a.chanDown.contains ch = false ∧ SMap.get (fun _ => 0) a.chanUse ch + 1000 *
    Canvas.f (d.advance c).cfg Canvas.tyPOWER 20 2 ≤ c) ∧
  (∃ (d : Dev) (lane : Nat) (c : Nat) (traffic : Bool), (Instr.laneSleep lane c traffic).wf = true ∧ d.sys.phase = .up) :=
  ⟨⟨{ tR [(0x1A0040, 0)] with evt := { front := [wEvt] } }, by decide, by decide, by decide⟩,
    ⟨tUp, by decide⟩,
    ⟨tUp, 63, by decide, by decide⟩,
    ⟨{ tUp with evt := { fetch := [(0, some (0, 0))] } }, 0, none, 0, 0, by decide, by decide, by decide⟩,
    ⟨tR [(Reg.EVT_INJ.CODE.off, 0x1F000)], by decide, by decide⟩,
    ⟨tC (wPorts 1) [(0x80008, 1)], 0, by decide, by decide, by decide, by decide⟩,
    ⟨tC (wPorts 3) [(0x80008, 1)], 0, by decide, by decide, by decide, by decide⟩,
    ⟨tUp, .lane 1, by decide, by decide⟩,
    ⟨{}, tC (wSect 0x0A (zeros 20 ++ [1, 0])) [], 1000, 3, by decide, by decide, by decide, by decide, by decide⟩,
    ⟨tUp, 0, 0, true, by decide, by decide⟩⟩

end Sys2Proof.Tests
end

section
/-!
PROOFS. The scope family: what the power-on reset leaves, the register file and its access types, and register accesses.
-/

namespace Sys2Proof.Machine

/-! ### Commands while the device is in operation -/

/-- In operation a gated command acts. -/
theorem Dev.whenUp_up {d : Dev} (g : Dev → Dev) (h : d.sys.phase = .up) : d.whenUp g = g d := if_pos h

/-- In operation a register write acts whatever the lock of the RTC. -/
theorem Dev.whenRtc_up {d : Dev} (off : Nat) (g : Dev → Dev) (h : d.sys.phase = .up) : d.whenRtc off g = g d := if_pos h

/-- A command that acts while the device is in operation completes there, for operands that exist, with what it does. -/
theorem runs_whenUp {i : Instr} {d : Dev} {g : Dev → Dev} (h : ∀ s : State, exec i s = act s i fun e => e.whenUp g)
    (hw : i.wf = true) (hup : d.sys.phase = .up) : Runs i d (g d) :=
  runs_act h hw (Dev.whenUp_up g hup)

/-! ### The register space of a function -/

/-- Below the MSI-X area a write of a function is a write of its seat to the register space (R19, R284). -/
theorem Dev.pcieWrite_register {d : Dev} {n off : Nat} (v : Word) (c : Nat) (items : List Bytes)
    (hf : d.hasFunction n = true) (ho : off < msixTable) : d.pcieWrite n off v c items = d.seatWrite n off v c items := by
  have hb : ¬ bar2 ≤ off := by unfold msixTable at ho; unfold bar2; omega
  have hm : ¬ msixTable ≤ off := by omega
  simp [Dev.pcieWrite, hf, hb, inMsix, hm]

/-- Below the MSI-X area a read of a function is a read of its seat in the register space (R19, R284). -/
theorem Dev.pcieRead_register {d : Dev} {n off : Nat} (a : Arrays) (c : Nat) (hf : d.hasFunction n = true)
    (ho : off < msixTable) : d.pcieRead a n off c = d.seatRead a n off c := by
  have hb : ¬ bar2 ≤ off := by unfold msixTable at ho; unfold bar2; omega
  have hm : ¬ msixTable ≤ off := by omega
  simp [Dev.pcieRead, hf, hb, inMsix, hm]

/-- REG_WRITE by a seat's function below the MSI-X area completes as the seat's write of the register there. -/
theorem runs_regWrite_seat {d : Dev} {n off : Nat} {v : Word} {c : Nat} {items : List Bytes}
    (hw : (Instr.regWrite (.seat n) off v c items).wf = true) (hup : d.sys.phase = .up) (hf : d.hasFunction n = true)
    (ho : off < msixTable) : Runs (.regWrite (.seat n) off v c items) d (d.seatWrite n off v c items) :=
  runs_act (g := fun d => d.whenRtc off fun d => d.agentWrite (.seat n) off v c items) (fun _ => rfl) hw
    ((Dev.whenRtc_up off _ hup).trans (Dev.pcieWrite_register v c items hf ho))

/-- A write to a register hidden from the seat is counted (R21). -/
theorem Dev.seatWrite_hidden {d : Dev} {n off c : Nat} (v : Word) (items : List Bytes)
    (h : (d.advance c).spot n off = .hidden) : d.seatWrite n off v c items = (d.advance c).violate n := by
  simp only [Dev.seatWrite, h]

/-- A write to a register that the seat reaches acts on the entry and copy reached. -/
theorem Dev.seatWrite_reach {d : Dev} {n off c i cp : Nat} {r : RegRow} (v : Word) (items : List Bytes)
    (h : (d.advance c).spot n off = .reach r i cp) :
    d.seatWrite n off v c items = (d.advance c).writeReg n r ((off - r.off) / r.stride) i cp v c items := by
  simp only [Dev.seatWrite, h]

/-- A read of a register that the seat sees reads the entry and copy seen. -/
theorem Dev.seatRead_seen {d : Dev} {n off c i cp : Nat} {r : RegRow} (a : Arrays)
    (h : (d.advance c).spot n off = .reach r i cp ∨ (d.advance c).spot n off = .look r i cp) :
    d.seatRead a n off c = (d.advance c).readReg a n r i cp c := by
  rcases h with h | h <;> simp only [Dev.seatRead, h]

/-- READ_CLEAR of a register that the seat sees completes as the read of the entry and copy seen. -/
theorem exec_readClear_seen {q : List Instr} {a : Arrays} {d : Dev} {n off c i cp : Nat} {r : RegRow}
    (hw : (Instr.readClear (.seat n) off c).wf = true) (hup : d.sys.phase = .up) (hf : d.hasFunction n = true)
    (ho : off < msixTable) (h : (d.advance c).spot n off = .reach r i cp ∨ (d.advance c).spot n off = .look r i cp) :
    exec (.readClear (.seat n) off c) ⟨q, a, d⟩ = .next ⟨q, a, (d.advance c).readReg a n r i cp c⟩ := by
  have hd : d.whenUp (fun d => d.agentRead a (.seat n) off c) = (d.advance c).readReg a n r i cp c := by
    rw [Dev.whenUp_up _ hup, ← Dev.seatRead_seen a h]
    exact Dev.pcieRead_register a c hf ho
  rw [← hd]
  exact if_pos hw

/-- An access that is neither 32 bits wide and aligned nor a pair of MSI-X words sets its block's ACCESS bit; a read of it
returns all ones (R11). -/
theorem Dev.misaligned_narrow (d : Dev) (n : Nat) {off len : Nat} (wdata : Option Nat)
    (h8 : ¬ (inMsix off = true ∧ len = 8 ∧ off % 8 = 0)) (h4 : ¬ (len = 4 ∧ off % 4 = 0)) :
    d.misaligned n off len wdata =
      (let d1 := d.raise (accessSticky (if off < 0x200000 then off else 0x70000))
       if wdata.isSome then d1 else d1.answer 0xFFFFFFFF) := by
  unfold Dev.misaligned
  rw [if_neg h8, if_neg h4]

/-- Settles O8: each access completes by the spot it lands on, and the latched reads by their own meaning. -/
theorem registerAccessesComplete : Obligations.RegisterAccessesComplete := by
  refine ⟨?hidden, ?reach, ?misaligned, ?read, ?ns32, ?secHi, ?tickLo, ?vaultCnt, ?rtc⟩
  case hidden =>
    intro d off v c items n hw hup hf ho hs
    exact Dev.seatWrite_hidden v items hs ▸ runs_regWrite_seat hw hup hf ho
  case reach =>
    intro d off v c items n r i cp hw hup hf ho hs
    exact Dev.seatWrite_reach v items hs ▸ runs_regWrite_seat hw hup hf ho
  case misaligned =>
    intro d n off len wdata hw hup h8 h4
    exact Dev.misaligned_narrow d n wdata h8 h4 ▸ runs_whenUp (fun _ => rfl) hw hup
  case read => exact fun q a d off c n r i cp hw hup hf ho hs => exec_readClear_seen hw hup hf ho hs
  case ns32 => exact fun d n c hw hup => runs_whenUp (g := fun d => d.timeNs32Read n c) (fun _ => rfl) hw hup
  case secHi => exact fun d n hw hup => runs_whenUp (g := fun d => d.timeSecHiRead n) (fun _ => rfl) hw hup
  case tickLo => exact fun d n c cnt hw hup => runs_whenUp (g := fun d => d.tickLoRead n c cnt) (fun _ => rfl) hw hup
  case vaultCnt => exact fun d n hw hup => runs_whenUp (g := fun d => d.vaultCntLoRead n) (fun _ => rfl) hw hup
  case rtc => exact fun d n hw hup => runs_whenUp (g := fun d => d.rtcSecHiRead n) (fun _ => rfl) hw hup

/-! ### What the reset leaves -/

/-- A map reads its default at a key it does not list. -/
theorem SMap.get_of_not_mem_keys {α : Type} (d : Nat → α) {m : SMap α} {k : Nat} (h : k ∉ SMap.keys m) :
    SMap.get d m k = d k := by
  induction m with
  | nil => rfl
  | cons p m ih =>
    obtain ⟨hk, hm⟩ : k ≠ p.1 ∧ k ∉ SMap.keys m := by simpa [SMap.keys] using h
    simp [SMap.get, hk, ih hm]

/-- The registers that L0 sets apart from their columns are those of the effective reset map. -/
theorem resetMapCompact_keys : ∀ k ∈ SMap.keys resetMapCompact, 0x44 ≤ k ∧ k < 0x6C := by decide

/-- After the power-on reset a register outside the effective reset map holds its value at L0 (R12, R367). -/
theorem reset_word {off cp : Nat} (ho : off < 2 ^ 24) (h : ¬ (cp = 0 ∧ 0x44 ≤ off ∧ off < 0x6C)) :
    State.reset.dev.word off cp = regDefault (cp * 2 ^ 24 + off) := by
  refine SMap.get_of_not_mem_keys _ fun hk => h ?_
  obtain ⟨hlo, hhi⟩ := resetMapCompact_keys _ hk
  omega

/-- Settles O5: the reset state lists no register but the effective reset map, and counter 3 has been advanced once. -/
theorem resetState : Obligations.ResetState :=
  ⟨rfl, rfl, rfl, rfl, rfl, rfl, rfl, rfl, rfl, fun _ _ => reset_word, rfl⟩

/-! ### The register file -/

/-- Settles O40: by the laws of the register file, one for each clause. -/
theorem registerReadsBack : Obligations.RegisterReadsBack := by
  intro d F v i cp h1 h2
  exact ⟨Dev.rd_wr_same d F v i cp h1 h2, fun G j c => Dev.rd_wr_other d F G v i cp j c,
    fun G j hw g1 g2 g3 => Dev.rd_wr_disjoint d F G v i cp j hw h1 h2 g1 g2 g3, Dev.wr_inner d F v i cp⟩

/-! ### Plain writes -/

/-- A write of a register that no action takes is made by its access types alone. -/
theorem Dev.writeReg_plain {d : Dev} {n i c : Nat} {r : RegRow} {v : Word} {items : List Bytes} (k cp : Nat)
    (hb : r.off ≠ Reg.MBX_DOORBELL.BIT.off) (hu : r.off ≠ Reg.MBX_UNLOCK.REL.off)
    (hsys : d.writeSys n r.off i v.toNat c = none) (hwork : d.writeWork n r.off i v.toNat = none)
    (hseats : d.writeSeats n r.off i v.toNat c items = none) : d.writeReg n r k i cp v c items = d.plainWrite r i cp v := by
  simp [Dev.writeReg, hb, hu, hsys, hwork, hseats]

/-- What a seat reaches of a row is an entry of that row. -/
theorem Dev.row_of_spotAt {d : Dev} {n i j cp : Nat} {r r' : RegRow} (h : d.spotAt n r i = .reach r' j cp) : r' = r := by
  unfold Dev.spotAt at h
  repeat' split at h
  all_goals cases h <;> rfl

/-- An entry of a register with a copy for each seat is reached in the seat's own copy (R402, R403). -/
theorem Dev.copy_of_spotAt {d : Dev} {n i j cp : Nat} {r r' : RegRow} (h : d.spotAt n r i = .reach r' j cp) (hv : r'.view = .o) :
    cp = n := by
  obtain rfl := Dev.row_of_spotAt h
  simp only [Dev.spotAt, hv] at h
  cases h
  rfl

/-- Where an access reaches a register with a copy for each seat, it reaches the seat's own. -/
theorem Dev.copy_of_spot {d : Dev} {n off i cp : Nat} {r : RegRow} (h : d.spot n off = .reach r i cp) (hv : r.view = .o) :
    cp = n := by
  have hb : blankFor n ≠ .reach r i cp := by unfold blankFor; split <;> simp
  unfold Dev.spot at h
  split at h
  · cases h
  · dsimp only at h
    split at h
    · exact absurd h hb
    · split at h
      · exact absurd h hb
      · exact Dev.copy_of_spotAt h hv

/-- Settles O43: the write is a plain one, and a plain write puts one word into the register file. -/
theorem plainWriteFrame : Obligations.PlainWriteFrame := by
  intro d n off c v items r i cp hn h4 hup hf ho hs hb hu hsys hwork hseats
  refine ⟨Dev.copy_of_spot hs, (d.advance c).plainWrite r i cp v, ?runs, ?inner, ?out, ?evt, ?mbx, ?seats, ?word, ?others⟩
  case runs =>
    have hw : (Instr.regWrite (.seat n) off v c items).wf = true := by simp [Instr.wf, Agent.ok, hn, h4]
    rw [← Dev.writeReg_plain ((off - r.off) / r.stride) cp hb hu hsys hwork hseats, ← Dev.seatWrite_reach v items hs]
    exact runs_regWrite_seat hw hup hf ho
  case inner => exact Dev.setWord_inner _ _ _ _
  case out => exact (Dev.setWord_out _ _ _ _).trans (Dev.advance_out d c)
  case evt => exact (Dev.setWord_evt _ _ _ _).trans (Dev.advance_evt d c)
  case mbx => exact (Dev.setWord_mbx _ _ _ _).trans (Dev.advance_mbx d c)
  case seats => exact (Dev.setWord_seats _ _ _ _).trans (Dev.advance_seats d c)
  case word =>
    rw [← Dev.word_congr (Dev.advance_regs d c)]
    exact Dev.word_setWord_same _ _ _ _
  case others =>
    exact fun o k hk => (Dev.word_setWord_other _ _ hk).trans (Dev.word_congr (Dev.advance_regs d c) o k)

/-! ### Access types, bit by bit -/

/-- Does bit `j` belong to a field? -/
def FieldDef.holds (f : FieldDef) (j : Nat) : Bool := decide (f.lo ≤ j) && decide (j ≤ f.hi)

theorem FieldDef.holds_iff {f : FieldDef} {j : Nat} : f.holds j = true ↔ f.lo ≤ j ∧ j ≤ f.hi := by
  simp [FieldDef.holds]

/-- Two fields share no bit. -/
abbrev FieldDef.Apart (f g : FieldDef) : Prop := f.hi < g.lo ∨ g.hi < f.lo

theorem FieldDef.Apart.not_both {f g : FieldDef} (h : f.Apart g) {j : Nat} (hf : f.holds j = true) : g.holds j = false := by
  rw [← Bool.not_eq_true, FieldDef.holds_iff]
  rw [FieldDef.holds_iff] at hf
  omega

/-- What a write makes of a bit, by the access type of its field (R9). -/
def Acc.written (acc : Acc) (old new : Bool) : Bool :=
  match acc with
  | .rw => new
  | .w1c | .rws => old && !new
  | .ro | .wo | .rc => old

/-- No two fields of a register share a bit. -/
theorem regRows_fields_apart : ∀ r ∈ regRows, r.fields.Pairwise FieldDef.Apart := by decide +kernel

/-- The mask of a field has the field's bits. -/
theorem testBit_maskOf (f : FieldDef) (j : Nat) : (maskOf f.hi f.lo).testBit j = f.holds j := by
  unfold maskOf
  rcases Nat.lt_or_ge f.hi f.lo with h | h
  · have hp : 2 ^ (f.hi + 1) ≤ 2 ^ f.lo := Nat.pow_le_pow_right (by decide) h
    rw [Nat.sub_eq_zero_of_le hp, Nat.zero_testBit, eq_comm, ← Bool.not_eq_true, FieldDef.holds_iff]
    omega
  · have hp : 2 ^ f.lo < 2 ^ (f.hi + 1) := Nat.pow_lt_pow_right (by decide) (by omega)
    have hs : 2 ^ (f.hi + 1) - 2 ^ f.lo = 2 ^ (f.hi + 1) - (2 ^ f.lo - 1 + 1) := by
      rw [Nat.sub_add_cancel Nat.one_le_two_pow]
    rw [hs, Nat.testBit_two_pow_sub_succ (by omega), Nat.testBit_two_pow_sub_one, Bool.eq_iff_iff, FieldDef.holds_iff]
    simp only [Bool.and_eq_true, decide_eq_true_eq, Bool.not_eq_true', decide_eq_false_iff_not]
    omega

/-- A mask gathered over the fields that `p` picks has the bits of those fields. -/
theorem testBit_foldl_mask {g : Nat → FieldDef → Nat} {p : FieldDef → Bool}
    (hg : ∀ m f, g m f = if p f then m ||| maskOf f.hi f.lo else m) (fs : List FieldDef) (m j : Nat) :
    (fs.foldl g m).testBit j = (m.testBit j || fs.any fun f => p f && f.holds j) := by
  induction fs generalizing m with
  | nil => simp
  | cons f fs ih =>
    rw [List.foldl_cons, ih, hg, List.any_cons]
    cases p f <;> simp [testBit_maskOf, Bool.or_assoc]

theorem testBit_readMask (fs : List FieldDef) (j : Nat) :
    (readMask fs).testBit j = fs.any fun f => f.acc != .wo && f.holds j := by
  rw [readMask, testBit_foldl_mask (p := fun f => f.acc != .wo) (fun m f => by cases f.acc <;> rfl), Nat.zero_testBit,
    Bool.false_or]

theorem testBit_clearMask (fs : List FieldDef) (j : Nat) :
    (clearMask fs).testBit j = fs.any fun f => f.acc == .rc && f.holds j := by
  rw [clearMask, testBit_foldl_mask (p := fun f => f.acc == .rc) (fun m f => by cases f.acc <;> rfl), Nat.zero_testBit,
    Bool.false_or]

/-- Of a bit of no field no field says anything. -/
theorem any_holds_reserved {fs : List FieldDef} {j : Nat} (h : ∀ f ∈ fs, f.holds j = false) (p : FieldDef → Bool) :
    (fs.any fun f => p f && f.holds j) = false := by
  rw [List.any_eq_false]
  intro f hf
  simp [h f hf]

/-- Of the fields that hold a bit there is one, so what any of them says the one says. -/
theorem any_holds_field {fs : List FieldDef} (ha : fs.Pairwise FieldDef.Apart) {f : FieldDef} (hf : f ∈ fs) {j : Nat}
    (hj : f.holds j = true) (p : FieldDef → Bool) : (fs.any fun g => p g && g.holds j) = p f := by
  induction fs with
  | nil => cases hf
  | cons g fs ih =>
    obtain ⟨hg, hfs⟩ := List.pairwise_cons.1 ha
    rw [List.any_cons]
    rcases List.mem_cons.1 hf with rfl | hf
    · rw [any_holds_reserved fun k hk => (hg k hk).not_both hj, hj, Bool.and_true, Bool.or_false]
    · rw [ih hfs hf, FieldDef.Apart.not_both (hg f hf).symm hj, Bool.and_false, Bool.false_or]

theorem testBit_readWord (fs : List FieldDef) (w : Word) (j : Nat) :
    (readWord fs w).testBit j = ((fs.any fun f => f.acc != .wo && f.holds j) && w.getLsbD j) := by
  rw [readWord, Nat.testBit_and, testBit_readMask, BitVec.testBit_toNat, Bool.and_comm]

/-- Clearing the bits of a mask. -/
theorem getLsbD_and_not (w m : Word) {j : Nat} (hj : j < 32) : (w &&& ~~~m).getLsbD j = (w.getLsbD j && !m.getLsbD j) := by
  rw [BitVec.getLsbD_and, BitVec.getLsbD_not, decide_eq_true hj, Bool.true_and]

theorem getLsbD_clearedWord (fs : List FieldDef) (w : Word) {j : Nat} (hj : j < 32) :
    (clearedWord fs w).getLsbD j = (!(fs.any fun f => f.acc == .rc && f.holds j) && w.getLsbD j) := by
  rw [clearedWord, getLsbD_and_not _ _ hj, BitVec.getLsbD_ofNat, testBit_clearMask, decide_eq_true hj, Bool.true_and,
    Bool.and_comm]

/-- A write acts on the bits of a field by its access type, and on no other. -/
theorem getLsbD_writeField (v w : Word) (f : FieldDef) {j : Nat} (hj : j < 32) :
    (writeField v w f).getLsbD j = if f.holds j then f.acc.written (w.getLsbD j) (v.getLsbD j) else w.getLsbD j := by
  have hm : (BitVec.ofNat 32 (maskOf f.hi f.lo)).getLsbD j = f.holds j := by
    rw [BitVec.getLsbD_ofNat, testBit_maskOf, decide_eq_true hj, Bool.true_and]
  unfold writeField Acc.written
  cases f.acc
  case rw =>
    simp only [BitVec.getLsbD_or, getLsbD_and_not w _ hj, BitVec.getLsbD_and, hm]
    cases f.holds j <;> simp
  case w1c | rws =>
    simp only [getLsbD_and_not w _ hj, BitVec.getLsbD_and, hm]
    cases f.holds j <;> simp
  case ro | wo | rc => exact (ite_self _).symm

/-- A bit of no field keeps its value in a write. -/
theorem getLsbD_writeWord_reserved {fs : List FieldDef} {j : Nat} (h : ∀ f ∈ fs, f.holds j = false) (w v : Word)
    (hj : j < 32) : (writeWord fs w v).getLsbD j = w.getLsbD j := by
  induction fs generalizing w with
  | nil => rfl
  | cons f fs ih =>
    obtain ⟨hf, hfs⟩ := List.forall_mem_cons.1 h
    show (writeWord fs (writeField v w f) v).getLsbD j = _
    rw [ih hfs, getLsbD_writeField _ _ _ hj, hf, if_neg Bool.false_ne_true]

/-- A bit of a field is written by the field's access type. -/
theorem getLsbD_writeWord_field {fs : List FieldDef} (ha : fs.Pairwise FieldDef.Apart) {f : FieldDef} (hf : f ∈ fs) {j : Nat}
    (hh : f.holds j = true) (w v : Word) (hj : j < 32) :
    (writeWord fs w v).getLsbD j = f.acc.written (w.getLsbD j) (v.getLsbD j) := by
  induction fs generalizing w with
  | nil => cases hf
  | cons g fs ih =>
    obtain ⟨hg, hfs⟩ := List.pairwise_cons.1 ha
    show (writeWord fs (writeField v w g) v).getLsbD j = _
    rcases List.mem_cons.1 hf with rfl | hf
    · rw [getLsbD_writeWord_reserved (fun k hk => (hg k hk).not_both hh) _ _ hj, getLsbD_writeField _ _ _ hj, if_pos hh]
    · rw [ih hfs hf, getLsbD_writeField _ _ _ hj, FieldDef.Apart.not_both (hg f hf).symm hh, if_neg Bool.false_ne_true]

/-- Settles O41: no two fields of a row share a bit, so the one field of a bit decides it, and none does a reserved one. -/
theorem accessTypes : Obligations.AccessTypes := by
  intro r hr w v j hj
  have ha := regRows_fields_apart r hr
  rw [testBit_readWord, getLsbD_clearedWord _ _ hj]
  constructor
  · intro f hf hlo hhi
    have hh : f.holds j = true := FieldDef.holds_iff.2 ⟨hlo, hhi⟩
    rw [getLsbD_writeWord_field ha hf hh w v hj, any_holds_field ha hf hh, any_holds_field ha hf hh]
    exact ⟨rfl, rfl, rfl⟩
  · intro hnone
    have hh : ∀ f ∈ r.fields, f.holds j = false := fun f hf => by
      rw [← Bool.not_eq_true, FieldDef.holds_iff]
      exact hnone f hf
    rw [any_holds_reserved hh, any_holds_reserved hh, getLsbD_writeWord_reserved hh w v hj, Bool.not_false, Bool.true_and,
      Bool.false_and]
    exact ⟨rfl, rfl, rfl⟩

end Sys2Proof.Machine
end

section
/-!
PROOFS. The family of dataflow and ordering: the ledger engines' commands, and the fences of a seat.
-/

namespace Sys2Proof.Machine

/-! ### Commands while the seats are open -/

/-- While the seats are open a command of the ledger engines acts. -/
theorem Dev.whenOpen_open {d : Dev} (g : Dev → Dev) (hup : d.sys.phase = .up) (hs : d.step = 0) : d.whenOpen g = g d :=
  if_pos ⟨hup, hs⟩

/-- A command of the ledger engines completes while the seats are open, for operands that exist, with what it does. -/
theorem runs_whenOpen {i : Instr} {d e : Dev} {g : Dev → Dev} (h : ∀ s : State, exec i s = act s i fun d => d.whenOpen g)
    (hw : i.wf = true) (hup : d.sys.phase = .up) (hs : d.step = 0) (he : g d = e) : Runs i d e :=
  runs_act h hw ((Dev.whenOpen_open g hup hs).trans he)

/-! ### What a seat holds -/

/-- A changed seat holds what the change made of it. -/
@[simp] theorem Dev.seat_onSeat_same (d : Dev) (n : Nat) (g : SeatSt → SeatSt) : (d.onSeat n g).seat n = g (d.seat n) :=
  SMap.get_set_same _ _ _ _

/-! ### Ledger fences (R25, R28, R30) -/

/-- The fence that a write of LDG_FENCE asks for: it cuts the seat's admission sequence where it stands. -/
def Dev.fenceOf (d : Dev) (n v : Nat) : Fence :=
  { tag := bitsOf v 15 0, mark := bitOf v 16, notify := bitOf v 17, db := bitsOf v 22 18, cut := (d.seat n).nextAseq,
    tick := d.time.tick }

/-- With 4 fences outstanding a write of LDG_FENCE is rejected. -/
theorem Dev.ldgFence_full {d : Dev} {n : Nat} (v : Nat) (h : 4 ≤ (d.seat n).fences.length) :
    d.ldgFence n v = d.raiseCopy Stk.LDG_FENCE_STAT.REJ n := if_pos (.inl h)

/-- With fewer, a fence that notifies no bit of the device's own joins the seat's fences at the end. -/
theorem Dev.ldgFence_joins {d : Dev} {n v : Nat} (h : (d.seat n).fences.length < 4)
    (hb : ¬ (bitOf v 17 = true ∧ 28 ≤ bitsOf v 22 18)) :
    d.ldgFence n v = (d.onSeat n fun s => { s with fences := s.fences ++ [d.fenceOf n v] }).wr
      Reg.LDG_FENCE_STAT.OUTSTANDING ((d.seat n).fences.length + 1) 0 n :=
  if_neg fun hr => hr.elim (Nat.not_le.2 h) hb

/-- LDG_FENCE_STAT lies outside EVENTS and MAILBOX. -/
theorem fenceStat_quiet : quietOff Stk.LDG_FENCE_STAT.REJ.fld.off := .inr (by decide)

/-- A rejected fence sets the seat's own REJ. -/
theorem Dev.on_rej_raiseCopy (d : Dev) (n : Nat) :
    (d.raiseCopy Stk.LDG_FENCE_STAT.REJ n).on Reg.LDG_FENCE_STAT.REJ 0 n = true := by
  have hlost : Reg.EVT_LOST.FB_LOST.off < Stk.LDG_FENCE_STAT.REJ.fld.off := by decide
  have hoverwrite : Stk.EVT.FB_OVERWRITE.fld.off < Stk.LDG_FENCE_STAT.REJ.fld.off := by decide
  refine Dev.on_raiseIn d Stk.LDG_FENCE_STAT.REJ 0 n n n [] rfl (by decide) ?free ?lost ?overwrite
  case free => exact ringFree_of_quiet fenceStat_quiet n
  case lost => omega
  case overwrite => omega

/-- Settles O54: a write beyond the fourth fence raises REJ, which touches no fence; any other writes the seat and OUTSTANDING. -/
theorem fenceLimit : Obligations.FenceLimit := by
  intro d n v hw hup
  have hruns : Runs (.ldgFence n v) d (d.ldgFence n v) := runs_whenUp (g := fun d => d.ldgFence n v) (fun _ => rfl) hw hup
  constructor
  · intro hfull
    rw [Dev.ldgFence_full v hfull] at hruns
    exact ⟨_, hruns, Dev.seat_raiseIn SeatSt.fences (fun _ _ => rfl) d _ _ _ _ _ _ _ n, Dev.on_rej_raiseCopy d n,
      Dev.raiseCopy_inner d _ n _⟩
  · intro hroom hbit
    rw [Dev.ldgFence_joins hroom hbit] at hruns
    refine ⟨_, d.fenceOf n v, hruns, ?joined, rfl, rfl, rfl, ?count, ?inner⟩
    case joined => rw [Dev.seat_congr (Dev.wr_seats _ _ _ _ _), Dev.seat_onSeat_same]
    case count =>
      have hfits : (d.seat n).fences.length + 1 < 2 ^ 3 := by omega
      rw [Dev.rd_wr_same _ _ _ _ _ (by decide) (by decide)]
      exact Nat.mod_eq_of_lt hfits
    case inner => rw [Dev.wr_inner, Dev.onSeat_inner]

/-! ### What an engine takes from its queues (R57, R176, R193, R212) -/

/-- An engine that may dispatch, with no catch-up close ahead, takes its next item if the item passes the command's test. -/
theorem Dev.takeItem_next {d d1 : Dev} {e cost : Nat} {q : QItem} {ok : Work → Bool} (g : Dev → QItem → Dev)
    (hm : d.mayDispatch e 2000 = true) (hc : d.catchSlots e = []) (hcost : cost ≤ 2000) (hq : d.nextItem e = some (q, d1))
    (hok : ok q.work = true) :
    d.takeItem e cost ok g = (g (d1.onEng e fun s => { s with used := s.used + cost }) q).carryWatch e := by
  simp [Dev.takeItem, hm, hc, Nat.not_lt.2 hcost, hq, hok]

/-! ### Closes (R35, R65, R67) -/

/-- An active device closes a slot's due boundary where the budget allows it: one that was spilt, or any once no late work is
left. -/
theorem Dev.sweepClose_due {d : Dev} {slot cost : Nat} {b : Bound} (ha : d.isActive = true)
    (hc : (d.ledger slot).catching = false) (hcost : cost ≤ 4000) (hbud : (d.eng (d.engOf slot)).used + cost ≤ d.budget)
    (hlate : (d.ldg.spill.any fun s => s.1 == slot) = true ∨ d.lateWork = false) (hb : d.dueBound slot = some b) :
    d.sweepClose slot cost =
      (let d1 := d.onEng (d.engOf slot) fun s => { s with used := s.used + cost, mand := s.mand + cost }
       (({ d1 with ldg := { d1.ldg with spill := d1.ldg.spill.filter fun s => s.1 != slot } } : Dev).closeAt slot b).catchNext
        slot) := by
  have hfirst : (!(d.ldg.spill.any fun s => s.1 == slot) && d.lateWork) = false := by
    rcases hlate with h | h <;> simp [h]
  simp [Dev.sweepClose, ha, hc, Nat.not_lt.2 hcost, Nat.not_lt.2 hbud, hfirst, hb]

/-- An engine that may dispatch closes the due boundary of the first slot that catches up. -/
theorem Dev.catchupClose_due {d : Dev} {e cost slot : Nat} {b : Bound} (ha : d.isActive = true)
    (hm : d.mayDispatch e 4000 = true) (hcost : cost ≤ 4000) (hs : (d.catchSlots e).head? = some slot)
    (hb : d.dueBound slot = some b) :
    d.catchupClose e cost =
      (let d1 := d.onEng e fun x => { x with used := x.used + cost }
       ((d1.noteCaught (d1.owner slot) b).closeAt slot b).catchNext slot) := by
  simp [Dev.catchupClose, ha, hm, Nat.not_lt.2 hcost, hs, hb]

/-! ### Orders (R193) -/

/-- GO over a range of the seat's own slots, with corrected time valid and no range under way, admits an order for each slot. -/
theorem Dev.rerateGo_range {d : Dev} {n x y : Nat} (hv : d.on Reg.TIME_STAT.VALID = true)
    (hbusy : d.on Reg.LDG_RERATE_CTL.BUSY 0 n = false) (hx : d.rd Reg.LDG_RERATE_FIRST.SLOT 0 n = x)
    (hy : d.rd Reg.LDG_RERATE_LAST.SLOT 0 n = y) (hxy : x ≤ y) (hlen : y < x + 65536) (hxn : d.cfg.seatOfSlot x = some n)
    (hyn : d.cfg.seatOfSlot y = some n) :
    d.rerateGo n =
      (let go := SMap.get (fun _ => 0) d.ldg.rerateGo n + 1
       (List.range (y + 1 - x)).foldl (fun d i => d.admitOrder (x + i) n (.rerate go))
        { d.wr Reg.LDG_RERATE_CTL.BUSY 1 0 n with ldg := { d.ldg with
          rerate := SMap.set (fun _ => 0) d.ldg.rerate n (y + 1 - x),
          rerateGo := SMap.set (fun _ => 0) d.ldg.rerateGo n go } }) := by
  have hshort : ¬ 65536 < y + 1 - x := by omega
  subst hx hy
  simp [Dev.rerateGo, hv, hbusy, hxn, hyn, hxy, hshort]

/-- Settles O17: each command acts by its gate, and the branch that its conditions choose gives what it leaves. -/
theorem ledgersComplete : Obligations.LedgersComplete := by
  refine ⟨?decode, ?unpark, ?apply, ?sweep, ?sweepSpilt, ?catchup, ?repairDone, ?repairTimeout, ?reinit, ?shadow, ?install,
    ?fence, ?rerateGo, ?rerateApply, ?billingAction, ?billingApply, ?readout⟩
  case decode => exact fun d its push asRead p hup hs _ _ => runs_whenOpen (fun _ => rfl) rfl hup hs rfl
  case unpark =>
    exact fun d e hw hup hs hrun => runs_whenOpen (fun _ => rfl) hw hup hs (if_neg (by simp [hrun]))
  case apply =>
    intro d e cost bad asRead q d1 rb chk hw hup hs hm hc hcost hq hwork
    exact runs_whenOpen (fun _ => rfl) hw hup hs (Dev.takeItem_next _ hm hc hcost hq (by rw [hwork]))
  case sweep =>
    intro d slot cost b hw hup hs ha hc hcost hbud hlate hb
    exact runs_whenOpen (fun _ => rfl) hw hup hs (congrArg Dev.beatNow (Dev.sweepClose_due ha hc hcost hbud (.inr hlate) hb))
  case sweepSpilt =>
    intro d slot cost b hw hup hs ha hc hcost hbud hspilt hb
    exact runs_whenOpen (fun _ => rfl) hw hup hs (congrArg Dev.beatNow (Dev.sweepClose_due ha hc hcost hbud (.inl hspilt) hb))
  case catchup =>
    intro d e cost slot b hw hup hs ha hm hcost hslot hb
    exact runs_whenOpen (fun _ => rfl) hw hup hs (Dev.catchupClose_due ha hm hcost hslot hb)
  case repairDone => exact fun d slot partner hw hup hs _ => runs_whenOpen (fun _ => rfl) hw hup hs rfl
  case repairTimeout => exact fun d slot hw hup hs hst hold => runs_whenOpen (fun _ => rfl) hw hup hs (if_pos ⟨hst, hold⟩)
  case reinit => exact fun d hup hs hst => runs_whenOpen (fun _ => rfl) rfl hup hs (if_neg (not_not.2 hst))
  case shadow => exact fun d cost cmp x xs hup hs _ _ _ _ => runs_whenOpen (fun _ => rfl) rfl hup hs rfl
  case install => exact fun d slot k hw hup hs _ _ => runs_whenOpen (fun _ => rfl) hw hup hs rfl
  case fence =>
    intro d n v hw hup hroom hbit
    have hown : ¬ (bitOf v 17 = true ∧ 28 ≤ bitsOf v 22 18) := by
      rintro ⟨hnotify, hdb⟩
      exact hbit.elim (by simp [hnotify]) (Nat.not_lt.2 hdb)
    exact Dev.ldgFence_joins hroom hown ▸ runs_whenUp (fun _ => rfl) hw hup
  case rerateGo =>
    intro d n x y hw hup hv hbusy hx hy hxy hlen hxn hyn
    exact Dev.rerateGo_range hv hbusy hx hy hxy hlen hxn hyn ▸ runs_whenUp (fun _ => rfl) hw hup
  case rerateApply =>
    intro d e cost q d1 go hw hup hs hm hc hcost hq hwork
    exact runs_whenOpen (fun _ => rfl) hw hup hs (Dev.takeItem_next _ hm hc hcost hq (by rw [hwork]))
  case billingAction =>
    intro d n slot hw hup hv
    have hact : d.billingAction n slot = (d.admitOrder slot n .billing, actOk) := if_pos hv
    have hruns := runs_whenUp (i := .billingCloseAction n slot) (fun _ => rfl) hw hup
    rwa [hact] at hruns
  case billingApply =>
    intro d e cost q d1 hw hup hs hm hc hcost hq hwork
    exact runs_whenOpen (fun _ => rfl) hw hup hs (Dev.takeItem_next _ hm hc hcost hq (by rw [hwork]; rfl))
  case readout => exact fun d n r rs hw hup _ _ => runs_whenUp (g := fun d => d.readoutRequest n) (fun _ => rfl) hw hup

end Sys2Proof.Machine
end

section
/-!
PROOFS. The family of ticks and time: the tick, the journal and completed fences, the corrected time base, the triggers and the
real-time clock.
-/

namespace Sys2Proof.Machine

/-! ### Commands that complete with a state given -/

/-- A gated command completes in operation with whatever its body is known to give. -/
theorem runs_whenUp_to {i : Instr} {d e : Dev} {g : Dev → Dev} (h : ∀ s : State, exec i s = act s i fun d => d.whenUp g)
    (hw : i.wf = true) (hup : d.sys.phase = .up) (he : g d = e) : Runs i d e :=
  he ▸ runs_whenUp h hw hup

/-- A command on the RTC's registers completes in operation with whatever its body is known to give. -/
theorem runs_whenRtc_to {i : Instr} {d e : Dev} {off : Nat} {g : Dev → Dev}
    (h : ∀ s : State, exec i s = act s i fun d => d.whenRtc off g) (hw : i.wf = true) (hup : d.sys.phase = .up)
    (he : g d = e) : Runs i d e :=
  runs_act h hw ((Dev.whenRtc_up off g hup).trans he)

/-! ### The rate of corrected time (R69) -/

/-- A number of 64 bits is its own two's-complement reading. -/
theorem wrap64_of_fits {x : Int} (hlo : -(2 ^ 63) ≤ x) (hhi : x < 2 ^ 63) : wrap64 x = x := by
  unfold wrap64 wrapI sgn
  dsimp only
  split <;> omega

/-- Of the rate's term nothing has accrued at the counter value C_A itself. -/
theorem Dev.accrued_at_ca (d : Dev) : d.accrued d.time.ca = 0 := by
  simp [Dev.accrued]

/-- Where the counter stands at C_A, corrected time is the counter with its offset. -/
theorem Dev.ct_at_ca {d : Dev} (h : d.time.ca = d.time.cnt) : d.ct = d.time.cnt + d.ofsAt d.time.cnt := by
  have ha : d.accrued d.time.cnt = 0 := h ▸ d.accrued_at_ca
  rw [Dev.ct, Dev.cT, ha, add_zero]

/-- What a write of TIME_RATE makes of the clock: the accrued term is folded into OFS at the counter value of the write. -/
theorem Dev.timeRateWrite_time (d : Dev) (c v : Nat) :
    (d.timeRateWrite c v).time = { (d.advance c).time with
      ofs := wrap64 ((d.advance c).time.ofs + (d.advance c).accrued (d.advance c).time.cnt)
      ca := (d.advance c).time.cnt } :=
  Dev.wr_time _ _ _ _ _

/-- A change of the clock leaves the device without its clock. -/
theorem Dev.with_time_timeless (d : Dev) (x : TimeSt) : Dev.timeless { d with time := x } = d.timeless := rfl

/-- A register write leaves the device without its clock. -/
@[simp] theorem Dev.wr_timeless (d : Dev) (F : Fld) (v i cp : Nat) : (d.wr F v i cp).timeless = d.timeless := by
  rw [Dev.timeless, Dev.wr_inner, Dev.timeless]

/-- A write of TIME_RATE leaves the device without its clock. -/
theorem Dev.timeRateWrite_timeless (d : Dev) (c v : Nat) : (d.timeRateWrite c v).timeless = d.timeless :=
  (Dev.wr_timeless _ _ _ _ _).trans (Dev.with_time_timeless d _)

/-- A write of TIME_RATE changes no other register. -/
theorem Dev.timeRateWrite_word (d : Dev) (c v : Nat) {o k : Nat} (h : k * 2 ^ 24 + o ≠ Reg.TIME_RATE.RATE.off) :
    (d.timeRateWrite c v).word o k = d.word o k :=
  (Dev.word_wr_other _ _ _ _ _ _ _ (by simpa using h)).trans (Dev.word_congr (Dev.advance_regs d c) o k)

/-- Corrected time at the write is the same under the folded offset and the new rate. -/
theorem Dev.timeRateWrite_ct {d : Dev} {c v : Nat}
    (hofs : (d.timeRateWrite c v).time.ofs = (d.advance c).time.ofs + (d.advance c).accrued (d.advance c).time.cnt) :
    (d.timeRateWrite c v).ct = (d.advance c).ct := by
  have ht := Dev.timeRateWrite_time d c v
  have hcnt : (d.timeRateWrite c v).time.cnt = (d.advance c).time.cnt := by rw [ht]
  have hca : (d.timeRateWrite c v).time.ca = (d.timeRateWrite c v).time.cnt := by rw [ht]
  have hslew : (d.timeRateWrite c v).time.slew = (d.advance c).time.slew := by rw [ht]
  rw [Dev.ct_at_ca hca, Dev.ct, Dev.cT, Dev.ofsAt, Dev.ofsAt, hofs, hcnt, hslew]
  ring

/-- Settles O44: what had accrued stands in OFS after the write, and under the new rate nothing has accrued yet. -/
theorem correctedTimeNeverSteps : Obligations.CorrectedTimeNeverSteps := by
  intro d c v hv hup hlo hhi
  have ht := Dev.timeRateWrite_time d c v
  have hofs : (d.timeRateWrite c v).time.ofs =
      (d.advance c).time.ofs + (d.advance c).accrued (d.advance c).time.cnt := by
    rw [ht]
    exact wrap64_of_fits hlo hhi
  refine ⟨d.timeRateWrite c v, runs_whenUp (g := fun d => d.timeRateWrite c v) (fun _ => rfl) ?wf hup,
    Dev.timeRateWrite_ct hofs, ?rate, by rw [ht], by rw [ht], hofs, Dev.timeRateWrite_timeless d c v,
    fun o k h => Dev.timeRateWrite_word d c v h⟩
  case wf => exact decide_eq_true hv
  case rate => exact (Dev.rd_wr_same _ Reg.TIME_RATE.RATE v 0 0 (by decide) (by decide)).trans (Nat.mod_eq_of_lt hv)

/-! ### Capturing the real-time clock (R82) -/

/-- A capture of the RTC, neither locked nor frozen, puts its live count into the shadows and freezes them. -/
theorem Dev.rtcCapture_live {d : Dev} {c : Nat} (hl : (d.advance c).on Reg.RTC_STAT.LOCKED = false)
    (hf : (d.advance c).on Reg.RTC_STAT.FROZEN = false) :
    d.rtcCapture c =
      (let d1 := d.advance c
       let q := d1.rtcUnits
       (((d1.wr Reg.RTC_SUB.SUB (q % 32768)).wr Reg.RTC_SEC_LO.SEC (q / 32768)).wr Reg.RTC_SEC_HI.SEC_HI
        (q / 32768 / 2 ^ 32)).wr Reg.RTC_STAT.FROZEN 1) := by
  simp [Dev.rtcCapture, hl, hf]

/-- A capture of the frozen RTC only observes the counter. -/
theorem Dev.rtcCapture_frozen {d : Dev} {c : Nat} (hl : (d.advance c).on Reg.RTC_STAT.LOCKED = false)
    (hf : (d.advance c).on Reg.RTC_STAT.FROZEN = true) : d.rtcCapture c = d.advance c := by
  simp [Dev.rtcCapture, hl, hf]

/-- A field of another word than the one written reads as before. -/
theorem Dev.rd_wr_apart (d : Dev) {F G : Fld} (v : Nat) (h : G.off ≠ F.off) : (d.wr F v).rd G = d.rd G :=
  Dev.rd_wr_other d F G v 0 0 0 0 (by simpa using h)

/-- A one-bit field reads the bit that was written. -/
theorem Dev.on_wr_same (d : Dev) {F : Fld} (v : Nat) (h1 : F.lo = F.hi) (h2 : F.hi < 32) :
    (d.wr F v).on F = (v % 2 != 0) := by
  have hw : F.hi + 1 - F.lo = 1 := by omega
  rw [Dev.on, Dev.rd_wr_same d F v 0 0 h1.le h2, hw, pow_one]

/-- An answer to a read leaves every register. -/
theorem Dev.answer_regs (d : Dev) (v : Nat) : (d.answer v).regs = d.regs := rfl

/-- A read of RTC_SEC_HI answers the shadow. -/
theorem Dev.rtcSecHiRead_rdata (d : Dev) (n : Nat) :
    (d.rtcSecHiRead n).rdata = BitVec.ofNat 32 (d.rd Reg.RTC_SEC_HI.SEC_HI) := by
  unfold Dev.rtcSecHiRead
  dsimp only
  split
  · exact Dev.wr_rdata _ _ _ _ _
  · rfl

/-- A read of RTC_SEC_HI leaves every register outside the word of RTC_STAT. -/
theorem Dev.rtcSecHiRead_rd (d : Dev) (n : Nat) {G : Fld} (h : G.off ≠ Reg.RTC_STAT.FROZEN.off) :
    (d.rtcSecHiRead n).rd G = d.rd G := by
  unfold Dev.rtcSecHiRead
  dsimp only
  split
  · exact (Dev.rd_wr_apart _ 0 h).trans (Dev.rd_congr (d.answer_regs _) G 0 0)
  · exact Dev.rd_congr (d.answer_regs _) G 0 0

/-- The house seat's read of RTC_SEC_HI ends the freeze; another seat's leaves it. -/
theorem Dev.rtcSecHiRead_frozen (d : Dev) (n : Nat) :
    (d.rtcSecHiRead n).on Reg.RTC_STAT.FROZEN = if n = 0 then false else d.on Reg.RTC_STAT.FROZEN := by
  unfold Dev.rtcSecHiRead
  dsimp only
  split
  · exact Dev.on_wr_same _ 0 rfl (by decide)
  · exact Dev.on_congr (d.answer_regs _) _ 0 0

/-- Settles O36: the captured words are the four written last, and a read of RTC_SEC_HI writes RTC_STAT at most. -/
theorem rtcCapture : Obligations.RtcCapture := by
  refine ⟨?live, ?frozen, ?read⟩
  case live =>
    intro d c hup hl hf
    have hcap := Dev.rtcCapture_live (d := d) (c := c) (by simpa using hl) (by simpa using hf)
    refine ⟨_, runs_whenRtc_to (g := fun d => d.rtcCapture c) (fun _ => rfl) rfl hup hcap, ?sub, ?secLo, ?secHi, ?stat,
      ?time⟩
    case sub =>
      rw [Dev.rd_wr_apart _ _ (by decide), Dev.rd_wr_apart _ _ (by decide), Dev.rd_wr_apart _ _ (by decide),
        Dev.rd_wr_same _ _ _ _ _ (by decide) (by decide)]
      exact Nat.mod_mod _ _
    case secLo =>
      rw [Dev.rd_wr_apart _ _ (by decide), Dev.rd_wr_apart _ _ (by decide),
        Dev.rd_wr_same _ _ _ _ _ (by decide) (by decide)]
      rfl
    case secHi =>
      rw [Dev.rd_wr_apart _ _ (by decide), Dev.rd_wr_same _ _ _ _ _ (by decide) (by decide)]
      rfl
    case stat => exact Dev.on_wr_same _ 1 rfl (by decide)
    case time => simp only [Dev.wr_time]
  case frozen =>
    intro d c hup hl hf
    exact runs_whenRtc_to (fun _ => rfl) rfl hup (Dev.rtcCapture_frozen (by simpa using hl) (by simpa using hf))
  case read =>
    intro d n hw hup
    exact ⟨d.rtcSecHiRead n, runs_whenUp (g := fun d => d.rtcSecHiRead n) (fun _ => rfl) hw hup, d.rtcSecHiRead_rdata n,
      d.rtcSecHiRead_rd n (by decide), d.rtcSecHiRead_rd n (by decide), d.rtcSecHiRead_rd n (by decide),
      d.rtcSecHiRead_frozen n⟩

/-! ### Ticks, the journal and fences (R26, R31, R56) -/

/-- In operation a boundary closes the ending tick, opens the next with its work and takes the measurements. -/
theorem Dev.tickBoundary_up {d : Dev} (p : PowerIn) (h : d.sys.phase = .up) :
    d.tickBoundary p = (((d.closeTick d.time.tick p.pkgLate).openTick).openWork).measured p := if_pos h

/-- With the FTL ready the oldest tick that waits is committed. -/
theorem Dev.journalCommit_waiting {d : Dev} {j : JTick} {js : List JTick} (hr : d.ftlReady = true)
    (hj : d.ldg.jwait = j :: js) :
    d.journalCommit = ({ d with ldg := { d.ldg with jwait := js } } : Dev).commitTick j := by
  simp [Dev.journalCommit, hr, hj]

/-- The seat's oldest fence completes where this boundary completes a fence of the seat. -/
theorem Dev.fenceComplete_due {d : Dev} {n : Nat} {f : Fence} {fs : List Fence} (hf : (d.seat n).fences = f :: fs)
    (hdue : 0 < (d.seat n).fencesDue) :
    d.fenceComplete n =
      (let due : MarkDue :=
        { tag := f.tag, opening := (d.seat n).opening, cut := f.cut, tick := d.time.tick - 1, paths := d.cfg.seatPaths n }
       let d1 := ((d.onSeat n fun s => { s with
          fences := fs, fencesDue := s.fencesDue - 1, marks := if f.mark then s.marks ++ [due] else s.marks }).wr
          Reg.LDG_FENCE_STAT.DONE_TAG f.tag 0 n).wr Reg.LDG_FENCE_STAT.OUTSTANDING fs.length 0 n
       if f.notify then d1.ringSeat n f.db else d1) := by
  simp [Dev.fenceComplete, hf, Nat.ne_of_gt hdue]

/-- An active device that has sent all from before the fence sends its marker on a path that takes it. -/
theorem Dev.fenceMarker_sent {d e : Dev} {n path count : Nat} {m : MarkDue} {bs : Bytes}
    (hm : (d.seat n).marks.find? (fun m => m.paths.contains path) = some m) (ha : d.isActive = true)
    (hs : (d.seat n).allSent m = true) (hcount : count = SMap.get (fun _ => 0) (d.seat n).since path)
    (hbs : bs = d.upHeader upFENCE 0 16 n (d.seat n).useq m.tick ++ fenceBody m.tag path count
      (SMap.get (fun _ => 0) (d.seat n).lastTag path) (SMap.get (fun _ => 0) (d.seat n).ords path == 0))
    (he : d.onPath n path bs = some e) :
    d.fenceMarker n path =
      e.onSeat n fun s => { s.marked path m.tag count bs with marks := dropPath path m s.marks } := by
  subst hcount hbs
  simp [Dev.fenceMarker, -List.contains_eq_mem, hm, ha, hs, he]

/-- Settles O9: each command acts by its gate, and the branch that its conditions choose gives what it leaves. -/
theorem ticksComplete : Obligations.TicksComplete := by
  refine ⟨?boundary, ?journal, ?fence, ?marker⟩
  case boundary =>
    intro d power hup
    exact runs_act (g := fun d => d.tickBoundary power) (fun _ => rfl) rfl (Dev.tickBoundary_up power hup)
  case journal =>
    intro d j js hup hr hj
    exact runs_whenUp_to (fun _ => rfl) rfl hup (congrArg Dev.beatNow (Dev.journalCommit_waiting hr hj))
  case fence =>
    intro d n f fs hw hup hf hdue
    exact runs_whenUp_to (fun _ => rfl) hw hup (Dev.fenceComplete_due hf hdue)
  case marker =>
    intro d n path m e count bs hw hup hm ha hs hcount hbs he
    exact runs_whenUp_to (fun _ => rfl) hw hup (Dev.fenceMarker_sent hm ha hs hcount hbs he)

/-! ### Steps, slews, sources and PPS (R70, R73 to R76) -/

/-- A step of at most 1 ms is added at once. -/
theorem Dev.timeStep_small {d : Dev} {c : Nat} (h : ((d.advance c).endSlew.stepAmount).natAbs ≤ 1000000) :
    d.timeStep c = (d.advance c).endSlew.addStep (d.advance c).endSlew.stepAmount := if_pos h

/-- A larger step becomes the pending step of the running tick. -/
theorem Dev.timeStep_large {d : Dev} {c : Nat} (h : 1000000 < ((d.advance c).endSlew.stepAmount).natAbs) :
    d.timeStep c =
      (let d1 := (d.advance c).endSlew
       ({ d1 with time := { d1.time with stepPend := some d1.stepAmount, stepTick := d1.time.tick } } : Dev).wr
        Reg.TIME_STAT.STEP_PEND 1) := if_neg (Nat.not_le.2 h)

/-- In a later tick the pending step is added. -/
theorem Dev.timeStepApply_later {d : Dev} {amt : Int} (hp : d.time.stepPend = some amt)
    (ht : d.time.stepTick < d.time.tick) : d.timeStepApply = d.addStep amt := by
  simp [Dev.timeStepApply, hp, ht]

/-- A slew inside the bounds of amount and rate replaces the one that runs. -/
theorem Dev.timeSlew_inside {d : Dev} {c ppm : Nat} (ha : ((d.advance c).stepAmount).natAbs ≤ 2 ^ 31) (h1 : 1 ≤ ppm)
    (h2 : ppm ≤ 1000) :
    d.timeSlew c ppm =
      (let d1 := (d.advance c).endSlew
       ({ d1 with time := { d1.time with
          slew := some { start := d1.time.cnt, amount := (d.advance c).stepAmount, ppm } } } : Dev).wr
        Reg.TIME_STAT.SLEW_ACT 1) := by
  have hrej : ¬ (((d.advance c).stepAmount).natAbs > 2 ^ 31 || decide (ppm = 0) || decide (ppm > 1000)) = true := by
    simp only [Bool.or_eq_true, decide_eq_true_eq]
    omega
  exact if_neg hrej

/-- A slew whose amount is used up ends. -/
theorem Dev.slewDone_used {d : Dev} {c : Nat} {w : Slew} (hs : (d.advance c).time.slew = some w)
    (hw : w.done (d.advance c).time.cnt = w.amount) : d.slewDone c = (d.advance c).endSlew := by
  simp [Dev.slewDone, hs, hw]

/-- The servo locks to PTP, PPS or the dealer. -/
theorem Dev.timeDiscipline_outside {d : Dev} {c src : Nat} (h1 : 2 ≤ src) (h2 : src ≤ 4) :
    d.timeDiscipline c src =
      { ((d.advance c).wr Reg.TIME_STAT.VALID 1).wr Reg.TIME_STAT.SRC src with
        time := { (d.advance c).time with holdBase := 0, holdAt := (d.advance c).time.cnt } } := by
  have hsrc : ¬ (decide (src < 2) || decide (src > 4)) = true := by
    simp only [Bool.or_eq_true, decide_eq_true_eq]
    omega
  exact if_neg hsrc

/-- Past the holdover limit VALID clears. -/
theorem Dev.holdoverExpire_past {d : Dev} (hv : d.on Reg.TIME_STAT.VALID = true) (hl : d.holdLimit < d.timeHold) :
    d.holdoverExpire = (d.wr Reg.TIME_STAT.VALID 0).raise Stk.TIME.HOLDOVER_EXP := by
  simp [Dev.holdoverExpire, hv, hl]

/-- PPS is lost 1.5 s after its last edge. -/
theorem Dev.ppsLoss_late {d : Dev} {c : Nat} (hl : (d.advance c).on Reg.TIME_STAT.PPS_LOST = false)
    (ht : (d.advance c).time.ppsAt + 1500000000 ≤ (d.advance c).time.cnt) :
    d.ppsLoss c = ((d.advance c).wr Reg.TIME_STAT.PPS_LOST 1).raise Stk.TIME.PPS_LOST := by
  simp only [Dev.ppsLoss, hl, Bool.false_or, decide_eq_true_eq, if_neg (Nat.not_lt.2 ht)]

/-- Settles O10: each command acts by its gate, and the branch that its conditions choose gives what it leaves. -/
theorem timeAdjustmentsComplete : Obligations.TimeAdjustmentsComplete := by
  refine ⟨?small, ?large, ?apply, ?slew, ?slewDone, ?discipline, ?rate, ?holdover, ?leap, ?ppsEdge, ?ppsLoss⟩
  case small => exact fun d c hup h => runs_whenUp_to (fun _ => rfl) rfl hup (Dev.timeStep_small h)
  case large => exact fun d c hup h => runs_whenUp_to (fun _ => rfl) rfl hup (Dev.timeStep_large h)
  case apply => exact fun d amt hup hp ht => runs_whenUp_to (fun _ => rfl) rfl hup (Dev.timeStepApply_later hp ht)
  case slew =>
    intro d c ppm hw hup ha h1 h2
    exact runs_whenUp_to (fun _ => rfl) hw hup (Dev.timeSlew_inside ha h1 h2)
  case slewDone => exact fun d c w hup hs hw => runs_whenUp_to (fun _ => rfl) rfl hup (Dev.slewDone_used hs hw)
  case discipline =>
    intro d c src hw hup h1 h2
    exact runs_whenUp_to (fun _ => rfl) hw hup (Dev.timeDiscipline_outside h1 h2)
  case rate => exact fun d c v hw hup => runs_whenUp (g := fun d => d.timeRateWrite c v) (fun _ => rfl) hw hup
  case holdover => exact fun d hup hv hl => runs_whenUp_to (fun _ => rfl) rfl hup (Dev.holdoverExpire_past hv hl)
  case leap => exact fun d c hup _ _ => runs_whenUp (g := fun d => d.leapSecond c) (fun _ => rfl) rfl hup
  case ppsEdge => exact fun d c hup => runs_whenUp (g := fun d => d.ppsEdge c) (fun _ => rfl) rfl hup
  case ppsLoss => exact fun d c hup hl ht => runs_whenUp_to (fun _ => rfl) rfl hup (Dev.ppsLoss_late hl ht)

/-! ### Triggers, the saved curve and the operating hour (R79, R81, R277) -/

/-- A trigger whose target tick has opened acts, and is disarmed or, under PERIOD, armed for the next target. -/
theorem Dev.trigFire_due {d : Dev} {i T : Nat} (hT : SMap.find d.time.trigT i = some T) (ht : T ≤ d.time.tick) :
    d.trigFire i =
      (let d1 := d.trigAct i
       let per := d1.rd Reg.TRIG_CTL.PERIOD i
       if per = 0 then
        ({ d1 with time := { d1.time with trigT := d1.time.trigT.erase i } } : Dev).wr Reg.TRIG_CTL.ARM 0 i
       else ({ d1 with time := { d1.time with trigT := d1.time.trigT.put i (T + per) } } : Dev).wr
        Reg.TRIG_TICK.TICK (T + per) i) := by
  simp only [Dev.trigFire, hT, if_neg (Nat.not_lt.2 ht)]

/-- The curve of an unlocked RTC is saved in the vault. -/
theorem Dev.rtcCurveSave_open {d : Dev} (hl : d.on Reg.RTC_STAT.LOCKED = false) :
    d.rtcCurveSave = { d with vault := { d.vault with
      curve := d.vault.curve.write ((List.range 16).flatMap fun i => leBytes 2 (d.rd (Reg.RTC_CURVE.PPM.nth i))) } } :=
  if_neg (by simp [hl])

/-- An hour after the last one counted, counter 4 advances. -/
theorem Dev.operatingHour_full {d : Dev} {c : Nat}
    (h : (d.advance c).time.hourAt + 3600 * 1000000000 ≤ (d.advance c).time.cnt) :
    d.operatingHour c =
      (let d1 := d.advance c
       { d1.counterTo 4 (d1.counter 4 + 1) with
         time := { d1.time with hourAt := d1.time.hourAt + 3600 * 1000000000 } }) :=
  if_neg (Nat.not_lt.2 h)

/-- Settles O11: each command acts by its gate, and the branch that its conditions choose gives what it leaves. -/
theorem triggersAndClockComplete : Obligations.TriggersAndClockComplete := by
  refine ⟨?arm, ?tickWrite, ?fire, ?check, ?compensate, ?capture, ?curve, ?hour⟩
  case arm => exact fun d i v hw hup => runs_whenUp (g := fun d => d.trigCtlWrite i v) (fun _ => rfl) hw hup
  case tickWrite => exact fun d i v hw hup => runs_whenUp (g := fun d => d.trigTickWrite i v) (fun _ => rfl) hw hup
  case fire => exact fun d i T hw hup hT ht => runs_whenUp_to (fun _ => rfl) hw hup (Dev.trigFire_due hT ht)
  case check => exact fun d c hup _ _ _ => runs_whenUp (g := fun d => d.rtcCheck c) (fun _ => rfl) rfl hup
  case compensate =>
    intro d c t10 onVbat
    exact runs_act (g := fun d => d.rtcCompensate c t10 onVbat) (fun _ => rfl) rfl rfl
  case capture => exact fun d c hup hl hf => runs_whenRtc_to (fun _ => rfl) rfl hup (Dev.rtcCapture_live hl hf)
  case curve => exact fun d hup hl => runs_whenRtc_to (fun _ => rfl) rfl hup (Dev.rtcCurveSave_open hl)
  case hour => exact fun d c hup h => runs_whenUp_to (fun _ => rfl) rfl hup (Dev.operatingHour_full h)

end Sys2Proof.Machine
end

section
/-!
PROOFS. The family of field ports: frames from the ports into the pool, port faults and isolation, PAUSE, and the edge inputs.
-/

namespace Sys2Proof.Machine

/-! ### The mode of a port (R85) -/

/-- A value that is one of two passes the test for either. -/
theorem beq_or_beq {m a b : Nat} (h : m = a ∨ m = b) : (m == a || m == b) = true := by
  rwa [Bool.or_eq_true, beq_iff_eq, beq_iff_eq]

/-- A value other than `a` fails the test for `a` beside a condition that fails. -/
theorem not_beq_or {m a : Nat} {q : Bool} (hm : m ≠ a) (hq : q = false) : ¬ (m == a || q) = true := by
  rw [Bool.or_eq_true, beq_iff_eq, hq]
  exact fun h => h.elim hm Bool.false_ne_true

/-! ### Frames into the FIFO (R90, R94 to R97) -/

/-- The oldest frame of a receive queue that R95 and MAXFRAME accept leaves the queue and is written. -/
theorem Dev.queueIngest_takes {d : Dev} {p : Nat} {f : Bytes} {fs : List Bytes} (hlen : f.length ≤ d.cfg.maxFrame p)
    (hq : (d.port p).rxq = f :: fs) (ht : (d.startOfFrame p).fifoTakes p = true) :
    d.queueIngest p =
      ((d.startOfFrame p).onPort p fun s => { s with rxq := fs }).fifoPut p { bytes := f, chk := sealOf f } := by
  have hfits : ¬ f.length > (((d.startOfFrame p).onPort p fun s => { s with rxq := fs }).cfg).maxFrame p :=
    Nat.not_lt.2 hlen
  have hroom : ¬ (!(d.startOfFrame p).fifoTakes p) = true := by simp [ht]
  unfold Dev.queueIngest
  rw [hq]
  exact (if_neg hroom).trans (if_neg hfits)

/-- A PLC_AFE or RADIO port that is not isolated takes from its receive queue. -/
theorem Dev.frameIngest_queue {d : Dev} {p : Nat} (bytes : Bytes) (err : Bool)
    (hm : d.mode p = Canvas.mPLC ∨ d.mode p = Canvas.mRADIO) (hi : d.isolated p = false) :
    d.frameIngest p bytes err = d.queueIngest p :=
  (if_neg (ne_true_of_eq_false hi)).trans (if_pos (beq_or_beq hm))

/-- A FIELDLINK or SERIAL port whose link is up takes the frame as it arrives. -/
theorem Dev.frameIngest_link {d : Dev} {p : Nat} (bytes : Bytes) (err : Bool)
    (hm : d.mode p = Canvas.mFIELDLINK ∨ d.mode p = Canvas.mSERIAL) (hi : d.isolated p = false)
    (hl : d.rd Reg.FP_STAT.LINK p = 1) : d.frameIngest p bytes err = d.linkFrame p bytes err := by
  have hqueue : ¬ (d.mode p == Canvas.mPLC || d.mode p == Canvas.mRADIO) = true := by
    rcases hm with h | h <;> rw [h] <;> decide
  have hoff : d.mode p ≠ Canvas.mOFF := by
    rcases hm with h | h <;> rw [h] <;> decide
  have hlink : (d.rd Reg.FP_STAT.LINK p != 1) = false := bne_eq_false_iff_eq.2 hl
  exact (if_neg (ne_true_of_eq_false hi)).trans ((if_neg hqueue).trans (if_neg (not_beq_or hoff hlink)))

/-! ### Frames out of the FIFO (R98, R150) -/

/-- The frame granted first passes to the pool. -/
theorem Dev.frameToPool_granted {d : Dev} {g : PoolGrant} {gs : List PoolGrant} {f : Frame} {fs : List Frame}
    (how : FifoRead) (hg : d.arb.toPool = g :: gs) (hf : d.draining g.port = f :: fs) :
    d.frameToPool how = d.passFrame g f how := by
  simp only [Dev.frameToPool, hg, hf]

/-- A pointer mismatch on a port that is not OFF flushes it. -/
theorem Dev.fifoPtrMismatch_live {d : Dev} {p : Nat} (hm : d.mode p ≠ Canvas.mOFF) :
    d.fifoPtrMismatch p = (d.portFlush p).raisePort Stk.FP.PTR_MISMATCH p :=
  if_neg (mt beq_iff_eq.1 hm)

/-! ### Faults of a port and isolation (R89 to R91) -/

/-- A short isolates a port that is neither OFF nor isolated; what it records depends on a RETRY just before. -/
theorem Dev.portShort_live {d : Dev} {p c : Nat} (hm : (d.advance c).mode p ≠ Canvas.mOFF)
    (hi : (d.advance c).isolated p = false) :
    d.portShort p c =
      (let d1 := d.advance c
       if d1.stillShort p then
        ((d1.isolate p).wr Reg.FP_ERR_STICKY.SHORT 1 p).record 0x0840 4 (d1.cfg.homeSeat p) p []
       else (d1.isolate p).raisePort Stk.FP.SHORT p) :=
  if_neg (not_beq_or hm hi)

/-- An open receive pair holds the link of a PLC_AFE or FIELDLINK port down. -/
theorem Dev.portOpen_pair {d : Dev} {p : Nat} (hm : d.mode p = Canvas.mPLC ∨ d.mode p = Canvas.mFIELDLINK)
    (hi : d.isolated p = false) :
    d.portOpen p =
      (((((if d.on Reg.PLC_STAT.RX_LOCK p then (d.plcAbort p).raisePort Stk.PLC.LOCK_LOST p else d).wr
        Reg.FP_STAT.LINK 2 p).onPort p fun s => { s with charLock := false, autoneg := false }).wr
        Reg.PLC_STAT.RX_LOCK 0 p).raisePort Stk.FP.OPEN p) :=
  (if_neg (ne_true_of_eq_false hi)).trans (if_pos (beq_or_beq hm))

/-- An open RXD of a SERIAL port is reported. -/
theorem Dev.portOpen_serial {d : Dev} {p : Nat} (hm : d.mode p = Canvas.mSERIAL) (hi : d.isolated p = false) :
    d.portOpen p = d.raisePort Stk.FP.OPEN p := by
  have hpair : ¬ (d.mode p == Canvas.mPLC || d.mode p == Canvas.mFIELDLINK) = true := by rw [hm]; decide
  exact (if_neg (ne_true_of_eq_false hi)).trans ((if_neg hpair).trans (if_pos (beq_iff_eq.2 hm)))

/-- A reversed receive pair of a PLC_AFE or FIELDLINK port is corrected and reported. -/
theorem Dev.rxReversed_pair {d : Dev} {p : Nat} (hm : d.mode p = Canvas.mPLC ∨ d.mode p = Canvas.mFIELDLINK)
    (hi : d.isolated p = false) :
    d.rxReversed p = (d.wr Reg.FP_STAT.REV_RX 1 p).raisePort Stk.FP.REVERSED p := by
  have hacts : ((d.mode p == Canvas.mPLC || d.mode p == Canvas.mFIELDLINK) && !d.isolated p) = true := by
    rw [beq_or_beq hm, hi]
    rfl
  exact if_pos hacts

/-- The first RETRY of a tick makes an isolated port drive again. -/
theorem Dev.portRetry_isolated {d : Dev} {p : Nat} (ht : (d.port p).retryTick ≠ some d.time.tick)
    (hi : d.isolated p = true) :
    d.portRetry p = (d.onPort p fun s => { s with retryTick := some d.time.tick }).driveAgain p :=
  (if_neg ht).trans (if_pos ((Dev.onPort_isolated d p p _).trans hi))

/-! ### FIELDLINK links and PAUSE (R88, R97) -/

/-- A FIELDLINK port that is not isolated takes part in the link protocol. -/
theorem Dev.fieldlink_acts {d : Dev} {p : Nat} (hm : d.mode p = Canvas.mFIELDLINK) (hi : d.isolated p = false) :
    ¬ (d.mode p != Canvas.mFIELDLINK || d.isolated p) = true := by
  rw [hm, hi]
  decide

/-- Auto-negotiation sets the link of a FIELDLINK port by what the partner advertises. -/
theorem Dev.fieldlinkAutoneg_acts {d : Dev} {p : Nat} (gigFull : Bool) (hm : d.mode p = Canvas.mFIELDLINK)
    (hi : d.isolated p = false) :
    d.fieldlinkAutoneg p gigFull = (d.onPort p fun s => { s with autoneg := gigFull }).fieldlinkUp p :=
  if_neg (Dev.fieldlink_acts hm hi)

/-- A MAC Control frame on a FIELDLINK port is a PAUSE, which holds transmission, or an error. -/
theorem Dev.pauseRx_acts {d : Dev} {p c : Nat} (opcode quanta : Nat) (hm : (d.advance c).mode p = Canvas.mFIELDLINK)
    (hi : (d.advance c).isolated p = false) :
    d.pauseRx p c opcode quanta =
      if opcode = 1 then
        ((d.advance c).onPort p fun s => { s with pausedTo := (d.advance c).time.cnt + 512 * quanta }).txDrain p
      else (d.advance c).bump Reg.FP_DROP_B.ERR 1 p :=
  if_neg (Dev.fieldlink_acts hm hi)

/-- The PAUSE that a port has sent ends once a MAXFRAME frame fits and no pool hold keeps it. -/
theorem Dev.pauseRelease_room {d : Dev} {p : Nat} (hs : d.on Reg.FP_STAT.PAUSE_TX p = true)
    (ht : d.fifoTakes p = true) (hh : d.on Reg.ING_STAT.HOLD = false) :
    d.pauseRelease p = (d.emit (.pause p 0)).wr Reg.FP_STAT.PAUSE_TX 0 p := by
  have hends : (d.on Reg.FP_STAT.PAUSE_TX p && d.fifoTakes p && !d.on Reg.ING_STAT.HOLD) = true := by
    rw [hs, ht, hh]
    rfl
  exact if_pos hends

/-! ### Edge inputs (R103, R104) -/

/-- In operation an edge input takes the edge. -/
theorem runs_edgeInput {d : Dev} {e : EdgeIn} {level glitch : Bool} {c : Nat}
    (hw : (Instr.edgeInput e level glitch c).wf = true) (hup : d.sys.phase = .up) :
    Runs (.edgeInput e level glitch c) d (d.edgeInput e level glitch c) :=
  runs_act (g := fun d => if d.sys.phase = .up then d.edgeInput e level glitch c else
    if glitch then d else d.edgeBall e level) (fun _ => rfl) hw (if_pos hup)

/-- A radio IRQ held high after service makes the MAC poll. -/
theorem Dev.irqStuck_held {d : Dev} {p c : Nat} (hr : (d.advance c).isRadio p = true)
    (hh : (d.advance c).irqHeld p c = true) (hp : (d.advance c).on Reg.FP_STAT.IRQ_POLL p = false) :
    d.irqStuck p c = ((d.advance c).wr Reg.FP_STAT.IRQ_POLL 1 p).raisePort Stk.FP.IRQ_STUCK p := by
  have hacts : ¬ (!(d.advance c).isRadio p || !(d.advance c).irqHeld p c || (d.advance c).on Reg.FP_STAT.IRQ_POLL p) = true := by
    rw [hr, hh, hp]
    decide
  exact if_neg hacts

/-- The holder of the grant polls the transceiver of a radio port whose IRQ is stuck. -/
theorem Dev.irqPoll_granted {d : Dev} {p : Nat} (hp : d.on Reg.FP_STAT.IRQ_POLL p = true) (hr : d.isRadio p = true)
    (hg : d.granted = true) : d.irqPoll p = d.emit (.radioPoll p) := by
  have hacts : (d.on Reg.FP_STAT.IRQ_POLL p && d.isRadio p && d.granted) = true := by
    rw [hp, hr, hg]
    rfl
  exact if_pos hacts

/-- After 100 ms low the MAC returns to the IRQ ball. -/
theorem Dev.irqUnstuck_low {d : Dev} {p c : Nat} (hraw : ((d.advance c).edge (.irq p)).raw = false)
    (hlow : ((d.advance c).edge (.irq p)).lastEdge + 100000000 ≤ c) :
    d.irqUnstuck p c = (d.advance c).wr Reg.FP_STAT.IRQ_POLL 0 p := by
  have hacts : ¬ (((d.advance c).edge (.irq p)).raw ||
      decide (c < ((d.advance c).edge (.irq p)).lastEdge + 100000000)) = true := by
    rw [hraw, Bool.false_or, decide_eq_true_eq]
    exact Nat.not_lt.2 hlow
  exact if_neg hacts

/-! ### The commands of the ports -/

/-- Settles O12: each command acts by its gate, and the branch that its conditions choose gives what it leaves. -/
theorem framePathComplete : Obligations.FramePathComplete := by
  refine ⟨?queue, ?link, ?round, ?toPool, ?mismatch, ?short, ?openPair, ?openSerial⟩
  case queue =>
    intro d p bytes err f fs hw hup hm hi hlen hq ht
    exact runs_whenUp_to (fun _ => rfl) hw hup
      ((Dev.frameIngest_queue bytes err hm hi).trans (Dev.queueIngest_takes hlen hq ht))
  case link =>
    intro d p bytes err hw hup hm hi hl
    exact runs_whenUp_to (fun _ => rfl) hw hup (Dev.frameIngest_link bytes err hm hi hl)
  case round => exact fun d t hw hup => runs_whenUp (g := fun d => d.arbiterRound t) (fun _ => rfl) hw hup
  case toPool =>
    intro d how g gs f fs hup hg hf
    exact runs_whenUp_to (fun _ => rfl) rfl hup (Dev.frameToPool_granted how hg hf)
  case mismatch => exact fun d p hw hup hm => runs_whenUp_to (fun _ => rfl) hw hup (Dev.fifoPtrMismatch_live hm)
  case short => exact fun d x hw hup hm hi => runs_whenUp_to (fun _ => rfl) hw hup (Dev.portShort_live hm hi)
  case openPair => exact fun d p hw hup hm hi => runs_whenUp_to (fun _ => rfl) hw hup (Dev.portOpen_pair hm hi)
  case openSerial => exact fun d p hw hup hm hi => runs_whenUp_to (fun _ => rfl) hw hup (Dev.portOpen_serial hm hi)

/-- Settles O13: each command acts by its gate, and the branch that its conditions choose gives what it leaves. -/
theorem portFaultsAndEdgesComplete : Obligations.PortFaultsAndEdgesComplete := by
  refine ⟨?reversed, ?retry, ?flush, ?autoneg, ?pauseRx, ?pauseRelease, ?edge, ?settle, ?stuck, ?poll, ?unstuck,
    ?groupReset⟩
  case reversed => exact fun d p hw hup hm hi => runs_whenUp_to (fun _ => rfl) hw hup (Dev.rxReversed_pair hm hi)
  case retry => exact fun d p hw hup ht hi => runs_whenUp_to (fun _ => rfl) hw hup (Dev.portRetry_isolated ht hi)
  case flush => exact fun d p hw hup => runs_whenUp (g := fun d => d.portFlush p) (fun _ => rfl) hw hup
  case autoneg =>
    intro d p gigFull hw hup hm hi
    exact runs_whenUp_to (fun _ => rfl) hw hup (Dev.fieldlinkAutoneg_acts gigFull hm hi)
  case pauseRx =>
    intro d p c opcode quanta hw hup hm hi
    exact runs_whenUp_to (fun _ => rfl) hw hup (Dev.pauseRx_acts opcode quanta hm hi)
  case pauseRelease =>
    intro d p hw hup hs ht hh
    exact runs_whenUp_to (fun _ => rfl) hw hup (Dev.pauseRelease_room hs ht hh)
  case edge =>
    rintro d e level _ c hw hup rfl
    exact runs_edgeInput hw hup
  case settle => exact fun d e c hw hup _ => runs_whenUp (g := fun d => d.edgeSettle e c) (fun _ => rfl) hw hup
  case stuck =>
    intro d p c hw hup hr hh hp
    exact runs_whenUp_to (fun _ => rfl) hw hup (Dev.irqStuck_held hr hh hp)
  case poll => exact fun d p hw hup hp hr hg => runs_whenUp_to (fun _ => rfl) hw hup (Dev.irqPoll_granted hp hr hg)
  case unstuck =>
    intro d p c hw hup hraw hlow
    exact runs_whenUp_to (fun _ => rfl) hw hup (Dev.irqUnstuck_low hraw hlow)
  case groupReset => exact fun d v hw hup => runs_whenUp (g := fun d => d.fpGrpRstWrite v) (fun _ => rfl) hw hup

end Sys2Proof.Machine
end

section
/-!
PROOFS. The ingest family: the replay unit and its window, what the cipher seals and opens, and the commands of reassembly and
the cipher farm.
-/

namespace Sys2Proof.Machine

/-! ### The replay window as bits (R161) -/

theorem bitOf_eq_testBit (v i : Nat) : bitOf v i = v.testBit i := by
  rw [Nat.testBit_eq_decide_div_mod_eq]
  rfl

/-- WIN after IC_RX has risen by `d`. -/
def windowAfter (win d : Nat) : Nat := if 16 < d then 0 else (win * 2 ^ d + 2 ^ (d - 1)) % 65536

/-- The last bit shifted in stands for the old IC_RX, and the old bits stand `d` places higher. -/
theorem bitOf_windowAfter (win : Nat) {d j : Nat} (hd : 0 < d) (hin : d ≤ 16) (hj : j < 16) :
    bitOf (windowAfter win d) j = if j < d then decide (d - 1 = j) else bitOf win (j - d) := by
  have hlow : 2 ^ (d - 1) < 2 ^ d := Nat.pow_lt_pow_right (by decide) (by omega)
  simp only [bitOf_eq_testBit]
  rw [windowAfter, if_neg (Nat.not_lt.2 hin), show 65536 = 2 ^ 16 from rfl, Nat.testBit_mod_two_pow,
    decide_eq_true hj, Bool.true_and, Nat.mul_comm, Nat.testBit_two_pow_mul_add _ hlow, Nat.testBit_two_pow]

/-- Adding a bit that is clear sets it and leaves every other bit. -/
theorem bitOf_add_two_pow {win i : Nat} (h : bitOf win i = false) (j : Nat) :
    bitOf (win + 2 ^ i) j = (decide (j = i) || bitOf win j) := by
  have hbit : win / 2 ^ i % 2 = 0 := by simpa [bitOf] using h
  simp only [bitOf_eq_testBit]
  rcases Nat.lt_trichotomy j i with hj | rfl | hj
  · rw [Nat.add_comm, Nat.testBit_two_pow_add_gt hj, decide_eq_false hj.ne, Bool.false_or]
  · rw [Nat.add_comm, Nat.testBit_two_pow_add_eq, ← bitOf_eq_testBit, h]
    simp
  · obtain ⟨k, rfl⟩ := Nat.exists_eq_add_of_lt hj
    have hup : (win + 2 ^ i) / 2 ^ (i + 1) = win / 2 ^ (i + 1) := by
      rw [Nat.pow_succ, ← Nat.div_div_eq_div_mul, ← Nat.div_div_eq_div_mul, Nat.add_div_right _ (Nat.two_pow_pos i)]
      omega
    rw [show i + k + 1 = k + (i + 1) by omega, Nat.testBit_add, hup, ← Nat.testBit_add, decide_eq_false (by omega),
      Bool.false_or]

/-! ### What the replay unit makes of a counter (R161) -/

/-- A counter above IC_RX is accepted and shifts the window. -/
theorem replayCheck_above {rx ic : Nat} (win : Nat) (h : rx < ic) :
    replayCheck rx win ic = some (ic, windowAfter win (ic - rx)) := if_pos h

/-- A counter at or below IC_RX is accepted if it is within the window and its bit is clear. -/
theorem replayCheck_below {rx ic : Nat} (win : Nat) (h : ic ≤ rx) : replayCheck rx win ic =
    if ic < rx ∧ rx - ic ≤ 16 ∧ bitOf win (rx - 1 - ic) = false then some (rx, win + 2 ^ (rx - 1 - ic)) else none :=
  if_neg (Nat.not_lt.2 h)

/-- The counters that are discarded: IC_RX itself, one too old for the window, and one seen. -/
theorem replayCheck_eq_none_iff {rx win ic : Nat} : replayCheck rx win ic = none ↔
    ic ≤ rx ∧ (ic = rx ∨ 16 < rx - ic ∨ bitOf win (rx - 1 - ic) = true) := by
  rcases Nat.lt_or_ge rx ic with h | h
  · simp [replayCheck_above win h, h]
  · rw [replayCheck_below win h, ite_eq_right_iff]
    cases bitOf win (rx - 1 - ic) <;> simp <;> omega

/-- An accepted counter is above IC_RX and shifts the window, or has a clear bit of the window, which it sets. -/
theorem replayCheck_eq_some {rx win ic : Nat} {r : Nat × Nat} (h : replayCheck rx win ic = some r) :
    (rx < ic ∧ r = (ic, windowAfter win (ic - rx))) ∨
    (ic < rx ∧ bitOf win (rx - 1 - ic) = false ∧ r = (rx, win + 2 ^ (rx - 1 - ic))) := by
  rcases Nat.lt_or_ge rx ic with hlt | hge
  · rw [replayCheck_above win hlt, Option.some.injEq] at h
    exact .inl ⟨hlt, h.symm⟩
  · rw [replayCheck_below win hge, Option.ite_none_right_eq_some, Option.some.injEq] at h
    obtain ⟨⟨hlt, -, hbit⟩, hr⟩ := h
    exact .inr ⟨hlt, hbit, hr.symm⟩

/-- Settles O32: a greater counter takes the first branch, and a discarded one is at IC_RX, too old or seen. -/
theorem replayWindow : Obligations.ReplayWindow := by
  intro rx win ic
  refine ⟨?above, ?late, ?same, ?old, ?seen⟩
  case above => exact replayCheck_above win
  case late => exact fun hlt hd hbit => (replayCheck_below win hlt.le).trans (if_pos ⟨hlt, hd, hbit⟩)
  case same => exact fun he => replayCheck_eq_none_iff.2 ⟨he.le, .inl he⟩
  case old => exact fun ho => replayCheck_eq_none_iff.2 ⟨by omega, .inr (.inl ho)⟩
  case seen => exact fun hlt hs => replayCheck_eq_none_iff.2 ⟨hlt.le, .inr (.inr hs)⟩

/-! ### No counter is accepted twice (R161) -/

/-- A counter is discarded from the moment it is accepted: it is IC_RX then, or its bit is set. -/
theorem replayCheck_discards_accepted {rx win ic : Nat} {r : Nat × Nat} (h : replayCheck rx win ic = some r) :
    replayCheck r.1 r.2 ic = none := by
  rw [replayCheck_eq_none_iff]
  obtain ⟨-, rfl⟩ | ⟨hlt, hbit, rfl⟩ := replayCheck_eq_some h
  · exact ⟨le_rfl, .inl rfl⟩
  · exact ⟨hlt.le, .inr (.inr (by rw [bitOf_add_two_pow hbit]; simp))⟩

/-- A counter that the window discards is discarded by the window shifted to a greater IC_RX. -/
theorem replayCheck_shift_discards {rx win ic x : Nat} (hx : rx < x) (h : replayCheck rx win ic = none) :
    replayCheck x (windowAfter win (x - rx)) ic = none := by
  rw [replayCheck_eq_none_iff] at h ⊢
  obtain ⟨hle, hspent⟩ := h
  refine ⟨by omega, .inr ?_⟩
  rcases Nat.lt_or_ge 16 (x - ic) with hold | hin
  · exact .inl hold
  · rw [bitOf_windowAfter win (by omega) (by omega) (by omega)]
    refine .inr ?_
    rcases Nat.eq_or_lt_of_le hle with rfl | hlt
    · rw [if_pos (by omega)]
      exact decide_eq_true (by omega)
    · have hseen : bitOf win (rx - 1 - ic) = true := (hspent.resolve_left hlt.ne).resolve_left (by omega)
      rwa [if_neg (by omega), show x - 1 - ic - (x - rx) = rx - 1 - ic by omega]

/-- What the replay unit discards it discards after any acceptance too. -/
theorem replayCheck_keeps_discarding {rx win ic x : Nat} {r : Nat × Nat} (hx : replayCheck rx win x = some r)
    (h : replayCheck rx win ic = none) : replayCheck r.1 r.2 ic = none := by
  obtain ⟨hlt, rfl⟩ | ⟨-, hbit, rfl⟩ := replayCheck_eq_some hx
  · exact replayCheck_shift_discards hlt h
  · rw [replayCheck_eq_none_iff] at h ⊢
    obtain ⟨hle, hspent⟩ := h
    exact ⟨hle, hspent.imp_right (Or.imp_right fun hs => by rw [bitOf_add_two_pow hbit, hs, Bool.or_true])⟩

/-- An accepted counter is followed by what is accepted from the new IC_RX and WIN. -/
theorem acceptedCounters_accept {rx win ic : Nat} {r : Nat × Nat} (h : replayCheck rx win ic = some r) (rest : List Nat) :
    acceptedCounters rx win (ic :: rest) = ic :: acceptedCounters r.1 r.2 rest := by
  rw [acceptedCounters, h]

/-- A discarded counter changes nothing. -/
theorem acceptedCounters_discard {rx win ic : Nat} (h : replayCheck rx win ic = none) (rest : List Nat) :
    acceptedCounters rx win (ic :: rest) = acceptedCounters rx win rest := by
  rw [acceptedCounters, h]

/-- What is accepted is offered, in the same order. -/
theorem acceptedCounters_sublist (rx win : Nat) (offered : List Nat) : (acceptedCounters rx win offered).Sublist offered := by
  induction offered generalizing rx win with
  | nil => exact .slnil
  | cons x rest ih =>
    cases h : replayCheck rx win x with
    | none => rw [acceptedCounters_discard h]; exact (ih rx win).cons x
    | some r => rw [acceptedCounters_accept h]; exact (ih r.1 r.2).cons_cons x

/-- A counter that is discarded now is not accepted later, whatever is offered before it. -/
theorem not_mem_acceptedCounters {rx win ic : Nat} (hic : replayCheck rx win ic = none) (offered : List Nat) :
    ic ∉ acceptedCounters rx win offered := by
  induction offered generalizing rx win with
  | nil => exact List.not_mem_nil
  | cons x rest ih =>
    cases h : replayCheck rx win x with
    | none => rw [acceptedCounters_discard h]; exact ih hic
    | some r =>
      have hne : ic ≠ x := fun he => by simp [he, h] at hic
      rw [acceptedCounters_accept h]
      exact List.not_mem_cons_of_ne_of_not_mem hne (ih (replayCheck_keeps_discarding h hic))

/-- The accepted counters are distinct: once accepted, a counter is discarded ever after. -/
theorem acceptedCounters_nodup (rx win : Nat) (offered : List Nat) : (acceptedCounters rx win offered).Nodup := by
  induction offered generalizing rx win with
  | nil => exact List.nodup_nil
  | cons x rest ih =>
    cases h : replayCheck rx win x with
    | none => rw [acceptedCounters_discard h]; exact ih rx win
    | some r =>
      rw [acceptedCounters_accept h]
      exact List.nodup_cons.2 ⟨not_mem_acceptedCounters (replayCheck_discards_accepted h) rest, ih r.1 r.2⟩

/-- Settles O57: an accepted counter is discarded from then on, as IC_RX is from the start. -/
theorem replayNeverTwice : Obligations.ReplayNeverTwice := by
  intro rx win offered
  have hrx : replayCheck rx win rx = none := replayCheck_eq_none_iff.2 ⟨le_rfl, .inl rfl⟩
  refine ⟨acceptedCounters_nodup rx win offered, fun ic hic => ⟨(acceptedCounters_sublist rx win offered).mem hic, ?_⟩⟩
  rintro rfl
  exact not_mem_acceptedCounters hrx offered hic

/-! ### What the cipher seals it opens (R156) -/

/-- The key stream over `n` bytes, from block counter 2. -/
def gcmStream (ks : List (List Nat)) (iv : Bytes) (n : Nat) : Bytes :=
  (List.range ((n + 15) / 16)).flatMap fun i => aesEncBlock ks (iv ++ beBytes 4 (i + 2))

theorem gcmCtr_eq (ks : List (List Nat)) (iv bs : Bytes) :
    gcmCtr ks iv bs = bs.zipWith (· ^^^ ·) (gcmStream ks iv bs.length) := rfl

/-- Adding a key stream as long as the text twice gives back the text. -/
theorem zipWith_xor_twice {bs stream : Bytes} (h : bs.length ≤ stream.length) :
    (bs.zipWith (· ^^^ ·) stream).zipWith (· ^^^ ·) stream = bs := by
  induction bs generalizing stream with
  | nil => rfl
  | cons b bs ih =>
    cases stream with
    | nil => cases h
    | cons k stream =>
      rw [List.zipWith_cons_cons, List.zipWith_cons_cons, ih (Nat.le_of_succ_le_succ h), BitVec.xor_assoc,
        BitVec.xor_self, BitVec.xor_zero]

/-- Counter mode is its own inverse. -/
theorem gcmCtr_gcmCtr {ks : List (List Nat)} (iv bs : Bytes) (h0 : ks ≠ []) (h : ∀ k ∈ ks, k.length = 16) :
    gcmCtr ks iv (gcmCtr ks iv bs) = bs := by
  have hlen := gcmCtr_length ks iv bs h0 h
  have hcover : bs.length ≤ (gcmStream ks iv bs.length).length := by
    rw [gcmCtr_eq, List.length_zipWith] at hlen
    omega
  rw [gcmCtr_eq ks iv (gcmCtr ks iv bs), hlen, gcmCtr_eq]
  exact zipWith_xor_twice hcover

/-- A tag of at most a block is as long as asked for. -/
theorem gcmTag_length {ks : List (List Nat)} (iv aad ct : Bytes) {n : Nat} (hn : n ≤ 16) (h0 : ks ≠ [])
    (h : ∀ k ∈ ks, k.length = 16) : (gcmTag ks iv aad ct n).length = n := by
  unfold gcmTag
  simp only [List.length_take, List.length_zipWith, aesEncBlock_length ks _ h0 h, beBytes_length]
  omega

theorem gcmSeal_eq (key iv aad pt : Bytes) (n : Nat) : gcmSeal key iv aad pt n =
    (gcmCtr (aesKeys key) iv pt, gcmTag (aesKeys key) iv aad (gcmCtr (aesKeys key) iv pt) n) := by
  unfold gcmSeal
  rfl

/-- A ciphertext under its own tag is deciphered. -/
theorem gcmOpen_own_tag {key iv aad ct : Bytes} {n : Nat} (h : (gcmTag (aesKeys key) iv aad ct n).length = n) :
    gcmOpen key iv aad ct (gcmTag (aesKeys key) iv aad ct n) = some (gcmCtr (aesKeys key) iv ct) := by
  unfold gcmOpen
  exact if_pos (by rw [h])

/-- Settles O45: the tag is made of the ciphertext, so it verifies, and counter mode is its own inverse. -/
theorem sealOpens : Obligations.SealOpens := by
  intro key iv aad pt hkey _
  obtain ⟨hcount, hround⟩ := aesKeys_length key hkey
  have hkeys : aesKeys key ≠ [] := fun h => by simp [h] at hcount
  have htag := gcmTag_length iv aad (gcmCtr (aesKeys key) iv pt) (n := 12) (by decide) hkeys hround
  rw [gcmSeal_eq]
  refine ⟨?opens, htag, gcmCtr_length _ iv pt hkeys hround⟩
  exact (gcmOpen_own_tag htag).trans (congrArg some (gcmCtr_gcmCtr iv pt hkeys hround))

/-! ### The commands of reassembly and the cipher farm (R152, R153, R156, R160) -/

/-- An outbound APDU that could be encrypted goes out on its port. -/
theorem Dev.cipherEncrypt_sends {d : Dev} {slot : Nat} (port : Nat) {sys pt bs : Bytes}
    (h : (d.cipherTo slot sys pt).2 = some bs) :
    d.cipherEncrypt slot port sys pt = (d.cipherTo slot sys pt).1.sendTo slot port bs := by
  unfold Dev.cipherEncrypt
  rw [show d.cipherTo slot sys pt = ((d.cipherTo slot sys pt).1, some bs) from Prod.ext rfl h]

/-- Settles O16: each command acts by its gate, and an encryption that yields an APDU sends it. -/
theorem ingestComplete : Obligations.IngestComplete := by
  refine ⟨?fragment, ?timeout, ?decrypt, ?encrypt⟩
  case fragment => exact fun d g f hup _ => runs_whenUp (g := fun d => d.reassemble g) (fun _ => rfl) rfl hup
  case timeout => exact fun d hup => runs_whenUp (g := Dev.reasmTimeout) (fun _ => rfl) rfl hup
  case decrypt => exact fun d is hup => runs_whenUp (g := fun d => d.cipherDecrypt is) (fun _ => rfl) rfl hup
  case encrypt =>
    intro d slot port sys pt bs hw hup hbs
    exact runs_whenUp_to (fun _ => rfl) hw hup (Dev.cipherEncrypt_sends port hbs)

end Sys2Proof.Machine
end

section
/-!
PROOFS. The family of seats and mailboxes: doorbells and locks, resets of a seat, uplinks and rings, and the address directory.
-/

namespace Sys2Proof.Machine

/-! ### Registers of a mailbox -/

/-- A write of one entry of an array leaves the field in every other entry. -/
theorem Dev.rd_wr_otherEntry (d : Dev) {F : Fld} (v : Nat) {i j : Nat} (hs : 0 < F.stride) (h : j ≠ i) :
    (d.wr F v i).rd F j = d.rd F j := by
  refine Dev.rd_wr_other d F F v i 0 j 0 fun he => h ?_
  exact Nat.eq_of_mul_eq_mul_right hs (Nat.add_left_cancel (Nat.add_left_cancel he))

/-- A write of one register of a mailbox leaves the other registers of all mailboxes. -/
theorem Dev.rd_wr_otherMbxReg (d : Dev) {F G : Fld} (v : Nat) {i j : Nat} (hF : F.stride = 0x40) (hG : G.stride = 0x40)
    (h : G.off % 0x40 ≠ F.off % 0x40) : (d.wr F v i).rd G j = d.rd G j := by
  refine Dev.rd_wr_other d F G v i 0 j 0 ?_
  rw [hF, hG]
  omega

/-- A counter that saturates reads its value plus what was added, up to its greatest value. -/
theorem Dev.rd_bump_same (d : Dev) (F : Fld) (n i : Nat) (h1 : F.lo ≤ F.hi) (h2 : F.hi < 32) :
    (d.bump F n i).rd F i = min (d.rd F i + n) F.max := by
  have hmax : F.max < 2 ^ (F.hi + 1 - F.lo) := Nat.sub_one_lt_of_lt (Nat.two_pow_pos _)
  rw [Dev.bump, Dev.rd_wr_same d F _ i 0 h1 h2]
  exact Nat.mod_eq_of_lt ((Nat.min_le_right _ _).trans_lt hmax)

/-! ### Interrupts and rings (R297) -/

/-- Raising a mailbox's interrupt changes no register. -/
theorem Dev.rd_mbxIrq (d : Dev) (m : Nat) (F : Fld) (i : Nat) : (d.mbxIrq m).rd F i = d.rd F i := by
  simp only [Dev.rd, Dev.word_mbxIrq]

/-- A mailbox that no seat receives interrupts its core. -/
theorem Dev.mbxIrq_core {d : Dev} {m : Nat} (h : d.cfg.mbxSeat m = none) : d.mbxIrq m = d.emit (.coreIrq m) := by
  rw [Dev.mbxIrq, h]

/-- Pending bit `b` of mailbox `m` is set, and pends from the running tick. -/
def Dev.setPend (d : Dev) (m b : Nat) : Dev :=
  (d.wr Reg.MBX_PEND.PEND (d.rd Reg.MBX_PEND.PEND m + 2 ^ b) m).onMb m fun s =>
    { s with pendSince := SMap.set (fun _ => 0) s.pendSince b (d.time.tick + 1) }

/-- A register reads after a new pending bit as after the write of PEND. -/
theorem Dev.rd_setPend (d : Dev) (m b : Nat) (F : Fld) (i : Nat) :
    (d.setPend m b).rd F i = (d.wr Reg.MBX_PEND.PEND (d.rd Reg.MBX_PEND.PEND m + 2 ^ b) m).rd F i :=
  Dev.rd_congr (Dev.onMb_regs _ _ _) F i 0

/-- A new pending bit sends nothing out. -/
theorem Dev.setPend_out (d : Dev) (m b : Nat) : (d.setPend m b).out = d.out :=
  (Dev.onMb_out _ _ _).trans (Dev.wr_out d _ _ _ _)

/-- A new pending bit leaves the canvas. -/
theorem Dev.setPend_cfg (d : Dev) (m b : Nat) : (d.setPend m b).cfg = d.cfg :=
  Dev.cfg_congr ((Dev.onMb_cv _ _ _).trans (Dev.wr_cv d _ _ _ _))

/-- A ring onto a pending bit is counted in MERGED, and that is all. -/
theorem Dev.ringBit_pending {d : Dev} {m b : Nat} (h : bitOf (d.rd Reg.MBX_PEND.PEND m) b = true) :
    d.ringBit m b = d.bump Reg.MBX_CNT.MERGED 1 m := if_pos h

/-- A ring of another bit sets it, and raises the interrupt unless the bit is masked. -/
theorem Dev.ringBit_new {d : Dev} {m b : Nat} (h : bitOf (d.rd Reg.MBX_PEND.PEND m) b = false) :
    d.ringBit m b =
      if bitOf (d.rd Reg.MBX_MASK.MASK m) b then d.setPend m b else (d.setPend m b).mbxIrq m := by
  have hmask : (d.setPend m b).rd Reg.MBX_MASK.MASK m = d.rd Reg.MBX_MASK.MASK m :=
    (Dev.rd_setPend d m b _ _).trans (Dev.rd_wr_otherMbxReg d _ rfl rfl (by decide))
  rw [← hmask]
  exact if_neg (ne_true_of_eq_false h)

/-- A register reads after the ring of a new bit as after the write of PEND. -/
theorem Dev.rd_ringBit_new {d : Dev} {m b : Nat} (h : bitOf (d.rd Reg.MBX_PEND.PEND m) b = false) (F : Fld) (i : Nat) :
    (d.ringBit m b).rd F i = (d.wr Reg.MBX_PEND.PEND (d.rd Reg.MBX_PEND.PEND m + 2 ^ b) m).rd F i := by
  rw [Dev.ringBit_new h, ← Dev.rd_setPend]
  split
  · rfl
  · exact Dev.rd_mbxIrq _ _ _ _

/-- A ring leaves the pending bits of every other mailbox. -/
theorem Dev.ringBit_otherPend (d : Dev) {m j : Nat} (b : Nat) (h : j ≠ m) :
    (d.ringBit m b).rd Reg.MBX_PEND.PEND j = d.rd Reg.MBX_PEND.PEND j := by
  cases hp : bitOf (d.rd Reg.MBX_PEND.PEND m) b with
  | true => rw [Dev.ringBit_pending hp]; exact Dev.rd_wr_otherMbxReg d _ rfl rfl (by decide)
  | false => rw [Dev.rd_ringBit_new hp]; exact Dev.rd_wr_otherEntry d _ (by decide) h

/-! ### Doorbells (R33, R297) -/

/-- A permitted doorbell with FENCE is held; one without rings at once. -/
theorem Dev.mbxDoorbell_permitted {d : Dev} {g : Agent} {m v k : Nat} (hk : d.mbxOf g m = some k)
    (hr : d.mayRing g k (bitsOf v 4 0) = true) :
    d.mbxDoorbell g m v =
      if bitOf v 5 then { d with held := d.held ++ [{ writer := g.num, mbx := k, bit := bitsOf v 4 0 }] }
      else d.ringBit k (bitsOf v 4 0) := by
  simp [Dev.mbxDoorbell, hk, hr]

/-- Settles O53: the doorbell is a ring of the bit, which either counts in MERGED or writes PEND and raises the interrupt. -/
theorem ringMerges : Obligations.RingMerges := by
  intro d g m v k hw hup hk _ hr hfence
  have hring : d.mbxDoorbell g m v = d.ringBit k (bitsOf v 4 0) :=
    (Dev.mbxDoorbell_permitted hk hr).trans (if_neg (ne_true_of_eq_false hfence))
  refine ⟨_, runs_whenUp_to (fun _ => rfl) hw hup hring, Dev.ringBit_inner d k _, ?merges, ?sets,
    fun j _ hj => Dev.ringBit_otherPend d _ hj⟩
  case merges =>
    intro hp
    rw [Dev.ringBit_pending hp]
    exact ⟨Dev.rd_wr_otherMbxReg d _ rfl rfl (by decide), Dev.rd_bump_same d _ 1 k (by decide) (by decide),
      Dev.bump_out d _ _ _ _⟩
  case sets =>
    intro hp
    rw [Dev.rd_ringBit_new hp, Dev.rd_ringBit_new hp]
    refine ⟨Dev.rd_wr_same d _ _ k 0 (by decide) (by decide), Dev.rd_wr_otherMbxReg d _ rfl rfl (by decide), ?masked,
      ?core⟩
    case masked =>
      intro hmask
      rw [Dev.ringBit_new hp, if_pos hmask]
      exact Dev.setPend_out d k _
    case core =>
      intro hmask hcore
      have hirq : (d.setPend k (bitsOf v 4 0)).cfg.mbxSeat k = none := by rw [Dev.setPend_cfg, hcore]
      rw [Dev.ringBit_new hp, if_neg (ne_true_of_eq_false hmask), Dev.mbxIrq_core hirq]
      exact congrArg (Out.coreIrq k :: ·) (Dev.setPend_out d k _)

/-! ### Uplinks (R78, R173, R286, R287) -/

/-- A frame of the house firmware that is no PTP event goes out in the buffers granted for it. -/
theorem Dev.uplinkSend_house {d d1 : Dev} {uu c : Nat} {frame : Bytes} {bs : List Nat}
    (ha : d.poolAsk .house 0 (bufsOf frame.length) = (d1, some bs)) (hp : ptpEvent frame = none) :
    d.uplinkSend (.house uu frame c) = (d1.emit (.datagram 0 (uu % 2) frame)).poolGive 0 bs := by
  simp only [Dev.uplinkSend, ha, hp]

/-- A PTP event message of the house firmware leaves its egress timestamp behind. -/
theorem Dev.uplinkSend_ptp {d d1 : Dev} {uu c : Nat} {frame m : Bytes} {bs : List Nat}
    (ha : d.poolAsk .house 0 (bufsOf frame.length) = (d1, some bs)) (hp : ptpEvent frame = some m) :
    d.uplinkSend (.house uu frame c) =
      ((d1.ptpEgress (uu % 2) c (ptpSeq m)).emit (.datagram 0 (uu % 2) frame)).poolGive 0 bs := by
  simp only [Dev.uplinkSend, ha, hp]

/-- An acknowledgement of a kept marker frees everything up to it. -/
theorem Dev.uplAck_kept {d : Dev} {n tag path : Nat} {m : Marker} (hm : (d.seat n).marker tag path = some m) :
    d.uplAck n tag path = d.onSeat n fun s => { s with
      staging := s.staging.filter fun r => !(r.path == some path && decide (r.ord ≤ m.ord)),
      markers := s.markers.filter fun x => !(x.path == path && decide (x.ord ≤ m.ord)) } := by
  simp only [Dev.uplAck, hm]

/-- With no retransmission under way, that of a kept marker's span starts on any path but 3. -/
theorem Dev.uplRetx_kept {d : Dev} {n tag path : Nat} {m : Marker} (hb : d.on Reg.UPL_STAT.RETX_BUSY 0 n = false)
    (hp : path ≠ 3) (hm : (d.seat n).marker tag path = some m) :
    d.uplRetx n tag path =
      (let span := (d.seat n).staging.filter fun r => r.path == some path && r.ord == m.ord
       ((if span.length < m.count then d.raiseCopy Stk.UPL_STAT.PARTIAL n else d).wr Reg.UPL_STAT.RETX_BUSY 1 0 n).onSeat n
        fun s => { s with
          retx := some { tag, path, span := span.map (fun r => setResent r.bytes) ++ [setResent m.bytes] } }) := by
  simp [Dev.uplRetx, hb, hp, hm]

/-- The span under way goes out as far as its path has room. -/
theorem Dev.uplRetxDone_span {d : Dev} {n : Nat} {r : Retx} (hr : (d.seat n).retx = some r) :
    d.uplRetxDone n =
      (let q := d.putAll n r.path r.span
       if q.2.isEmpty then (q.1.wr Reg.UPL_STAT.RETX_BUSY 0 0 n).onSeat n fun s => { s with retx := none }
       else q.1.onSeat n fun s => { s with retx := some { r with span := q.2 } }) := by
  simp only [Dev.uplRetxDone, hr]

/-- An untagged frame goes to the house firmware. -/
theorem Dev.uplinkFrameRx_untagged {d : Dev} {uu c : Nat} {b : Bytes} (mac : Option Bytes)
    (h : ofBe (slice b 12 2) ≠ etVlan) : d.uplinkFrameRx uu c b mac = (d.advance c).houseRx (uu % 2) c b := if_pos h

/-- A tagged frame of a seat without MACsec goes to the seat as it is. -/
theorem Dev.uplinkFrameRx_plain {d : Dev} {uu c n : Nat} {b : Bytes} (mac : Option Bytes)
    (ht : ofBe (slice b 12 2) = etVlan) (hn : (d.advance c).cfg.seatOfVid (vidOf b) = some n)
    (hk : (d.advance c).cfg.seatCak n = 0) : d.uplinkFrameRx uu c b mac = (d.advance c).seatRx n (uu % 2) b := by
  simp only [Dev.uplinkFrameRx, ht, hn, hk, ne_eq, not_true, if_false, if_true]

/-- A tagged frame of a seat with MACsec goes to the seat with its SecTAG taken off. -/
theorem Dev.uplinkFrameRx_secured {d : Dev} {uu c n : Nat} {b f : Bytes} (ht : ofBe (slice b 12 2) = etVlan)
    (hn : (d.advance c).cfg.seatOfVid (vidOf b) = some n) (hk : (d.advance c).cfg.seatCak n ≠ 0) :
    d.uplinkFrameRx uu c b (some f) = (d.advance c).seatRx n (uu % 2) f := by
  simp only [Dev.uplinkFrameRx, ht, hn, hk, ne_eq, not_true, if_false]

/-! ### Register access datagrams and rings (R289, R290) -/

/-- A gated command that reads the memories completes in operation with whatever its body is known to give. -/
theorem exec_actRead_to {i : Instr} {q : List Instr} {a : Arrays} {d e : Dev} {g : Arrays → Dev → Dev}
    (h : ∀ s : State, exec i s = actRead s i fun a d => d.whenUp (g a)) (hw : i.wf = true) (hup : d.sys.phase = .up)
    (he : g a d = e) : exec i ⟨q, a, d⟩ = .next ⟨q, a, e⟩ := by
  rw [h, actRead, if_pos hw, Dev.whenUp_up _ hup, he]

/-- With no response kept, the oldest request that waits is served. -/
theorem Dev.regDatagram_fresh {d : Dev} {n c : Nat} {r : DgramReq} {rest : List DgramReq} (a : Arrays)
    (hw : (d.seat n).dgramWait = r :: rest)
    (hl : ((d.onSeat n fun s => { s with dgramWait := rest }).seat n).dgramLast = none) :
    d.regDatagram a n c = (d.onSeat n fun s => { s with dgramWait := rest }).dgramServe a n c r := by
  simp only [Dev.regDatagram, hw, hl]

/-! ### The address directory (R292) -/

/-- A new key for a slot of the seat's own enters the directory while it has room. -/
theorem Dev.adirInsert_new {d : Dev} {n : Nat} (hs : d.cfg.seatOfSlot (d.rd Reg.ADIR_ARG.SLOT 0 n) = some n)
    (hk : d.pool.adirSoon (d.adirKeyOf n) = none) (hroom : d.pool.adirSize < adirCap) :
    d.adirInsert n = (d.adirChange { key := d.adirKeyOf n, ent := some {
      slot := d.rd Reg.ADIR_ARG.SLOT 0 n, seat := n, n := d.pool.adirCount } }).adirResult n 0 := by
  simp [Dev.adirInsert, hs, hk, Nat.not_le.2 hroom]

/-- A key that the seat has is given the new slot, and keeps its port. -/
theorem Dev.adirInsert_own {d : Dev} {n : Nat} {e : AdirEnt} (hs : d.cfg.seatOfSlot (d.rd Reg.ADIR_ARG.SLOT 0 n) = some n)
    (hk : d.pool.adirSoon (d.adirKeyOf n) = some e) (he : e.seat = n) :
    d.adirInsert n = (d.adirChange { key := d.adirKeyOf n, ent := some {
      slot := d.rd Reg.ADIR_ARG.SLOT 0 n, seat := n, n := d.pool.adirCount, port := e.port } }).adirResult n 0 := by
  simp [Dev.adirInsert, hs, hk, he]

/-- A key that the seat has leaves the directory. -/
theorem Dev.adirDelete_own {d : Dev} {n : Nat} {e : AdirEnt} (hk : d.pool.adirSoon (d.adirKeyOf n) = some e)
    (he : e.seat = n) : d.adirDelete n = (d.adirChange { key := d.adirKeyOf n, ent := none }).adirResult n 0 := by
  simp [Dev.adirDelete, hk, he]

/-- A key of the seat that is in effect shows its slot. -/
theorem Dev.adirLookup_own {d : Dev} {n : Nat} {e : AdirEnt} (hk : SMap.find d.pool.adir (d.adirKeyOf n) = some e)
    (he : e.seat = n) : d.adirLookup n = (d.wr Reg.ADIR_ARG.SLOT e.slot 0 n).adirResult n 0 := by
  simp [Dev.adirLookup, hk, he]

/-- Settles O18: each command acts by its gate, and the branch that its conditions choose gives what it leaves. -/
theorem uplinksAndDirectoryComplete : Obligations.UplinksAndDirectoryComplete := by
  refine ⟨?records, ?house, ?ptp, ?ack, ?retx, ?retxDone, ?untagged, ?plain, ?secured, ?datagram, ?ring, ?insertNew,
    ?insertOwn, ?delete, ?lookup⟩
  case records =>
    rintro d _ n path sak hw hup rfl _ _ _ _
    exact runs_whenUp_to (fun _ => rfl) hw hup rfl
  case house =>
    rintro d _ uu frame c d1 bs hw hup rfl ha hp
    exact runs_whenUp_to (fun _ => rfl) hw hup (Dev.uplinkSend_house ha hp)
  case ptp =>
    rintro d _ uu frame c d1 m bs hw hup rfl ha hp
    exact runs_whenUp_to (fun _ => rfl) hw hup (Dev.uplinkSend_ptp ha hp)
  case ack => exact fun d n tag path m hw hup hm => runs_whenUp_to (fun _ => rfl) hw hup (Dev.uplAck_kept hm)
  case retx =>
    intro d n tag path m hw hup hb hp hm
    exact runs_whenUp_to (fun _ => rfl) hw hup (Dev.uplRetx_kept hb hp hm)
  case retxDone => exact fun d n r hw hup hr => runs_whenUp_to (fun _ => rfl) hw hup (Dev.uplRetxDone_span hr)
  case untagged =>
    intro d uu c frame mac hw hup h
    exact runs_whenUp_to (fun _ => rfl) hw hup (Dev.uplinkFrameRx_untagged mac h)
  case plain =>
    intro d uu c frame mac n hw hup ht hn hk
    exact runs_whenUp_to (fun _ => rfl) hw hup (Dev.uplinkFrameRx_plain mac ht hn hk)
  case secured =>
    rintro d uu c frame _ n b hw hup ht hn hk rfl
    exact runs_whenUp_to (fun _ => rfl) hw hup (Dev.uplinkFrameRx_secured ht hn hk)
  case datagram =>
    intro q a d n c r rest hw hup hwait hlast
    exact exec_actRead_to (g := fun a d => d.regDatagram a n c) (fun _ => rfl) hw hup (Dev.regDatagram_fresh a hwait hlast)
  case ring =>
    exact fun d n r v items hw hup => runs_whenUp (g := fun d => d.ringHostWrite n r v items) (fun _ => rfl) hw hup
  case insertNew =>
    exact fun d n hw hup hs hk hroom => runs_whenUp_to (fun _ => rfl) hw hup (Dev.adirInsert_new hs hk hroom)
  case insertOwn =>
    exact fun d n e hw hup hs hk he => runs_whenUp_to (fun _ => rfl) hw hup (Dev.adirInsert_own hs hk he)
  case delete => exact fun d n e hw hup hk he => runs_whenUp_to (fun _ => rfl) hw hup (Dev.adirDelete_own hk he)
  case lookup => exact fun d n e hw hup hk he => runs_whenUp_to (fun _ => rfl) hw hup (Dev.adirLookup_own hk he)

/-! ### Resets of a seat (R285, R295) -/

/-- L4 of an open seat begins while the device is in operation. -/
theorem Dev.l4_open {d : Dev} {n : Nat} (hup : d.sys.phase = .up) (hs : d.rd Reg.SEAT_STAT.STATE n = 1) :
    d.l4 n = (d.resetCause 6 4 false false).seatReset n :=
  if_neg fun h => h.elim (fun h => h hup) fun h => h hs

/-- An FLR of the VF of an open seat performs L4 of the seat. -/
theorem Dev.vfFlr_open {d : Dev} {n : Nat} (hn : 0 < n ∧ n < 64) (hup : d.sys.phase = .up)
    (hs : d.rd Reg.SEAT_STAT.STATE n = 1) : d.vfFlr n = ((d.clearMsix n).resetCause 6 4 false false).seatReset n := by
  have hup' : (d.clearMsix n).sys.phase = .up := (congrArg SysSt.phase (Dev.onSeat_sys d n _)).trans hup
  have hs' : (d.clearMsix n).rd Reg.SEAT_STAT.STATE n = 1 := (Dev.rd_congr (Dev.onSeat_regs d n _) _ _ _).trans hs
  exact (if_pos hn).trans (Dev.l4_open hup' hs')

/-- A seat in L4 reopens. -/
theorem Dev.seatReopen_reset {d : Dev} {n : Nat} (hup : d.sys.phase = .up) (hs : d.rd Reg.SEAT_STAT.STATE n = 2) :
    d.seatReopen n = ((d.openSeat n).raiseSeat Stk.SEAT_STAT.L4_SEEN n).ringSeat n 28 :=
  if_neg fun h => h.elim (fun h => h hup) fun h => h hs

/-! ### Locks and time limits of a mailbox (R299, R300) -/

/-- A house core, the receiver or the owner releases the lock. -/
theorem Dev.mbxUnlock_permitted {d : Dev} {g : Agent} {m v k : Nat} (hk : d.mbxOf g m = some k) (hv : bitOf v 0 = true)
    (hg : (∃ i, g = .core i) ∨ d.receives g k = true ∨ d.rd Reg.MBX_LOCK.OWNER k = g.num) :
    d.mbxUnlock g m v = d.wr Reg.MBX_LOCK.OWNER 0 k := by
  rcases hg with ⟨i, rfl⟩ | hg | hg
  · simp [Dev.mbxUnlock, hk, hv]
  · simp [Dev.mbxUnlock, hk, hv, hg]
  · simp [Dev.mbxUnlock, hk, hv, hg]

/-- An aged bit is flagged once. -/
theorem Dev.doorbellAged_first {d : Dev} {m : Nat} (hd : (d.mb m).agedDone = false) (ha : d.hasAged m = true) :
    d.doorbellAged m = (d.onMb m fun s => { s with agedDone := true }).raiseFor Stk.MBX.AGED (d.mbxView m) m := by
  simp [Dev.doorbellAged, hd, ha]

/-- A lock held for 100 ticks is released, counted and flagged. -/
theorem Dev.lockTimeout_due {d : Dev} {m : Nat} (ho : d.rd Reg.MBX_LOCK.OWNER m ≠ 0)
    (ht : (d.mb m).lockTick + 100 ≤ d.time.tick) :
    d.lockTimeout m = ((d.wr Reg.MBX_LOCK.OWNER 0 m).bump Reg.MBX_CNT.LOCK_TMO 1 m).raiseFor Stk.MBX.LOCK_TMO
      (d.mbxView m) m [(1, d.rd Reg.MBX_LOCK.OWNER m)] := by
  simp [Dev.lockTimeout, ho, Nat.not_lt.2 ht]

/-- Settles O19: each command acts by its gate, and the branch that its conditions choose gives what it leaves. -/
theorem seatsAndMailboxesComplete : Obligations.SeatsAndMailboxesComplete := by
  refine ⟨?vfFlr, ?pfFlr, ?l4, ?reopen, ?doorbell, ?visible, ?lock, ?unlock, ?aged, ?timeout⟩
  case vfFlr =>
    intro d n hw hup hs
    have hn : 0 < n ∧ n < 64 := of_decide_eq_true hw
    exact runs_whenUp_to (fun _ => rfl) hw hup (Dev.vfFlr_open hn hup hs)
  case pfFlr => exact fun d hup => runs_whenUp (g := Dev.pfFlr) (fun _ => rfl) rfl hup
  case l4 => exact fun d n hw hup hs => runs_whenUp_to (fun _ => rfl) hw hup (Dev.l4_open hup hs)
  case reopen => exact fun d n hw hup hs => runs_whenUp_to (fun _ => rfl) hw hup (Dev.seatReopen_reset hup hs)
  case doorbell =>
    intro d g m v k hw hup hk hr
    exact runs_whenUp_to (fun _ => rfl) hw hup (Dev.mbxDoorbell_permitted hk hr)
  case visible => exact fun d g hw hup => runs_whenUp (g := fun d => d.doorbellVisible g) (fun _ => rfl) hw hup
  case lock => exact fun d gs m hw hup => runs_whenUp (g := fun d => d.mbxLock gs m) (fun _ => rfl) hw hup
  case unlock =>
    intro d g m v k hw hup hk hv hg
    exact runs_whenUp_to (fun _ => rfl) hw hup (Dev.mbxUnlock_permitted hk hv hg)
  case aged => exact fun d m hw hup hd ha => runs_whenUp_to (fun _ => rfl) hw hup (Dev.doorbellAged_first hd ha)
  case timeout => exact fun d m hw hup ho ht => runs_whenUp_to (fun _ => rfl) hw hup (Dev.lockTimeout_due ho ht)

end Sys2Proof.Machine
end

section
/-!
PROOFS. The memory family: accesses, atomic operations and partial writes of SRAM and DRAM, the power states of banks and
channels, and the commands of the NAND, of the event recorder and of the receivers.
-/

namespace Sys2Proof.Machine

/-! ### Commands on the memories while the device is in operation -/

/-- A command on the memories completes in operation with whatever its body is known to give. -/
theorem runsOn_arraysUp {i : Instr} {p r : Arrays × Dev} {g : Arrays × Dev → Arrays × Dev}
    (h : ∀ s : State, exec i s = actArrays s i (Dev.arraysUp g)) (hw : i.wf = true) (hup : p.2.sys.phase = .up)
    (hr : g p = r) : RunsOn i p r := by
  intro q
  rw [h, actArrays, if_pos hw, Dev.arraysUp_up g hup, hr]

/-- A command on an address that exists completes in operation with what its body gives. -/
theorem runsOn_address {i : Instr} {p : Arrays × Dev} {f : Fault} {ok : Bool} {g : Arrays × Dev → Arrays × Dev}
    (h : ∀ s : State, exec i s = actMemory s i f ok (Dev.arraysUp g)) (hw : i.wf = true) (hok : ok = true)
    (hup : p.2.sys.phase = .up) : RunsOn i p (g p) := by
  intro q
  rw [h, actMemory_ok hw hok, Dev.arraysUp_up g hup]

/-- What the body of a command on an address keeps of the memories, the command keeps. -/
theorem keeps_of_address {P : Arrays → Prop} {s s' : State} {i : Instr} {f : Fault} {ok : Bool}
    {g : Arrays × Dev → Arrays × Dev} (h : actMemory s i f ok (Dev.arraysUp g) = .next s') (h0 : P s.arr)
    (hg : P (g (s.arr, s.dev)).1) : P s'.arr := by
  obtain ⟨rfl, -, -⟩ := actMemory_next h
  by_cases hup : s.dev.sys.phase = .up
  · rwa [Dev.arraysUp_up g hup]
  · rwa [Dev.arraysUp_not g hup]

/-- In operation SRAM_ATOMIC completes on an address inside SRAM. -/
theorem runsOn_sramAtomic {p : Arrays × Dev} {c req addr n : Nat} {op : AtomicOp} {v : Nat} {ups : List Upset}
    (hw : (Instr.sramAtomic c req addr n op v ups).wf = true) (hup : p.2.sys.phase = .up) (ha : addr < 2 ^ 27) :
    RunsOn (.sramAtomic c req addr n op v ups) p (sramAtomic p c req addr n op v ups) :=
  runsOn_address (g := fun p => sramAtomic p c req addr n op v ups) (fun _ => rfl) hw (decide_eq_true ha) hup

/-- In operation PARTIAL_WRITE completes on an address inside its memory. -/
theorem runsOn_partialWrite {p : Arrays × Dev} {sel : MemSel} {addr : Nat} {bs : Bytes} {ups : List Upset}
    (hw : (Instr.partialWrite sel addr bs ups).wf = true) (hup : p.2.sys.phase = .up) (ha : addr < memBytes sel) :
    RunsOn (.partialWrite sel addr bs ups) p (partialWrite p sel addr bs ups) :=
  runsOn_address (g := fun p => partialWrite p sel addr bs ups) (fun _ => rfl) hw (decide_eq_true ha) hup

/-! ### Addresses outside a memory (R304, R313) -/

/-- Settles O4: each command tests its address before anything else. -/
theorem addressesOutsideMemoryFault : Obligations.AddressesOutsideMemoryFault := by
  intro s
  refine ⟨?access, ?atomic, ?partialSram, ?partialDram, ?patrol, ?dram⟩
  case access =>
    rintro c reqs ups hw ⟨r, hr, ha⟩
    exact actMemory_fault hw (List.all_eq_false.2 ⟨r, hr, by simpa using ha⟩)
  case atomic => exact fun c req addr n op v ups hw ha => actMemory_fault hw (decide_eq_false (Nat.not_lt.2 ha))
  case partialSram => exact fun addr bs ups hw ha => actMemory_fault hw (decide_eq_false (Nat.not_lt.2 ha))
  case partialDram => exact fun addr bs ups hw ha => actMemory_fault hw (decide_eq_false (Nat.not_lt.2 ha))
  case patrol => exact fun w ups ha => actMemory_fault rfl (decide_eq_false (Nat.not_lt.2 ha))
  case dram => exact fun w ups ha => actMemory_fault rfl (decide_eq_false (Nat.not_lt.2 ha))

/-! ### A cycle of SRAM accesses (R305, R306) -/

/-- The requests of a cycle leave some address unwritten. -/
theorem exists_not_storesTo (reqs : List MemReq) : ∃ x, ∀ r ∈ reqs, ¬ storesTo r x := by
  refine ⟨(reqs.map fun r => r.addr + (r.wdata.getD []).length).sum, ?_⟩
  rintro r hr ⟨bs, hbs, -, hlt⟩
  have hle := List.single_le_sum (fun _ _ => Nat.zero_le _) _
    (List.mem_map_of_mem (f := fun r : MemReq => r.addr + (r.wdata.getD []).length) hr)
  rw [hbs] at hle
  exact absurd hlt (Nat.not_lt.2 hle)

/-- A cycle of accesses changes no byte of SRAM that none of its requests stores to, and nothing of DRAM. -/
theorem sramAccess_frame (p : Arrays × Dev) (c : Nat) {reqs : List MemReq} (ups : List Upset) {x : Nat}
    (h : ∀ r ∈ reqs, ¬ storesTo r x) :
    (sramAccess p c reqs ups).1.sram.byte x = p.1.sram.byte x ∧ (sramAccess p c reqs ups).1.dram = p.1.dram := by
  obtain ⟨hbyte, hdram⟩ := bytes_foldl _ x (reqs.map fun r => bankOf (r.addr / 8)).eraseDups
    ({ p.1.prune c with sram := p.1.sram.upset ups }, p.2.advance c)
    fun q b _ => sramBank_frame q c _ x fun r hr => h r (List.mem_of_mem_filter hr)
  exact ⟨hbyte.trans (MemArray.byte_upset _ _ _), hdram⟩

/-- A cycle of accesses leaves DRAM as it was, since some address is outside all its stores. -/
theorem sramAccess_dram (p : Arrays × Dev) (c : Nat) (reqs : List MemReq) (ups : List Upset) :
    (sramAccess p c reqs ups).1.dram = p.1.dram := by
  obtain ⟨x, hx⟩ := exists_not_storesTo reqs
  exact (sramAccess_frame p c ups hx).2

/-- Settles O49: every bank serves requests of the cycle alone. -/
theorem sramAccessFrame : Obligations.SramAccessFrame := by
  intro c reqs ups s s' h
  exact keeps_of_address
    (P := fun a => (∀ x, (∀ r ∈ reqs, ¬ storesTo r x) → a.sram.byte x = s.arr.sram.byte x) ∧ a.dram = s.arr.dram)
    (g := fun p => sramAccess p c reqs ups) h ⟨fun _ _ => rfl, rfl⟩
    ⟨fun x hx => (sramAccess_frame _ c ups hx).1, sramAccess_dram _ c reqs ups⟩

/-! ### Numbers in memory -/

/-- The number of the low bytes of `v` is `v` modulo their width. -/
theorem ofLe_leBytes (n v : Nat) : ofLe (leBytes n v) = v % 2 ^ (8 * n) := by
  induction n generalizing v with
  | zero => simp [leBytes, ofLe, Nat.mod_one]
  | succ n ih =>
    have hw : 2 ^ (8 * (n + 1)) = 256 * 2 ^ (8 * n) := by rw [Nat.mul_succ, pow_add, mul_comm]; rfl
    rw [leBytes, ofLe, ih, BitVec.toNat_ofNat, hw, Nat.mod_mul]

/-- A number reads as its bytes were written. -/
theorem MemArray.peek_poke_same (m : MemArray) (a : Nat) (bs : Bytes) : (m.poke a bs).peek a bs.length = ofLe bs := by
  refine congrArg ofLe (List.ext_getElem (by simp) fun i _ hi => ?_)
  simp [MemArray.byte_poke_inside m a i bs hi]

@[simp] theorem MemArray.peek_setCheck (m : MemArray) (w : Nat) (e : WordEcc) (a n : Nat) :
    (m.setCheck w e).peek a n = m.peek a n := rfl

/-- The check state just set is read back. -/
@[simp] theorem MemArray.check_setCheck_same (m : MemArray) (w : Nat) (e : WordEcc) : (m.setCheck w e).check w = e :=
  SMap.get_set_same _ _ _ _

/-! ### Atomic operations (R307) -/

@[simp] theorem Dev.advance_groupOff (d : Dev) (c bank : Nat) : (d.advance c).groupOff bank = d.groupOff bank := by
  simp [Dev.groupOff]

@[simp] theorem Dev.advance_groupFailed (d : Dev) (c bank : Nat) :
    (d.advance c).groupFailed bank = d.groupFailed bank := by
  simp [Dev.groupFailed]

/-- An atomic operation changes no byte outside its word, and nothing of DRAM. -/
theorem sramAtomic_frame (p : Arrays × Dev) (c req addr n : Nat) (op : AtomicOp) (v : Nat) (ups : List Upset) :
    (∀ x, x < addr ∨ addr + n ≤ x → (sramAtomic p c req addr n op v ups).1.sram.byte x = p.1.sram.byte x) ∧
      (sramAtomic p c req addr n op v ups).1.dram = p.1.dram := by
  have hupset (x : Nat) := MemArray.byte_upset p.1.sram ups x
  unfold sramAtomic
  dsimp only
  split_ifs
  · exact ⟨fun x _ => hupset x, rfl⟩
  · exact ⟨fun x _ => hupset x, rfl⟩
  · exact ⟨fun x _ => hupset x, rfl⟩
  · split
    · exact ⟨fun x _ => hupset x, rfl⟩
    · exact ⟨fun x _ => hupset x, rfl⟩
    · exact ⟨fun x hx => (MemArray.byte_poke_outside _ _ _ _ (by simpa using hx)).trans (hupset x), rfl⟩

/-- An add or swap on a clean or correctable word of a group that is on answers the old value and stores the new one. -/
theorem sramAtomic_served {p : Arrays × Dev} {addr : Nat} {op : AtomicOp} {ups : List Upset} (c req n v : Nat)
    (hop : op ≠ .other) (hon : p.2.groupOff (bankOf (addr / 8)) = false)
    (hok : p.2.groupFailed (bankOf (addr / 8)) = false)
    (hw : (p.1.sram.upset ups).check (addr / 8) = .clean ∨ (p.1.sram.upset ups).check (addr / 8) = .single) :
    (∃ busy, (sramAtomic p c req addr n op v ups).1.resp =
      { req, addr, cyc := c, data := (p.1.sram.upset ups).peek addr n, busy, poison := false } :: p.1.resp) ∧
    (sramAtomic p c req addr n op v ups).1.sram = ((p.1.sram.upset ups).poke addr (leBytes n
      ((if op = .add then (p.1.sram.upset ups).peek addr n + v else v) % 2 ^ (8 * n)))).setCheck (addr / 8) .clean := by
  have hne : (op == .other) = false := beq_false_of_ne hop
  unfold sramAtomic
  simp only [hne, Dev.advance_groupOff, Dev.advance_groupFailed, hon, hok, Bool.false_eq_true, if_false]
  cases op with
  | other => exact absurd rfl hop
  | add => rcases hw with hw | hw <;> simp [hw, Arrays.touch, Arrays.prune, Arrays.answer]
  | swap => rcases hw with hw | hw <;> simp [hw, Arrays.touch, Arrays.prune, Arrays.answer]

/-- Settles O46: the word written is the only store of the command. -/
theorem sramAtomicFrame : Obligations.SramAtomicFrame := by
  intro c req addr n op v ups s s' h
  exact keeps_of_address
    (P := fun a => (∀ x, x < addr ∨ addr + n ≤ x → a.sram.byte x = s.arr.sram.byte x) ∧ a.dram = s.arr.dram)
    (g := fun p => sramAtomic p c req addr n op v ups) h ⟨fun _ _ => rfl, rfl⟩ (sramAtomic_frame _ c req addr n op v ups)

/-- Settles O47: the operation is served, and the new value reads as it was written. -/
theorem atomicReturnsOld : Obligations.AtomicReturnsOld := by
  rintro ⟨q, a, d⟩ c req addr n op v hw ha hup hop hon hok hcheck
  obtain ⟨hresp, hsram⟩ := sramAtomic_served (p := (a, d)) (ups := []) c req n v hop hon hok hcheck
  refine ⟨_, runsOn_sramAtomic (p := (a, d)) hw hup ha q, rfl, hresp, ?_⟩
  have hpeek := MemArray.peek_poke_same a.sram addr
    (leBytes n ((if op = .add then a.sram.peek addr n + v else v) % 2 ^ (8 * n)))
  rw [leBytes_length, ofLe_leBytes, Nat.mod_mod] at hpeek
  exact (congrArg (MemArray.peek · addr n) hsram).trans hpeek

/-! ### Partial writes (R308, R310) -/

/-- The memories as an access to a bank of SRAM meets them: its upsets have struck, and the bank is awake. -/
def Arrays.accessed (a : Arrays) (bank c : Nat) (ups : List Upset) : Arrays :=
  Arrays.touch { a with sram := a.sram.upset ups } bank c

/-- A partial write changes no byte outside those it names, of the memory it names. -/
theorem partialWrite_frame (p : Arrays × Dev) (sel : MemSel) (addr : Nat) (bs : Bytes) (ups : List Upset) :
    (∀ x, sel = .dram ∨ x < addr ∨ addr + bs.length ≤ x →
      (partialWrite p sel addr bs ups).1.sram.byte x = p.1.sram.byte x) ∧
    (∀ x, sel = .sram ∨ x < addr ∨ addr + bs.length ≤ x →
      (partialWrite p sel addr bs ups).1.dram.byte x = p.1.dram.byte x) := by
  cases sel with
  | sram =>
    have hupset (x : Nat) := MemArray.byte_upset p.1.sram ups x
    unfold partialWrite
    dsimp only
    split_ifs
    · exact ⟨fun x _ => hupset x, fun _ _ => rfl⟩
    · exact ⟨fun x _ => hupset x, fun _ _ => rfl⟩
    · obtain ⟨hbyte, hdram⟩ := sramWrite_frame
        (p.1.accessed (bankOf (addr / 8)) p.2.time.cnt ups) p.2 addr bs
      exact ⟨fun x hx => (hbyte x (hx.resolve_left (by decide))).trans (hupset x),
        fun x _ => congrArg (MemArray.byte · x) hdram⟩
  | dram =>
    have hupset (x : Nat) := MemArray.byte_upset p.1.dram ups x
    have hpoke {x : Nat} (hx : MemSel.dram = .sram ∨ x < addr ∨ addr + bs.length ≤ x) :=
      (MemArray.byte_poke_outside (p.1.dram.upset ups) addr x bs (hx.resolve_left (by decide))).trans (hupset x)
    unfold partialWrite
    dsimp only
    split
    · exact ⟨fun _ _ => rfl, fun _ => hpoke⟩
    · exact ⟨fun _ _ => rfl, fun _ => hpoke⟩
    · exact ⟨fun _ _ => rfl, fun x _ => hupset x⟩

/-- In an SRAM group that is off a partial write stores nothing and sets OFF_ACCESS. -/
theorem partialWrite_off {p : Arrays × Dev} {addr : Nat} (bs : Bytes) (ups : List Upset)
    (h : p.2.groupOff (bankOf (addr / 8)) = true) :
    partialWrite p .sram addr bs ups =
      (p.1.accessed (bankOf (addr / 8)) p.2.time.cnt ups, p.2.raise Stk.MEM.OFF_ACCESS) := if_pos h

/-- In an SRAM group that is on a partial write is a write of its bytes. -/
theorem partialWrite_on {p : Arrays × Dev} {addr : Nat} (bs : Bytes) (ups : List Upset)
    (hon : p.2.groupOff (bankOf (addr / 8)) = false) (hok : p.2.groupFailed (bankOf (addr / 8)) = false) :
    partialWrite p .sram addr bs ups =
      sramWrite (p.1.accessed (bankOf (addr / 8)) p.2.time.cnt ups) p.2 addr bs :=
  (if_neg (ne_true_of_eq_false hon)).trans (if_neg (ne_true_of_eq_false hok))

/-- Fewer bytes than a word are merged into a clean word. -/
theorem sramWrite_clean (a : Arrays) (d : Dev) {addr : Nat} {bs : Bytes} (hlen : bs.length ≠ 8)
    (h : a.sram.check (addr / 8) = .clean) : sramWrite a d addr bs = ({ a with sram := a.sram.poke addr bs }, d) := by
  simp only [sramWrite, if_neg hlen, h]

/-- Fewer bytes than a word are merged into a correctable word, which is cleaned and counted. -/
theorem sramWrite_single (a : Arrays) (d : Dev) {addr : Nat} {bs : Bytes} (hlen : bs.length ≠ 8)
    (h : a.sram.check (addr / 8) = .single) :
    sramWrite a d addr bs =
      ({ a with sram := (a.sram.poke addr bs).setCheck (addr / 8) .clean }, d.bump Reg.MEM_SRAM_MERGE.COR_MERGE) := by
  simp only [sramWrite, if_neg hlen, h]

/-- Fewer bytes than a word are refused by an uncorrectable or poisoned word. -/
theorem sramWrite_bad (a : Arrays) (d : Dev) {addr : Nat} {bs : Bytes} (hlen : bs.length ≠ 8)
    (h : a.sram.check (addr / 8) = .double ∨ a.sram.check (addr / 8) = .poison) :
    sramWrite a d addr bs = ({ a with sram := a.sram.setCheck (addr / 8) .poison },
      (d.bump Reg.MEM_SRAM_MERGE.POISON_KEEP).raise Stk.MEM.PARTIAL_POISON noIdx [(4, 8 * (addr / 8))]) := by
  rcases h with h | h <;> simp only [sramWrite, if_neg hlen, h, sramKeepPoison]

/-- Settles O48: the frame is that of a write, and each check state of the word has its branch of a write. -/
theorem partialWriteFrame : Obligations.PartialWriteFrame := by
  refine ⟨?frame, ?on, ?off⟩
  case frame =>
    intro sel addr bs ups s s' h
    exact keeps_of_address
      (P := fun a => (∀ x, sel = .dram ∨ x < addr ∨ addr + bs.length ≤ x → a.sram.byte x = s.arr.sram.byte x) ∧
        (∀ x, sel = .sram ∨ x < addr ∨ addr + bs.length ≤ x → a.dram.byte x = s.arr.dram.byte x))
      (g := fun p => partialWrite p sel addr bs ups) h ⟨fun _ _ => rfl, fun _ _ => rfl⟩
      (partialWrite_frame _ sel addr bs ups)
  case on =>
    rintro addr bs ⟨q, a, d⟩ hw ha hup hon hok
    have hlen : bs.length ≠ 8 := by
      obtain ⟨-, -, hlt⟩ := of_decide_eq_true hw
      exact hlt.ne
    have hbytes : ∀ i < bs.length, (a.sram.poke addr bs).byte (addr + i) = bs.getD i 0 := fun i hi => by
      rw [MemArray.byte_poke_inside _ _ _ _ hi, List.getD_eq_getElem _ _ hi]
    refine ⟨_, runsOn_partialWrite (p := (a, d)) hw hup ha q, ?_⟩
    rw [partialWrite_on (p := (a, d)) bs [] hon hok]
    refine ⟨?bytes, ?single, ?clean, ?bad⟩
    case bytes =>
      rintro (h | h)
      · rw [sramWrite_clean (a.accessed _ _ []) d hlen h]
        exact hbytes
      · rw [sramWrite_single (a.accessed _ _ []) d hlen h]
        exact hbytes
    case single =>
      intro h
      rw [sramWrite_single (a.accessed _ _ []) d hlen h]
      exact ⟨MemArray.check_setCheck_same _ _ _, rfl⟩
    case clean =>
      intro h
      rw [sramWrite_clean (a.accessed _ _ []) d hlen h]
    case bad =>
      intro h
      rw [sramWrite_bad (a.accessed _ _ []) d hlen h]
      refine ⟨fun _ => rfl, MemArray.check_setCheck_same _ _ _, ?_⟩
      dsimp only
  case off =>
    rintro addr bs ups ⟨q, a, d⟩ hw ha hup hoff
    refine ⟨_, runsOn_partialWrite (p := (a, d)) hw hup ha q, ?_⟩
    rw [partialWrite_off (p := (a, d)) bs ups hoff]
    refine ⟨fun x => MemArray.byte_upset _ _ x, ?_⟩
    dsimp only

/-! ### Power states of banks and channels (R310, R311) -/

/-- A bank that has been idle for its group's idle time, on and awake, enters retention. -/
theorem bankRetention_idle {p : Arrays × Dev} {c bank ns : Nat}
    (hi : (p.2.advance c).cfg.bankIdleNs (bank / 16) = some ns) (hon : (p.2.advance c).groupOff bank = false)
    (hok : (p.2.advance c).groupFailed bank = false) (hr : p.1.retained.contains bank = false)
    (ht : SMap.get (fun _ => 0) p.1.bankUse bank + ns ≤ c) :
    bankRetention p c bank = ({ p.1 with retained := bank :: p.1.retained }, p.2.advance c) := by
  have hlt : ¬ c < SMap.get (fun _ => 0) p.1.bankUse bank + ns := Nat.not_lt.2 ht
  simp only [bankRetention, hi, hon, hok, hr, hlt, Bool.or_self, decide_false, Bool.false_eq_true, if_false]

/-- A channel that has been idle for DRAM_PD enters power-down. -/
theorem dramPowerDown_idle {p : Arrays × Dev} {c ch : Nat} (hp : Canvas.f (p.2.advance c).cfg Canvas.tyPOWER 20 2 ≠ 0)
    (hd : p.1.chanDown.contains ch = false)
    (ht : SMap.get (fun _ => 0) p.1.chanUse ch + 1000 * Canvas.f (p.2.advance c).cfg Canvas.tyPOWER 20 2 ≤ c) :
    dramPowerDown p c ch = ({ p.1 with chanDown := ch :: p.1.chanDown }, p.2.advance c) := by
  have hlt := Nat.not_lt.2 ht
  simp only [dramPowerDown, hp, hd, hlt, decide_false, Bool.or_self, Bool.false_eq_true, if_false]

/-! ### The NAND (R318, R324) -/

/-- With few one-bit blocks free, the oldest is copied into TLC and erased. -/
theorem Dev.fold_due {d : Dev} {id : Nat} (hfree : d.ftl.freeCount true < 256)
    (hid : d.ftl.least (fun b => b.oneBit && b.st != .free && b.st != .bad) (·.born) = some id) :
    d.fold = (({ d with ftl := { ((((d.ftl.block id).pages.filter (·.valid)).foldl
      (fun f p => f.append false { p with folded := true }) d.ftl).eraseBlock id) with openRec := true } } : Dev).ftlRegs) := by
  simp only [Dev.fold, if_neg (Nat.not_le.2 hfree), hid]

/-- A block of many reads, or of high errors, that holds data is rewritten and erased. -/
theorem Dev.nandRefresh_due {d : Dev} {id : Nat} {highErrors : Bool}
    (hr : 100000 ≤ (d.ftl.block id).reads ∨ highErrors = true) (hfree : (d.ftl.block id).st ≠ .free)
    (hbad : (d.ftl.block id).st ≠ .bad) :
    d.nandRefresh id highErrors = (({ d with ftl := { (((d.ftl.onBlock id fun b => { b with st := .closed }).rewrite id
      d.time.tick (d.ftl.block id).oneBit (·.stream)).eraseBlock id) with openRec := true } } : Dev).ftlRegs) := by
  have hreads : ¬ ((d.ftl.block id).reads < 100000 ∧ highErrors = false) := fun h =>
    hr.elim (Nat.not_le.2 h.1) (ne_true_of_eq_false h.2)
  refine if_neg ?_
  simpa [hfree, hbad] using hreads

/-- Settles O20: each command acts by its gate, and the branch that its conditions choose gives what it leaves. -/
theorem memoryComplete : Obligations.MemoryComplete := by
  refine ⟨?access, ?atomic, ?partialWrite, ?poison, ?patrol, ?dram, ?retention, ?collide, ?checkpoint, ?fold, ?collect,
    ?wear, ?programFail, ?refresh⟩
  case access =>
    intro a d c reqs ups hw hup hr
    exact runsOn_address (p := (a, d)) (g := fun p => sramAccess p c reqs ups) (fun _ => rfl) hw
      (List.all_eq_true.2 fun r h => decide_eq_true (hr r h)) hup
  case atomic => exact fun a d c req addr n op v ups hw hup ha => runsOn_sramAtomic hw hup ha
  case partialWrite => exact fun a d sel addr bs ups hw hup ha => runsOn_partialWrite hw hup ha
  case poison => exact fun d r hup => runs_whenUp (g := fun d => d.poisonRead r) (fun _ => rfl) rfl hup
  case patrol =>
    exact fun a d w ups hup hw =>
      runsOn_address (p := (a, d)) (g := fun p => patrolScrub p w ups) (fun _ => rfl) rfl (decide_eq_true hw) hup
  case dram =>
    exact fun a d w ups hup hw =>
      runsOn_address (p := (a, d)) (g := fun p => dramScrub p w ups) (fun _ => rfl) rfl (decide_eq_true hw) hup
  case retention =>
    intro a d c bank ns hw hup hi hon hok hr ht
    exact runsOn_arraysUp (p := (a, d)) (g := fun p => bankRetention p c bank) (fun _ => rfl) hw hup
      (bankRetention_idle hi hon hok hr ht)
  case collide => exact fun d v hw hup => runs_whenUp (g := fun d => d.clrCollide v) (fun _ => rfl) hw hup
  case checkpoint => exact fun d hup => runs_whenUp (g := Dev.checkpointPass) (fun _ => rfl) rfl hup
  case fold => exact fun d id hup hfree hid => runs_whenUp_to (fun _ => rfl) rfl hup (Dev.fold_due hfree hid)
  case collect =>
    exact fun d stream id hw hup _ => runs_whenUp (g := fun d => d.garbageCollect stream) (fun _ => rfl) hw hup
  case wear => exact fun d src dst hup _ _ _ _ => runs_whenUp (g := Dev.wearLevelMove) (fun _ => rfl) rfl hup
  case programFail =>
    exact fun d id hup _ _ => runs_whenUp (g := fun d => d.nandProgramFail id) (fun _ => rfl) rfl hup
  case refresh =>
    intro d id highErrors hup hr hfree hbad
    exact runs_whenUp_to (fun _ => rfl) rfl hup (Dev.nandRefresh_due hr hfree hbad)

/-! ### Events and receivers (R89, R400) -/

/-- EVT_INJECT records a code at or above 0xF000. -/
theorem Dev.evtInject_user {d : Dev} (h : 0xF000 ≤ d.rd Reg.EVT_INJ.CODE) :
    d.evtInject = d.record (d.rd Reg.EVT_INJ.CODE) (d.rd Reg.EVT_INJ.SEV) 0 noIdx [] := if_neg (Nat.not_lt.2 h)

/-- Character lock of a port that is not isolated sets RX_LOCK and brings up the link of a PLC_AFE port. -/
theorem Dev.characterLock_plc {d : Dev} {p : Nat} (hm : d.mode p = Canvas.mPLC) (hi : d.isolated p = false) :
    d.characterLock p = ((d.wr Reg.PLC_STAT.RX_LOCK 1 p).wr Reg.FP_STAT.LINK 1 p).onPort p fun s =>
      { s with charLock := true } :=
  (if_neg (ne_true_of_eq_false hi)).trans (if_pos (beq_iff_eq.2 hm))

/-- Character lock of a FIELDLINK port that is not isolated counts towards its link. -/
theorem Dev.characterLock_fieldlink {d : Dev} {p : Nat} (hm : d.mode p = Canvas.mFIELDLINK) (hi : d.isolated p = false) :
    d.characterLock p = (d.onPort p fun s => { s with charLock := true }).fieldlinkUp p := by
  have hplc : ¬ (d.mode p == Canvas.mPLC) = true := by rw [hm]; decide
  exact (if_neg (ne_true_of_eq_false hi)).trans ((if_neg hplc).trans (if_pos (beq_iff_eq.2 hm)))

/-- Settles O30: each command acts by its gate, and the branch that its conditions choose gives what it leaves. -/
theorem eventsAndPowerStatesComplete : Obligations.EventsAndPowerStatesComplete := by
  refine ⟨?flush, ?summary, ?fetch, ?fetchDone, ?inject, ?lockPlc, ?lockFieldlink, ?lockLoss, ?powerDown, ?laneSleep⟩
  case flush => exact fun d hup _ _ => runs_whenUp (g := Dev.eventFlush) (fun _ => rfl) rfl hup
  case summary => exact fun d hup => runs_whenUp (g := Dev.eventSummary) (fun _ => rfl) rfl hup
  case fetch => exact fun d n hw hup => runs_whenUp (g := fun d => d.evtFetch n) (fun _ => rfl) hw hup
  case fetchDone =>
    exact fun d n asRead _ _ hw hup _ => runs_whenUp (g := fun d => d.evtFetchDone n asRead) (fun _ => rfl) hw hup
  case inject => exact fun d hup hc => runs_whenUp_to (fun _ => rfl) rfl hup (Dev.evtInject_user hc)
  case lockPlc => exact fun d p hw hup hm hi => runs_whenUp_to (fun _ => rfl) hw hup (Dev.characterLock_plc hm hi)
  case lockFieldlink =>
    exact fun d p hw hup hm hi => runs_whenUp_to (fun _ => rfl) hw hup (Dev.characterLock_fieldlink hm hi)
  case lockLoss => exact fun d l hw hup => runs_whenUp (g := fun d => d.blockLockLoss l) (fun _ => rfl) hw hup
  case powerDown =>
    intro a d c ch hw hup hp hd ht
    exact runsOn_arraysUp (p := (a, d)) (g := fun p => dramPowerDown p c ch) (fun _ => rfl) hw hup
      (dramPowerDown_idle hp hd ht)
  case laneSleep =>
    exact fun d lane c traffic hw hup => runs_whenUp (g := fun d => d.laneSleep lane c traffic) (fun _ => rfl) hw hup

end Sys2Proof.Machine
end

section
/-!
PROOFS. The family of reset, power and temperature: the thermal warning, the strap, and the commands of supply, start, reset pins,
watchdogs and temperature.
-/

namespace Sys2Proof.Machine

/-! ### Registers of POWER (R384) -/

/-- Writing a field leaves the other fields of the same register as they were. -/
theorem Dev.rd_wr_beside (d : Dev) {F G : Fld} (v : Nat) (ho : G.off = F.off) (hF : F.lo ≤ F.hi ∧ F.hi < 32)
    (hG : G.lo ≤ G.hi ∧ G.hi < 32) (hFG : G.hi < F.lo ∨ F.hi < G.lo) : (d.wr F v).rd G = d.rd G :=
  Dev.rd_wr_disjoint d F G v 0 0 0 (by simpa using ho) hF.1 hF.2 hG.1 hG.2 hFG

/-- The sticky bit of the thermal warning lies outside EVENTS and MAILBOX. -/
theorem thermWarn_quiet : quietOff Stk.PWR.THERM_WARN.fld.off := .inr (by decide)

/-- Raising the thermal warning sets its sticky bit. -/
theorem Dev.raise_thermWarn_sticky (d : Dev) : (d.raise Stk.PWR.THERM_WARN).on Reg.PWR_ERR_STICKY.THERM_WARN = true :=
  Dev.on_raiseIn d Stk.PWR.THERM_WARN 0 0 0xFF noIdx [] rfl (by decide) (ringFree_of_quiet thermWarn_quiet 0) (by decide)
    fun h => absurd h (by decide)

/-- Raising the thermal warning leaves THERM_STAT. -/
theorem Dev.raise_thermWarn_stat (d : Dev) :
    (d.raise Stk.PWR.THERM_WARN).on Reg.THERM_STAT.WARN = d.on Reg.THERM_STAT.WARN := by
  have hquiet : quietOff Reg.THERM_STAT.WARN.off := .inr (by decide)
  have hword : (d.raise Stk.PWR.THERM_WARN).word Reg.THERM_STAT.WARN.off 0 = d.word Reg.THERM_STAT.WARN.off 0 :=
    Dev.word_raiseIn d Stk.PWR.THERM_WARN 0 0 0 0xFF noIdx [] _ 0 hquiet (by decide)
  simp [Dev.on, Dev.rd, hword]

/-! ### The thermal warning (R383, R384) -/

/-- The registers of temperature once a reading of `t` by sensor `i` is registered: TJ, its sensor and its peak. -/
def Dev.tempRegs (d : Dev) (t : Int) (i : Nat) : Dev :=
  let d := (d.wr Reg.THERM_STAT.TJ (wrapI 16 t)).wr Reg.THERM_STAT.SENSOR i
  if sgn 16 (d.rd Reg.THERM_PEAK.PEAK) < t then d.wr Reg.THERM_PEAK.PEAK (wrapI 16 t) else d

/-- The device once the sensors' reading is registered, before the warning is decided: its registers, and the counts of hot and of
cool readings. -/
def Dev.tempRead (d : Dev) (temps : List Int) : Dev :=
  let t := (hottest temps).1
  let d := d.tempRegs t (hottest temps).2
  { d with sys := { d.sys with
    hot := if 1250 ≤ t then d.sys.hot + 1 else 0
    cool := if t < 1000 then d.sys.cool + 1 else 0 } }

/-- Registering the temperature changes the register file alone. -/
theorem Dev.tempRegs_parts (d : Dev) (t : Int) (i : Nat) :
    (d.tempRegs t i).evt = d.evt ∧ (d.tempRegs t i).sys = d.sys := by
  unfold Dev.tempRegs
  dsimp only
  split <;> simp only [Dev.wr_evt, Dev.wr_sys, and_self]

/-- Registering the temperature changes no field outside TJ, SENSOR and PEAK. -/
theorem Dev.tempRegs_rd (d : Dev) (t : Int) (i : Nat) {G : Fld}
    (h : ∀ (e : Dev) (v : Nat), (e.wr Reg.THERM_STAT.TJ v).rd G = e.rd G ∧ (e.wr Reg.THERM_STAT.SENSOR v).rd G = e.rd G ∧
      (e.wr Reg.THERM_PEAK.PEAK v).rd G = e.rd G) : (d.tempRegs t i).rd G = d.rd G := by
  have hstat := (h (d.wr Reg.THERM_STAT.TJ (wrapI 16 t)) i).2.1.trans (h d _).1
  unfold Dev.tempRegs
  dsimp only
  split
  · exact (h _ _).2.2.trans hstat
  · exact hstat

/-- What registering the temperature shows, the device after the reading shows. -/
theorem Dev.tempRead_on (d : Dev) (temps : List Int) (G : Fld) :
    (d.tempRead temps).on G = (d.tempRegs (hottest temps).1 (hottest temps).2).on G :=
  Dev.on_congr (d := d.tempRegs (hottest temps).1 (hottest temps).2) rfl G 0 0

/-- Registering a reading leaves WARN. -/
theorem Dev.tempRead_warn (d : Dev) (temps : List Int) :
    (d.tempRead temps).on Reg.THERM_STAT.WARN = d.on Reg.THERM_STAT.WARN := by
  refine (d.tempRead_on temps _).trans (congrArg (· != 0) (Dev.tempRegs_rd d _ _ fun e v => ⟨?tj, ?sensor, ?peak⟩))
  case tj => exact Dev.rd_wr_beside e v rfl (by decide) (by decide) (by decide)
  case sensor => exact Dev.rd_wr_beside e v rfl (by decide) (by decide) (by decide)
  case peak => exact Dev.rd_wr_apart e v (by decide)

/-- Registering a reading leaves THERM_WARN. -/
theorem Dev.tempRead_sticky (d : Dev) (temps : List Int) :
    (d.tempRead temps).on Reg.PWR_ERR_STICKY.THERM_WARN = d.on Reg.PWR_ERR_STICKY.THERM_WARN :=
  (d.tempRead_on temps _).trans (congrArg (· != 0) (Dev.tempRegs_rd d _ _ fun e v =>
    ⟨Dev.rd_wr_apart e v (by decide), Dev.rd_wr_apart e v (by decide), Dev.rd_wr_apart e v (by decide)⟩))

/-- Registering a reading records nothing. -/
theorem Dev.tempRead_evt (d : Dev) (temps : List Int) : (d.tempRead temps).evt = d.evt := (d.tempRegs_parts _ _).1

/-- Registering a reading leaves the phase. -/
theorem Dev.tempRead_phase (d : Dev) (temps : List Int) : (d.tempRead temps).sys.phase = d.sys.phase := by
  show (d.tempRegs (hottest temps).1 (hottest temps).2).sys.phase = d.sys.phase
  rw [(d.tempRegs_parts _ _).2]

/-- A reading is registered; while the device has power, the warning is then decided. -/
theorem Dev.thermSample_eq {d : Dev} (temps : List Int) (h : d.sys.phase ≠ .off) : d.thermSample temps =
    if 1150 ≤ (hottest temps).1 ∧ d.on Reg.THERM_STAT.WARN = false then
      ((d.tempRead temps).wr Reg.THERM_STAT.WARN 1).raise Stk.PWR.THERM_WARN
    else if (hottest temps).1 < 1100 then (d.tempRead temps).wr Reg.THERM_STAT.WARN 0
    else d.tempRead temps := by
  rw [← Dev.tempRead_warn d temps]
  exact if_neg (Dev.tempRead_phase d temps ▸ h)

/-- At 115 °C a device that has not warned warns. -/
theorem Dev.thermSample_warns {d : Dev} {temps : List Int} (h : d.sys.phase ≠ .off) (ht : 1150 ≤ (hottest temps).1)
    (hw : d.on Reg.THERM_STAT.WARN = false) :
    d.thermSample temps = ((d.tempRead temps).wr Reg.THERM_STAT.WARN 1).raise Stk.PWR.THERM_WARN :=
  (Dev.thermSample_eq temps h).trans (if_pos ⟨ht, hw⟩)

/-- Below 110 °C WARN is cleared. -/
theorem Dev.thermSample_clears {d : Dev} {temps : List Int} (h : d.sys.phase ≠ .off) (ht : (hottest temps).1 < 1100) :
    d.thermSample temps = (d.tempRead temps).wr Reg.THERM_STAT.WARN 0 :=
  (Dev.thermSample_eq temps h).trans ((if_neg fun hwarn => by omega).trans (if_pos ht))

/-- From 110 °C on, a device that has warned or is below 115 °C only registers the reading. -/
theorem Dev.thermSample_holds {d : Dev} {temps : List Int} (h : d.sys.phase ≠ .off) (hlo : 1100 ≤ (hottest temps).1)
    (hw : (hottest temps).1 < 1150 ∨ d.on Reg.THERM_STAT.WARN = true) : d.thermSample temps = d.tempRead temps := by
  have hquiet : ¬ (1150 ≤ (hottest temps).1 ∧ d.on Reg.THERM_STAT.WARN = false) := fun ⟨ht, hoff⟩ =>
    hw.elim (Int.not_lt.2 ht) (ne_true_of_eq_false hoff)
  exact (Dev.thermSample_eq temps h).trans ((if_neg hquiet).trans (if_neg (Int.not_lt.2 hlo)))

/-- After a reading below 110 °C WARN is clear. -/
theorem Dev.thermSample_warn_cool {d : Dev} {temps : List Int} (h : d.sys.phase ≠ .off) (ht : (hottest temps).1 < 1100) :
    (d.thermSample temps).on Reg.THERM_STAT.WARN = false := by
  rw [Dev.thermSample_clears h ht, Dev.on_wr_same _ 0 rfl (by decide)]
  rfl

/-- From 110 °C on, a device that has warned or is below 115 °C keeps WARN. -/
theorem Dev.thermSample_warn_holds {d : Dev} {temps : List Int} (h : d.sys.phase ≠ .off) (hlo : 1100 ≤ (hottest temps).1)
    (hw : (hottest temps).1 < 1150 ∨ d.on Reg.THERM_STAT.WARN = true) :
    (d.thermSample temps).on Reg.THERM_STAT.WARN = d.on Reg.THERM_STAT.WARN := by
  rw [Dev.thermSample_holds h hlo hw, Dev.tempRead_warn]

/-- A device that has warned, or is below 115 °C, records nothing and leaves THERM_WARN. -/
theorem Dev.thermSample_quiet {d : Dev} {temps : List Int} (h : d.sys.phase ≠ .off)
    (hw : (hottest temps).1 < 1150 ∨ d.on Reg.THERM_STAT.WARN = true) :
    (d.thermSample temps).evt = d.evt ∧
      (d.thermSample temps).on Reg.PWR_ERR_STICKY.THERM_WARN = d.on Reg.PWR_ERR_STICKY.THERM_WARN := by
  rcases Int.lt_or_le (hottest temps).1 1100 with ht | ht
  · have hsticky : ((d.tempRead temps).wr Reg.THERM_STAT.WARN 0).rd Reg.PWR_ERR_STICKY.THERM_WARN =
        (d.tempRead temps).rd Reg.PWR_ERR_STICKY.THERM_WARN := Dev.rd_wr_apart _ 0 (by decide)
    rw [Dev.thermSample_clears h ht, Dev.wr_evt]
    exact ⟨d.tempRead_evt temps, (congrArg (· != 0) hsticky).trans (d.tempRead_sticky temps)⟩
  · rw [Dev.thermSample_holds h ht hw]
    exact ⟨d.tempRead_evt temps, d.tempRead_sticky temps⟩

/-- THERM_SAMPLE completes for every reading of at least one sensor. -/
theorem runs_thermSample {d : Dev} {temps : List Int} (hw : (Instr.thermSample temps).wf = true) :
    Runs (.thermSample temps) d (d.thermSample temps) :=
  runs_act (g := fun d => d.thermSample temps) (fun _ => rfl) hw rfl

/-- Settles O35: a reading warns, clears WARN or is only registered, by TJ and WARN. -/
theorem thermalWarning : Obligations.ThermalWarning := by
  refine ⟨rfl, fun d temps hwf hon => ⟨_, runs_thermSample hwf, ?warns, ?clears, ?keepsSet, ?keepsClear, ?quiet⟩⟩
  case warns =>
    intro ht hw
    rw [Dev.thermSample_warns hon ht hw, Dev.raise_thermWarn_stat]
    exact ⟨Dev.on_wr_same _ 1 rfl (by decide), Dev.raise_thermWarn_sticky _, _,
      (Dev.wr_evt _ _ _ _ _).trans (d.tempRead_evt temps), rfl⟩
  case clears => exact Dev.thermSample_warn_cool hon
  case keepsSet => exact fun hlo hw => (Dev.thermSample_warn_holds hon hlo (.inr hw)).trans hw
  case keepsClear =>
    intro hhi hw
    rcases Int.lt_or_le (hottest temps).1 1100 with ht | ht
    · exact Dev.thermSample_warn_cool hon ht
    · exact (Dev.thermSample_warn_holds hon ht (.inl hhi)).trans hw
  case quiet => exact Dev.thermSample_quiet hon

/-! ### The strap (R376, R377) -/

/-- Of a rising list, a number from entry i up to the next is reached by i + 1 entries. -/
theorem length_filter_le_of_rising {l : List Nat} (hl : l.Pairwise (· < ·)) {i r : Nat} (hi : i + 1 < l.length)
    (hlo : l[i] ≤ r) (hhi : r < l[i + 1]) : (l.filter (· ≤ r)).length = i + 1 := by
  have hlt := List.pairwise_iff_getElem.1 hl
  have htake : (l.take (i + 1)).filter (· ≤ r) = l.take (i + 1) := by
    refine List.filter_eq_self.2 fun x hx => decide_eq_true ?_
    obtain ⟨j, hj, rfl⟩ := List.mem_take_iff_getElem.1 hx
    rcases Nat.lt_or_ge j i with hji | hji
    · exact (hlt j i _ _ hji).le.trans hlo
    · obtain rfl : j = i := by omega
      exact hlo
  have hdrop : (l.drop (i + 1)).filter (· ≤ r) = [] := by
    refine List.filter_eq_nil_iff.2 fun x hx => ?_
    obtain ⟨j, hj, rfl⟩ := List.mem_drop_iff_getElem.1 hx
    have hle : l[i + 1] ≤ l[i + 1 + j] := by
      rcases Nat.eq_zero_or_pos j with rfl | hpos
      · exact le_rfl
      · exact (hlt _ _ _ _ (Nat.lt_add_of_pos_right hpos)).le
    simpa using hhi.trans_le hle
  rw [← List.take_append_drop (i + 1) l, List.filter_append, htake, hdrop, List.append_nil,
    List.length_take_of_le hi.le]

/-- The bounds of the accepted ranges rise. -/
theorem strapBounds_rising : strapBounds.Pairwise (· < ·) := by decide

/-- Every accepted range lies between 850 and 88,000 ohms. -/
theorem strapBounds_between : ∀ i < 16, 850 ≤ strapBounds.getD i 0 ∧ strapBounds.getD (i + 1) 0 ≤ 88000 := by decide

/-- A resistance gives no code exactly where it lies outside all ranges. -/
theorem strapCode_eq_none_iff {r : Nat} : strapCode r = none ↔ r < 850 ∨ 88000 < r := by
  rw [strapCode, ite_eq_left_iff]
  simp only [reduceCtorEq, imp_false, not_not]

/-- A resistance inside a range gives the range's code. -/
theorem strapCode_inside {i r : Nat} (hi : i < 16) (hlo : strapBounds.getD i 0 < r) (hhi : r < strapBounds.getD (i + 1) 0) :
    strapCode r = some i := by
  have hlen : i + 1 < strapBounds.length := Nat.succ_lt_succ hi
  obtain ⟨hfirst, hlast⟩ := strapBounds_between i hi
  have hin : ¬ (r < 850 ∨ 88000 < r) := by omega
  rw [List.getD_eq_getElem _ _ (Nat.lt_of_succ_lt hlen)] at hlo
  rw [List.getD_eq_getElem _ _ hlen] at hhi
  rw [strapCode, if_neg hin, length_filter_le_of_rising strapBounds_rising hlen hlo.le hhi, Nat.add_sub_cancel,
    Nat.min_eq_right (Nat.le_of_lt_succ hi)]

/-- Three samples give a code exactly where each of them does. -/
theorem strapOf_eq_some_iff {a b c k : Nat} :
    strapOf [a, b, c] = some k ↔ strapCode a = some k ∧ strapCode b = some k ∧ strapCode c = some k := by
  constructor
  · intro h
    obtain ⟨⟨hab, hbc⟩, ha⟩ := Option.ite_none_right_eq_some.1 h
    exact ⟨ha, hab ▸ ha, hbc ▸ hab ▸ ha⟩
  · rintro ⟨ha, hb, hc⟩
    exact Option.ite_none_right_eq_some.2 ⟨⟨ha.trans hb.symm, hb.trans hc.symm⟩, ha⟩

/-- Settles O31: the bounds rise, so that the number of those a resistance reaches names its range. -/
theorem strapDecode : Obligations.StrapDecode :=
  ⟨fun _ _ hi hlo hhi => strapCode_inside hi hlo hhi, fun _ => strapCode_eq_none_iff, by decide,
    fun _ _ _ _ => strapOf_eq_some_iff⟩

/-! ### Commands that act in every phase (R366 to R385) -/

/-- A command on the device and the memories completes with whatever its body is known to give, for operands that exist. -/
theorem runsOn_actArrays {i : Instr} {p r : Arrays × Dev} {g : Arrays × Dev → Arrays × Dev}
    (h : ∀ s : State, exec i s = actArrays s i g) (hw : i.wf = true) (hr : g p = r) : RunsOn i p r := by
  intro q
  rw [h, actArrays, if_pos hw, hr]

/-! ### Supply and start (R320, R366, R379) -/

/-- While the device quiesces, POWER_ON notes that VIN is back. -/
theorem powerOn_quiesced {p : Arrays × Dev} (away : Nat) (h : p.2.sys.phase = .quiesced) :
    powerOn p away = (p.1, { p.2 with sys := { p.2.sys with vinBack := true } }) := if_pos h

/-- Otherwise POWER_ON resets at L0, and of the memories the fuses stay. -/
theorem powerOn_l0 {p : Arrays × Dev} (away : Nat) (h : p.2.sys.phase ≠ .quiesced) :
    powerOn p away = ({ fused := p.1.fused }, p.2.l0 away) := if_neg h

/-- A map that was loading is taken, and start goes on. -/
theorem Dev.mapLoaded_loading {d : Dev} (h : d.rd Reg.MEM_FTL_STAT.STATE = 1) : d.mapLoaded = d.ftlMapLoadDone.startOn :=
  if_pos h

/-- A map that was being scanned for is rebuilt, and start goes on. -/
theorem Dev.mapRebuilt_scanning {d : Dev} (bad : List (Nat × Nat)) (h : d.rd Reg.MEM_FTL_STAT.STATE = 2) :
    d.mapRebuilt bad = (d.ftlMapRebuildDone bad).startOn := if_pos h

/-- A brown-out of a device that has power locks the RTC, raises BROWNOUT and offers source 1. -/
theorem Dev.brownOut_powered {d : Dev} (c : Nat) (clean : Bool) (h : d.sys.phase ≠ .off) : d.brownOut c clean =
    (((if clean then d.ftlCleanStop else d).rtcLock).raise Stk.GLB.BROWNOUT).acceptMapped c 1 := if_neg h

/-- Settles O6: each command acts by its gate, and the branch that its conditions choose gives what it leaves. -/
theorem powerAndStartComplete : Obligations.PowerAndStartComplete := by
  refine ⟨?onQuiesced, ?onElse, ?start, ?mapLoad, ?mapRebuild, ?restore, ?brownOut, ?surge, ?low, ?reversal⟩
  case onQuiesced =>
    intro a d away h
    exact runsOn_actArrays (g := fun p => powerOn p away) (fun _ => rfl) rfl (powerOn_quiesced (p := (a, d)) away h)
  case onElse =>
    intro a d away h
    exact runsOn_actArrays (g := fun p => powerOn p away) (fun _ => rfl) rfl (powerOn_l0 (p := (a, d)) away h)
  case start =>
    exact fun a d start hw _ _ _ => runsOn_actArrays (g := fun p => deviceStart p start) (fun _ => rfl) hw rfl
  case mapLoad => exact fun d hup h => runs_whenUp_to (fun _ => rfl) rfl hup (Dev.mapLoaded_loading h)
  case mapRebuild => exact fun d bad hup h => runs_whenUp_to (fun _ => rfl) rfl hup (Dev.mapRebuilt_scanning bad h)
  case restore =>
    intro d bad badKeys same hw hup _
    exact runs_whenUp (g := fun d => d.ledgerRestore bad badKeys same) (fun _ => rfl) hw hup
  case brownOut =>
    intro d c clean h
    exact runs_act (g := fun d => d.brownOut c clean) (fun _ => rfl) rfl (Dev.brownOut_powered c clean h)
  case surge => exact fun d vin hw => runs_act (g := fun d => d.vinSurge vin) (fun _ => rfl) hw rfl
  case low => exact fun d vin hw => runs_act (g := fun d => d.vinLow vin) (fun _ => rfl) hw rfl
  case reversal => exact fun d => runs_act (g := Dev.vinReversal) (fun _ => rfl) rfl rfl

/-! ### Reset pins and sources (R60, R366, R368, R375) -/

/-- A ball that has been low for 10 s is ignored from then on. -/
theorem Dev.resetNStuck_low {d : Dev} (hl : d.on Reg.GLB_RSTN.LEVEL = false) (hs : d.sys.ballStuck = false) :
    d.resetNStuck = { (d.wr Reg.GLB_RSTN.IGNORED 1).wr Reg.GLB_ERR_STICKY.RSTN_STUCK 1 with
      sys := { d.sys with stuckEvt := true, ballStuck := true } } := by
  have hgo : ¬ (d.on Reg.GLB_RSTN.LEVEL || d.sys.ballStuck) = true := by simp [hl, hs]
  exact if_neg hgo

/-- A ball that is high acts again. -/
theorem Dev.resetNUnstuck_high {d : Dev} (h : d.on Reg.GLB_RSTN.LEVEL = true) :
    d.resetNUnstuck = ({ d with sys := { d.sys with ballStuck := false } } : Dev).wr Reg.GLB_RSTN.IGNORED 0 := if_pos h

/-- The tick watchdog fires where mandatory work is overdue. -/
theorem Dev.tickWdog_stuck {d : Dev} (c : Nat) (h : d.mandStuck = true) :
    d.tickWdog c = (d.raise Stk.TIME.TICK_WDOG).acceptMapped c 4 := if_pos h

/-- With the key, or from the debug port, DEBUG_RESET takes the deeper of LEVEL and the mapped level. -/
theorem Dev.debugReset_keyed {d : Dev} (c : Nat) {v : Nat} {port : Bool} (h : port = true ∨ bitsOf v 31 16 = 0xDB61) :
    d.debugReset c v port = d.accept c 10 (min (bitsOf v 2 0) (d.mapped 10)) := by
  have hkey : (port || bitsOf v 31 16 == 0xDB61) = true := by simpa using h
  exact if_pos hkey

/-- In operation a source of level 3 resets at once. -/
theorem Dev.accept_l3 {d : Dev} (c source : Nat) (h : d.sys.phase = .up) :
    d.accept c source 3 = (d.advance c).l3 source := by
  have hphase : (d.advance c).sys.phase = .up := (congrArg SysSt.phase (Dev.advance_sys d c)).trans h
  simp only [Dev.accept, hphase]
  exact (if_neg (by decide)).trans (if_pos trivial)

/-! ### The reset proper and the return from it (R371, R373) -/

/-- The reset proper of a device that has quiesced loses the memories' contents, all but the fuses, where it is a cold one. -/
theorem resetProper_quiesced {p : Arrays × Dev} (c : Nat) (h : p.2.sys.phase = .quiesced) :
    resetProper p c = (if (p.2.resetProper c).sys.cold = true then { fused := p.1.fused } else p.1, p.2.resetProper c) := by
  simp only [resetProper, h, true_and]

/-- A device in a warm reset that the ball does not hold returns. -/
theorem warmReturn_released {p : Arrays × Dev} (hr : p.2.sys.phase = .inReset) (hw : p.2.sys.cold = false)
    (hb : p.2.heldByBall = false) : warmReturn p =
      (p.1.clearSram, ((((p.2.wake.wr Reg.MEM_DRAM_STAT.SR_L2 1).updStart.startEvents).ftlResume).wr
        Reg.CANVAS_STAT.STATE 5)) := by
  have hgo : ¬ (p.2.sys.phase ≠ .inReset ∨ p.2.sys.cold = true ∨ p.2.heldByBall = true) := by simp [hr, hw, hb]
  exact if_neg hgo

/-! ### Shutdown by temperature (R385) -/

/-- After three hot readings a device in operation quiesces for the shutdown. -/
theorem Dev.thermalShutdown_hot {d : Dev} (c : Nat) (hhot : 3 ≤ d.sys.hot) (hup : d.sys.phase = .up) :
    d.thermalShutdown c =
      (let d1 := ((d.advance c).wr Reg.THERM_STAT.SHUT_PEND 1).quiesce 1
       { d1 with sys := { d1.sys with phase := .quiesced, thermal := true, cool := 0 } }) := by
  have hphase : ((d.advance c).wr Reg.THERM_STAT.SHUT_PEND 1).sys.phase = .up := by
    rw [Dev.wr_sys, Dev.advance_sys, hup]
  have hgo : ¬ (d.sys.hot < 3 ∨ d.sys.phase = .off) := by
    rw [hup]
    exact fun h => h.elim (Nat.not_lt.2 hhot) nofun
  simp only [Dev.thermalShutdown, if_neg hgo, if_pos hphase]

/-- After 100,000 cool readings a device that is off for its temperature starts as L1. -/
theorem Dev.thermalRestart_cool {d : Dev} (ht : d.sys.thermal = true) (hoff : d.sys.phase = .off)
    (hcool : 100000 ≤ d.sys.cool) : d.thermalRestart = (mapCompact d.l1).resetCause 5 1 false false := by
  have hgo : ¬ (!(d.sys.thermal && d.sys.phase == .off) || decide (d.sys.cool < 100000)) = true := by
    simp [ht, hoff, hcool]
  exact if_neg hgo

/-- Settles O7: each command acts by its gate, and the branch that its conditions choose gives what it leaves. -/
theorem resetAndThermalComplete : Obligations.ResetAndThermalComplete := by
  refine ⟨?assert, ?release, ?stuck, ?unstuck, ?houseWdog, ?tickWdog, ?debug, ?proper, ?warm, ?l3, ?sample, ?shutdown,
    ?restart, ?xtal⟩
  case assert => exact fun d c => runs_act (g := fun d => d.resetNAssert c) (fun _ => rfl) rfl rfl
  case release => exact fun d => runs_act (g := Dev.resetNRelease) (fun _ => rfl) rfl rfl
  case stuck => exact fun d hl hs => runs_act (g := Dev.resetNStuck) (fun _ => rfl) rfl (Dev.resetNStuck_low hl hs)
  case unstuck => exact fun d h => runs_act (g := Dev.resetNUnstuck) (fun _ => rfl) rfl (Dev.resetNUnstuck_high h)
  case houseWdog => exact fun d c => runs_act (g := fun d => d.houseWdog c) (fun _ => rfl) rfl rfl
  case tickWdog => exact fun d c h => runs_act (g := fun d => d.tickWdog c) (fun _ => rfl) rfl (Dev.tickWdog_stuck c h)
  case debug =>
    intro d c v port hw h
    exact runs_act (g := fun d => d.debugReset c v port) (fun _ => rfl) hw (Dev.debugReset_keyed c h)
  case proper =>
    intro a d c h
    exact runsOn_actArrays (g := fun p => resetProper p c) (fun _ => rfl) rfl (resetProper_quiesced (p := (a, d)) c h)
  case warm =>
    intro a d hr hw hb
    exact runsOn_actArrays (g := warmReturn) (fun _ => rfl) rfl (warmReturn_released (p := (a, d)) hr hw hb)
  case l3 =>
    intro d c source hw hup
    exact runs_act (g := fun d => d.accept c source 3) (fun _ => rfl) hw (Dev.accept_l3 c source hup)
  case sample => exact fun _ _ hw => runs_thermSample hw
  case shutdown =>
    intro d c hhot hup
    exact runs_act (g := fun d => d.thermalShutdown c) (fun _ => rfl) rfl (Dev.thermalShutdown_hot c hhot hup)
  case restart =>
    intro d ht hoff hcool
    exact runs_act (g := Dev.thermalRestart) (fun _ => rfl) rfl (Dev.thermalRestart_cool ht hoff hcool)
  case xtal => exact fun d vbatLost => runs_act (g := fun d => d.xtalStop vbatLost) (fun _ => rfl) rfl rfl

end Sys2Proof.Machine
end

section
/-!
PROOFS. The step of the whole machine: how each command reaches the state, and what follows of every command from that.
-/

namespace Sys2Proof.Machine

/-! ### How a command acts -/

/-- The ways in which a command acts on the state: through the gate of operation, of open seats or of the real-time clock, on the
memories, or whatever the phase. A command that changes the memories keeps their canonical form. -/
inductive Acts (i : Instr) : Prop
  | up (g : Dev → Dev) (h : ∀ s, exec i s = act s i fun d => d.whenUp g)
  | seatsOpen (g : Dev → Dev) (h : ∀ s, exec i s = act s i fun d => d.whenOpen g)
  | rtc (off : Nat) (g : Dev → Dev) (hr : writesRtc i = true) (h : ∀ s, exec i s = act s i fun d => d.whenRtc off g)
  | reads (g : Arrays → Dev → Dev) (h : ∀ s, exec i s = actRead s i fun a d => d.whenUp (g a))
  | always (g : Dev → Dev) (ha : actsAlways i = true) (h : ∀ s, exec i s = act s i g)
  | arrays (g : Arrays × Dev → Arrays × Dev) (hm : usesMemory i = true)
      (hk : ∀ p, Memory.wf p.1 = true → Memory.wf (g p).1 = true) (h : ∀ s, exec i s = actArrays s i (Dev.arraysUp g))
  | address (f : Fault) (ok : Bool) (g : Arrays × Dev → Arrays × Dev) (hm : usesMemory i = true)
      (hk : ∀ p, Memory.wf p.1 = true → Memory.wf (g p).1 = true) (h : ∀ s, exec i s = actMemory s i f ok (Dev.arraysUp g))
  | arraysAlways (g : Arrays × Dev → Arrays × Dev) (ha : actsAlways i = true) (hm : usesMemory i = true)
      (hk : ∀ p, Memory.wf p.1 = true → Memory.wf (g p).1 = true) (h : ∀ s, exec i s = actArrays s i g)

/-- An edge on a ball: in operation it is an input; otherwise the ball shows its level, and a glitch nothing (R103, R106). -/
def Dev.edgeBallIn (e : EdgeIn) (level glitch : Bool) (c : Nat) (d : Dev) : Dev :=
  if d.sys.phase = .up then d.edgeInput e level glitch c else if glitch then d else d.edgeBall e level

/-- EDGE_INPUT acts on the device as an edge on the ball. -/
theorem exec_edgeInput (e : EdgeIn) (level glitch : Bool) (c : Nat) (s : State) : exec (.edgeInput e level glitch c) s =
    act s (.edgeInput e level glitch c) (Dev.edgeBallIn e level glitch c) := rfl

/-- Every command acts in one of these ways, most of them on the device in operation. -/
theorem acts (i : Instr) : Acts i := by
  cases i with
  | powerOn away => exact .arraysAlways _ rfl rfl (fun p => powerOn_wf p away) fun _ => rfl
  | deviceStart start => exact .arraysAlways _ rfl rfl (fun p => deviceStart_wf p start) fun _ => rfl
  | resetProper c => exact .arraysAlways _ rfl rfl (fun p => resetProper_wf p c) fun _ => rfl
  | warmReturn => exact .arraysAlways _ rfl rfl warmReturn_wf fun _ => rfl
  | sramAccess c reqs ups => exact .address _ _ _ rfl (fun p => sramAccess_wf p c reqs ups) fun _ => rfl
  | sramAtomic c req addr n op v ups => exact .address _ _ _ rfl (fun p => sramAtomic_wf p c req addr n op v ups) fun _ => rfl
  | partialWrite sel addr bs ups => exact .address _ _ _ rfl (fun p => partialWrite_wf p sel addr bs ups) fun _ => rfl
  | patrolScrub w ups => exact .address _ _ _ rfl (fun p => patrolScrub_wf p w ups) fun _ => rfl
  | dramScrub w ups => exact .address _ _ _ rfl (fun p => dramScrub_wf p w ups) fun _ => rfl
  | bankRetention c bank => exact .arrays _ rfl (fun p => bankRetention_wf p c bank) fun _ => rfl
  | dramPowerDown c ch => exact .arrays _ rfl (fun p => dramPowerDown_wf p c ch) fun _ => rfl
  | brownOut c clean => exact .always (fun d => d.brownOut c clean) rfl fun _ => rfl
  | vinSurge vin => exact .always (fun d => d.vinSurge vin) rfl fun _ => rfl
  | vinLow vin => exact .always (fun d => d.vinLow vin) rfl fun _ => rfl
  | vinReversal => exact .always Dev.vinReversal rfl fun _ => rfl
  | resetNAssert c => exact .always (fun d => d.resetNAssert c) rfl fun _ => rfl
  | resetNRelease => exact .always Dev.resetNRelease rfl fun _ => rfl
  | resetNStuck => exact .always Dev.resetNStuck rfl fun _ => rfl
  | resetNUnstuck => exact .always Dev.resetNUnstuck rfl fun _ => rfl
  | houseWdog c => exact .always (fun d => d.houseWdog c) rfl fun _ => rfl
  | tickWdog c => exact .always (fun d => d.tickWdog c) rfl fun _ => rfl
  | debugReset c v port => exact .always (fun d => d.debugReset c v port) rfl fun _ => rfl
  | l3Reset c source => exact .always (fun d => d.accept c source 3) rfl fun _ => rfl
  | thermSample temps => exact .always (fun d => d.thermSample temps) rfl fun _ => rfl
  | thermalShutdown c => exact .always (fun d => d.thermalShutdown c) rfl fun _ => rfl
  | thermalRestart => exact .always Dev.thermalRestart rfl fun _ => rfl
  | xtalStop vbatLost => exact .always (fun d => d.xtalStop vbatLost) rfl fun _ => rfl
  | tickBoundary power => exact .always (fun d => d.tickBoundary power) rfl fun _ => rfl
  | rtcCompensate c t10 onVbat => exact .always (fun d => d.rtcCompensate c t10 onVbat) rfl fun _ => rfl
  | edgeInput e level glitch c => exact .always _ rfl (exec_edgeInput e level glitch c)
  | decodeApdu | apduUnpark | applyRecord | sweepClose | catchupClose | slotRepairDone | slotRepairTimeout | ldgSlotReinit
  | shadowExecute | shadowCorrectionInstall | rerateOrderApply | billingOrderApply | trackerOrderApply =>
    exact .seatsOpen _ fun _ => rfl
  | regWrite | rtcCapture | rtcCurveSave => exact .rtc _ _ rfl fun _ => rfl
  | readClear ag off c => exact .reads (fun a d => d.agentRead a ag off c) fun _ => rfl
  | regAccessDatagram n c => exact .reads (fun a d => d.regDatagram a n c) fun _ => rfl
  | mgmt rail c b => exact .reads (fun a d => d.mgmt a rail c b) fun _ => rfl
  | _ => exact .up _ fun _ => rfl

/-- What an operation on the memories keeps, it keeps behind the gate of operation too. -/
theorem Dev.arraysUp_wf {g : Arrays × Dev → Arrays × Dev} (hk : ∀ p, Memory.wf p.1 = true → Memory.wf (g p).1 = true)
    (p : Arrays × Dev) (h : Memory.wf p.1 = true) : Memory.wf (Dev.arraysUp g p).1 = true := by
  unfold Dev.arraysUp
  split
  · exact hk p h
  · exact h

/-- An ill-formed command on an address is refused, whether the address exists or not. -/
theorem actMemory_refused {s : State} {i : Instr} (f : Fault) (ok : Bool) (g : Arrays × Dev → Arrays × Dev)
    (hw : i.wf = false) : actMemory s i f ok g = .refused .operandRange := by
  cases ok <;> simp [actMemory, actArrays, hw]

/-- What every command keeps of the state: the queue, the memories unless it is one of those that use them, and the canonical
form of the memories. -/
structure Kept (i : Instr) (s s' : State) : Prop where
  queue : s'.pending = s.pending
  memory : usesMemory i = false → s'.arr = s.arr
  canonical : Memory.wf s.arr = true → Memory.wf s'.arr = true

/-- A change of the device alone keeps all of it. -/
theorem Kept.of_dev {i : Instr} {s s' : State} {e : Dev} (h : s' = { s with dev := e }) : Kept i s s' := by
  subst h
  exact ⟨rfl, fun _ => rfl, id⟩

/-- A command that uses the memories keeps all of it where it keeps the canonical form. -/
theorem Kept.of_arrays {i : Instr} {s s' : State} {g : Arrays × Dev → Arrays × Dev} (hm : usesMemory i = true)
    (hk : ∀ p, Memory.wf p.1 = true → Memory.wf (g p).1 = true)
    (h : s' = { s with arr := (g (s.arr, s.dev)).1, dev := (g (s.arr, s.dev)).2 }) : Kept i s s' := by
  subst h
  exact ⟨rfl, fun hn => by simp [hm] at hn, hk (s.arr, s.dev)⟩

/-- A command that answers a next state keeps the queue, the memories that it does not use, and their canonical form. -/
theorem exec_kept {i : Instr} {s s' : State} (h : exec i s = .next s') : Kept i s s' := by
  cases acts i with
  | up g he | seatsOpen g he | rtc _ g _ he | always g _ he => exact .of_dev (act_next ((he s).symm.trans h)).1
  | reads g he => exact .of_dev (actRead_next ((he s).symm.trans h)).1
  | arrays g hm hk he => exact .of_arrays hm (Dev.arraysUp_wf hk) (actArrays_next ((he s).symm.trans h)).1
  | address f ok g hm hk he => exact .of_arrays hm (Dev.arraysUp_wf hk) (actMemory_next ((he s).symm.trans h)).1
  | arraysAlways g _ hm hk he => exact .of_arrays hm hk (actArrays_next ((he s).symm.trans h)).1

/-! ### The queue and the memories -/

/-- Settles O1: the definition of a step on a queue with a front. -/
theorem stepRunsTheFront : Obligations.StepRunsTheFront := fun _ _ _ _ => rfl

/-- Settles O2: the definition of a step on an empty queue. -/
theorem stepIdlesOnEmptyQueue : Obligations.StepIdlesOnEmptyQueue := fun _ _ => rfl

/-- Settles O3: whichever way a command acts, it tests its operands first. -/
theorem illFormedCommandsAreRefused : Obligations.IllFormedCommandsAreRefused := by
  intro i s hw
  have hn : ¬ i.wf = true := by simp [hw]
  cases acts i with
  | up g he | seatsOpen g he | rtc _ g _ he | always g _ he => rw [he]; exact if_neg hn
  | reads g he => rw [he]; exact if_neg hn
  | arrays g _ _ he | arraysAlways g _ _ _ he => rw [he]; exact if_neg hn
  | address f ok g _ _ he => rw [he]; exact actMemory_refused f ok _ hw

/-- Settles O37: a command leaves the queue that it is given, and a step gives it what stands behind the front. -/
theorem queueOnlyLosesItsFront : Obligations.QueueOnlyLosesItsFront :=
  ⟨fun _ _ _ h => (exec_kept h).queue, fun _ _ _ _ _ h => (exec_kept h).queue⟩

/-- Settles O38: only the commands that use the memories act on them. -/
theorem onlyMemoryCommandsTouchMemory : Obligations.OnlyMemoryCommandsTouchMemory :=
  fun _ _ _ hm h => (exec_kept h).memory hm

/-- Settles O55: an empty list is in canonical form. -/
theorem resetMemoryIsCanonical : Obligations.ResetMemoryIsCanonical := rfl

/-- Settles O56: a step idles or runs a command, and every command keeps the canonical form. -/
theorem stepKeepsMemoryCanonical : Obligations.StepKeepsMemoryCanonical := by
  rintro ⟨_ | ⟨i, q⟩, a, d⟩ s' hwf h
  · cases h
    exact hwf
  · exact (exec_kept (i := i) h).canonical hwf

/-! ### Out of operation -/

/-- The lock of the real-time clock does nothing, or answers a write met while the device quiesces (R83). -/
theorem Dev.lockedWrite_cases (d : Dev) (off : Nat) : d.lockedWrite off = d ∨
    d.sys.phase = .quiesced ∧ d.on Reg.RTC_STAT.LOCKED = true ∧ d.lockedWrite off = d.raise Stk.TIME.RTC_LOCK_WR := by
  unfold Dev.lockedWrite
  split
  · rename_i h
    simp only [Bool.and_eq_true, decide_eq_true_eq] at h
    exact .inr ⟨h.1.1, h.1.2, rfl⟩
  · exact .inl rfl

/-- A next state whose device is the one before is the state before. -/
theorem State.eq_of_dev {s s' : State} {e : Dev} (h : s' = { s with dev := e }) (he : e = s.dev) : s' = s := by
  rw [h, he]

/-- A next state whose memories and device are those before is the state before. -/
theorem State.eq_of_arrays {s s' : State} {p : Arrays × Dev} (h : s' = { s with arr := p.1, dev := p.2 })
    (hp : p = (s.arr, s.dev)) : s' = s := by
  rw [h, hp]

/-- Out of operation a gated command that answers a next state answers the state it was given, but for the lock of the
real-time clock. -/
theorem exec_outside {i : Instr} {s s' : State} (hp : s.dev.sys.phase ≠ .up) (ha : actsAlways i = false)
    (h : exec i s = .next s') : s' = s ∨ writesRtc i = true ∧ s.dev.sys.phase = .quiesced ∧
      s.dev.on Reg.RTC_STAT.LOCKED = true ∧ s' = { s with dev := s.dev.raise Stk.TIME.RTC_LOCK_WR } := by
  cases acts i with
  | up g he => exact .inl (State.eq_of_dev (act_next ((he s).symm.trans h)).1 (Dev.whenUp_not g hp))
  | seatsOpen g he => exact .inl (State.eq_of_dev (act_next ((he s).symm.trans h)).1 (Dev.whenOpen_not g hp))
  | reads g he => exact .inl (State.eq_of_dev (actRead_next ((he s).symm.trans h)).1 (Dev.whenUp_not _ hp))
  | arrays g _ _ he => exact .inl (State.eq_of_arrays (actArrays_next ((he s).symm.trans h)).1 (Dev.arraysUp_not g hp))
  | address f ok g _ _ he => exact .inl (State.eq_of_arrays (actMemory_next ((he s).symm.trans h)).1 (Dev.arraysUp_not g hp))
  | always _ hy | arraysAlways _ hy => simp [hy] at ha
  | rtc off g hr he =>
    have hs := (act_next ((he s).symm.trans h)).1
    rw [show s.dev.whenRtc off g = s.dev.lockedWrite off from if_neg hp] at hs
    rcases s.dev.lockedWrite_cases off with e | ⟨hq, hl, e⟩
    · exact .inl (State.eq_of_dev hs e)
    · exact .inr ⟨hr, hq, hl, e ▸ hs⟩

/-- Out of operation an edge shows its ball's level, and a glitch nothing (R106). -/
theorem exec_edgeInput_outside {s s' : State} {e : EdgeIn} {level glitch : Bool} {c : Nat} (hp : s.dev.sys.phase ≠ .up)
    (h : exec (.edgeInput e level glitch c) s = .next s') :
    s' = if glitch then s else { s with dev := s.dev.edgeBall e level } := by
  obtain ⟨rfl, -⟩ := act_next ((exec_edgeInput e level glitch c s).symm.trans h)
  rw [show Dev.edgeBallIn e level glitch c s.dev = if glitch then s.dev else s.dev.edgeBall e level from if_neg hp]
  cases glitch <;> rfl

/-- Settles O39: the gates are shut, and an edge has its own meaning there. -/
theorem outsideOperationNothingHappens : Obligations.OutsideOperationNothingHappens := by
  rintro i s s' - hp h
  refine ⟨fun ha => exec_outside hp ha h, ?_⟩
  rintro e level glitch n rfl
  exact exec_edgeInput_outside hp h

end Sys2Proof.Machine
end

section
/-!
PROOFS. The family of PLC, the rail carrier, the radio and the transmit grant.
-/

namespace Sys2Proof.Machine

/-! ### The power line (R111, R116, R117, R122) -/

/-- Where the port is a PLC port, loss of lock abandons the frame; lost at the chip itself, it takes the link down too. -/
theorem Dev.afeLockLoss_plc {d : Dev} {p : Nat} (atAfe : Bool) (h : d.isPlc p = true) :
    d.afeLockLoss p atAfe =
      (if atAfe then ((d.plcAbort p).raisePort Stk.PLC.LOCK_LOST p).wr Reg.PLC_STAT.TXON 0 p
       else ((((d.plcAbort p).raisePort Stk.PLC.LOCK_LOST p).wr Reg.PLC_STAT.TXON 0 p).wr Reg.PLC_STAT.RX_LOCK 0 p).wr
        Reg.FP_STAT.LINK 2 p |>.onPort p fun s => { s with charLock := false }) := by
  simp only [Dev.afeLockLoss, h, Bool.not_true, Bool.false_eq_true, if_false]

/-- A frame without a zero crossing enters the receive queue while that has room. -/
theorem Dev.plcFrameRx_room {d : Dev} {p : Nat} {frame : Bytes} (sender : Nat) (h : d.isPlc p = true)
    (hr : (d.count Reg.PLC_RXCNT.FRAMES 1 p).rxqRoom p frame.length = true) :
    d.plcFrameRx p sender frame none = (d.count Reg.PLC_RXCNT.FRAMES 1 p).rxqPut p frame := by
  simp only [Dev.plcFrameRx, h, hr, Bool.not_true, Bool.false_eq_true, if_false, if_true]

/-- A frame with a zero crossing notes its sender's phase, and enters the receive queue while that has room. -/
theorem Dev.plcFrameRx_phase {d : Dev} {p sender start delay : Nat} {frame : Bytes} (h : d.isPlc p = true)
    (hr : ((d.count Reg.PLC_RXCNT.FRAMES 1 p).neighbourPhase p sender start delay).rxqRoom p frame.length = true) :
    d.plcFrameRx p sender frame (some (start, delay)) =
      ((d.count Reg.PLC_RXCNT.FRAMES 1 p).neighbourPhase p sender start delay).rxqPut p frame := by
  simp only [Dev.plcFrameRx, h, hr, Bool.not_true, Bool.false_eq_true, if_false, if_true]

/-- The holder of the grant answers a join request that is not deferred. -/
theorem Dev.plcJoinRequest_granted {d : Dev} {p : Nat} (eui : Nat) (h : d.isPlc p = true) (hg : d.granted = true)
    (hj : d.joinDeferred p = false) :
    d.plcJoinRequest p eui =
      ((((d.joinPsk p eui).1.bump Reg.PLC_JOIN.ANSWERED 1 p).onPlc p fun s =>
        { s with joins := d.recentJoins p ++ [d.time.tick] }).emit (.joinAnswer p eui (d.joinPsk p eui).2)) := by
  simp only [Dev.plcJoinRequest, h, hg, hj, Bool.not_true, Bool.or_self, Bool.false_eq_true, if_false]

/-- On a quiet rail the oldest frame goes out, and waits for its ACK where it asks for one. -/
theorem Dev.railFrameSend_quiet {d : Dev} {c : Nat} {f : RailTx} {rest : List RailTx}
    (he : (d.advance c).on Reg.RAIL_CFG.ENABLED = true) (hh : d.rail.holdTo ≤ (d.advance c).time.cnt)
    (hw : d.rail.waiting = none) (hq : d.rail.queue = f :: rest) :
    d.railFrameSend c false =
      (let d1 := (d.advance c).wr Reg.RAIL_STAT.BUSY 0
       ({ d1 with rail := { d1.rail with queue := rest, waiting := if f.ackReq then some f else none } } : Dev).railOut
        f.bytes) := by
  have hgo : ¬ (!(d.advance c).on Reg.RAIL_CFG.ENABLED || decide ((d.advance c).time.cnt < (d.advance c).rail.holdTo) ||
      (d.advance c).rail.waiting.isSome) = true := by
    simp [he, hw, hh]
  have hq1 : ((d.advance c).wr Reg.RAIL_STAT.BUSY (b2n false)).rail.queue = f :: rest := by simpa using hq
  simp only [Dev.railFrameSend, if_neg hgo, hq1, Bool.false_eq_true, if_false]
  rfl

/-- A frame whose ACK does not come is abandoned after its third retry, and otherwise goes out again. -/
theorem Dev.railAckTimeout_waiting {d : Dev} {f : RailTx} (h : d.rail.waiting = some f) :
    d.railAckTimeout =
      (if f.tries ≥ 3 then (({ d with rail := { d.rail with waiting := none } } : Dev).bump Reg.RAIL_ERRCNT.RETRY).raise
        Stk.RAIL.RETRY_EXH
       else { d with rail := { d.rail with waiting := none, queue := { f with tries := f.tries + 1 } :: d.rail.queue } }) := by
  simp only [Dev.railAckTimeout, h]

/-- Settles O14: each command acts by its gate, and the branch that its conditions choose gives what it leaves. -/
theorem powerLineComplete : Obligations.PowerLineComplete := by
  refine ⟨?samples, ?overload, ?status, ?lockLoss, ?frame, ?framePhase, ?join, ?send, ?receive, ?ackTimeout, ?impulse, ?pilot⟩
  case samples =>
    exact fun d p chars marks hw hup _ _ _ => runs_whenUp (g := fun d => d.afeSampleBlock p chars marks) (fun _ => rfl) hw hup
  case overload =>
    exact fun d p x hw hup _ _ _ => runs_whenUp (g := fun d => d.plcOverload p x.first x.second) (fun _ => rfl) hw hup
  case status =>
    exact fun d p chars hw hup _ _ => runs_whenUp (g := fun d => d.afeStatusBlock p chars) (fun _ => rfl) hw hup
  case lockLoss => exact fun d p atAfe hw hup h => runs_whenUp_to (fun _ => rfl) hw hup (Dev.afeLockLoss_plc atAfe h)
  case frame =>
    rintro d p sender frame _ hw hup h rfl hr
    exact runs_whenUp_to (fun _ => rfl) hw hup (Dev.plcFrameRx_room sender h hr)
  case framePhase =>
    rintro d p sender frame _ start delay hw hup h rfl hr
    exact runs_whenUp_to (fun _ => rfl) hw hup (Dev.plcFrameRx_phase h hr)
  case join =>
    exact fun d r hw hup h hg hj => runs_whenUp_to (fun _ => rfl) hw hup (Dev.plcJoinRequest_granted r.eui h hg hj)
  case send =>
    rintro d c _ f rest hup he hh hwait hq rfl
    exact runs_whenUp_to (fun _ => rfl) rfl hup (Dev.railFrameSend_quiet he hh hwait hq)
  case receive =>
    exact fun d c bs hup _ _ _ _ => runs_whenUp (g := fun d => d.railFrameRx c bs) (fun _ => rfl) rfl hup
  case ackTimeout => exact fun d f hup h => runs_whenUp_to (fun _ => rfl) rfl hup (Dev.railAckTimeout_waiting h)
  case impulse => exact fun d t above hup => runs_whenUp (g := fun d => d.railImpulse t above) (fun _ => rfl) rfl hup
  case pilot => exact fun d level hup _ => runs_whenUp (g := fun d => d.railPilot level) (fun _ => rfl) rfl hup

/-! ### The radio and the grant (R134, R143) -/

/-- The holder of the grant sends the oldest indirect frame, which after its third retry has expired. -/
theorem Dev.indirectTx_head {d : Dev} {p : Nat} {f : Indirect} (fails : Nat) (h : d.isRadio p = true) (hg : d.granted = true)
    (hf : d.indirectHead p = some f) :
    d.indirectTx p fails = (if fails > 3 then (d.indirectSend p fails).campExpired f else d.indirectSend p fails) := by
  simp only [Dev.indirectTx, h, hg, hf, Bool.not_true, Bool.or_self, Bool.false_eq_true, if_false]

/-- On a radio port the indirect frames past their persistence are dropped. -/
theorem Dev.indirectExpire_radio {d : Dev} {p : Nat} (h : d.isRadio p = true) :
    d.indirectExpire p = (d.indirectExpired p).foldl Dev.campExpired (d.indirectDrop p) :=
  if_neg (by simp [h])

/-- A device that may take the grant raises it. -/
theorem Dev.grantRaise_may {d : Dev} {c : Nat} (h : (d.advance c).mayGrant = true) : d.grantRaise c = (d.advance c).grantOn :=
  if_pos h

/-- Settles O15: each command acts by its gate, and the branch that its conditions choose gives what it leaves. -/
theorem radioAndGrantComplete : Obligations.RadioAndGrantComplete := by
  refine ⟨?beacon, ?frame, ?poll, ?indirect, ?expire, ?assoc, ?gts, ?raise, ?peerRise, ?peerFall, ?psdu⟩
  case beacon => exact fun d p hw hup _ _ => runs_whenUp (g := fun d => d.beacon p) (fun _ => rfl) hw hup
  case frame =>
    rintro d p c f _ _ late hw hup _ _ rfl rfl _ _
    exact runs_whenUp (g := fun d => d.radioFrameRx p c f true true late) (fun _ => rfl) hw hup
  case poll =>
    rintro d p c f _ _ late hw hup _ _ rfl rfl _ _
    exact runs_whenUp (g := fun d => d.dataRequest p c f true true late) (fun _ => rfl) hw hup
  case indirect =>
    exact fun d p fails f hw hup h hg hf => runs_whenUp_to (fun _ => rfl) hw hup (Dev.indirectTx_head fails h hg hf)
  case expire => exact fun d p hw hup h => runs_whenUp_to (fun _ => rfl) hw hup (Dev.indirectExpire_radio h)
  case assoc =>
    intro d p r hw hup _ _ he hf _ _
    exact runs_whenUp_to (fun _ => rfl) hw hup
      (show d.associationRequest p r.c r.frame r.eui r.fcsOk r.endSet r.late = _ by rw [he, hf])
  case gts =>
    intro d p r hw hup _ _ he hf
    exact runs_whenUp_to (fun _ => rfl) hw hup
      (show d.gtsRequest p r.c r.reqs r.fcsOk r.endSet r.late = _ by rw [he, hf]; rfl)
  case raise => exact fun d c hup h => runs_whenUp_to (fun _ => rfl) rfl hup (Dev.grantRaise_may h)
  case peerRise => exact fun d c hup => runs_whenUp (g := fun d => d.grantPeerRise c) (fun _ => rfl) rfl hup
  case peerFall => exact fun d c hup => runs_whenUp (g := fun d => d.grantPeerFall c) (fun _ => rfl) rfl hup
  case psdu =>
    exact fun d p t0 dup f hw hup _ _ => runs_whenUp (g := fun d => d.partnerPsdu p t0 dup f.frame f.kind) (fun _ => rfl) hw hup

end Sys2Proof.Machine
end

section
/-!
PROOFS. The family of the canvas and the campaigns.
-/

namespace Sys2Proof.Machine

/-! ### Staging a canvas (R46, R49) -/

/-- STAGE in EMPTY or UNCONF with an aligned address starts the fetch. -/
theorem Dev.canvasStage_idle {d : Dev} (mode : Nat) (hs : d.cvState = 0 ∨ d.cvState = 0xF)
    (ha : d.rd64 Reg.CANVAS_SRC_ADDR.ADDR % 64 = 0) :
    d.canvasStage mode =
      (let d1 := ({ d with cv := { d.cv with mode, fetched := none } } : Dev).setCv 1
       d1.emit (.dmaRead (d.rd64 Reg.CANVAS_SRC_ADDR.ADDR) (d1.rd Reg.CANVAS_SRC_LEN.LEN))) := by
  have hidle : ¬ (d.cvState ≠ 0 ∧ d.cvState ≠ 0xF) := by omega
  simp only [Dev.canvasStage, if_neg hidle, ha, ne_eq, not_true_eq_false, if_false]

/-- The end of a fetch under way gives the canvas to validation, or reports the failed fetch. -/
theorem Dev.canvasFetchDone_fetching {d : Dev} (bytes : Option Bytes) (hs : d.cvState = 1) :
    d.canvasFetchDone bytes =
      (match bytes with
       | none => (d.cvCode 0x20).cvRest
       | some b => ({ d with cv := { d.cv with fetched := some b } } : Dev).setCv 2) := by
  cases bytes <;> exact if_neg (not_not.2 hs)

/-- A valid canvas is written to the free store and sent to the standby. -/
theorem Dev.canvasStaged_valid {d : Dev} {x : CvStaged} (hx : d.cv.staged = some x) (hs : d.cvState = 2)
    (hm : d.mayStore = true) :
    d.canvasStaged =
      (let d1 := (d.writeStore x.store x.bytes false).tellStandby 0 (leBytes 1 x.mode ++ x.bytes)
       (d1.wr Reg.CANVAS_STAT.PARTNER_OK (b2n (!d1.cfg.hasPartner))).setCv 3) := by
  have hgo : ¬ (d.cvState ≠ 2 ∨ d.mayStore = false) := by simp [hs, hm]
  simp only [Dev.canvasStaged, hx, if_neg hgo]

/-! ### Applying and committing a canvas (R50, R51, R53) -/

/-- ARM of a staged run-time canvas sets its apply tick inside the bounds of R51 and tells the standby. -/
theorem Dev.canvasArm_staged {d : Dev} {x : CvStaged} (hx : d.cv.staged = some x) (hs : d.cvState = 3) (hm : x.mode = 0)
    (hlo : d.time.tick + 8 ≤ d.rd64 Reg.CANVAS_APPLY_TICK.TICK)
    (hhi : d.rd64 Reg.CANVAS_APPLY_TICK.TICK ≤ d.time.tick + 2 ^ 32) :
    d.canvasArm = (({ d with cv := { d.cv with armT := d.rd64 Reg.CANVAS_APPLY_TICK.TICK } } : Dev).setCv 4).tellStandby 1
      (leBytes 8 (d.rd64 Reg.CANVAS_APPLY_TICK.TICK)) := by
  have hgo : ¬ (d.cvState ≠ 3 ∨ x.mode ≠ 0 ∨ d.rd64 Reg.CANVAS_APPLY_TICK.TICK < d.time.tick + 8 ∨
      d.time.tick + 2 ^ 32 < d.rd64 Reg.CANVAS_APPLY_TICK.TICK) := by
    omega
  simp only [Dev.canvasArm, hx, if_neg hgo]

/-- A partner that is not ready in time ends the application. -/
theorem Dev.canvasAbandon_late {d : Dev} (hs : d.cvState = 4) (hc : d.cv.commit = none) (ht : d.cv.armT ≤ d.time.tick + 1)
    (hp : d.partnerOk = false) : d.canvasAbandon = ((d.cvCode 0x1D).dropStaged).tellStandby 5 [] :=
  if_neg (by simp [hs, hc, hp, ht])

/-- A staged canvas of the next start is scheduled for the journal of the tick after. -/
theorem Dev.scheduleCommit_staged {d : Dev} {x : CvStaged} (hx : d.cv.staged = some x) (hs : d.cvState = 3) (hm : x.mode = 1)
    (hc : d.cv.commit = none) :
    d.scheduleCommit = { d with cv := { d.cv with commit := some {
      tick := d.time.tick + 1, bytes := x.bytes, mode := 1, store := x.store, oldSerial := d.cfg.serial } } } := by
  have hgo : ¬ (d.cvState ≠ 3 ∨ x.mode ≠ 1 ∨ d.cv.commit.isSome = true) := by simp [hs, hm, hc]
  simp only [Dev.scheduleCommit, hx, if_neg hgo]

/-- COMMIT that schedules a commit tells the standby. -/
theorem Dev.canvasCommit_staged {d : Dev} {x : CvStaged} (hx : d.cv.staged = some x) (hs : d.cvState = 3) (hm : x.mode = 1)
    (hc : d.cv.commit = none) :
    d.canvasCommit = ({ d with cv := { d.cv with commit := some {
      tick := d.time.tick + 1, bytes := x.bytes, mode := 1, store := x.store, oldSerial := d.cfg.serial } } } : Dev).tellStandby
      3 [] := by
  unfold Dev.canvasCommit
  rw [Dev.scheduleCommit_staged hx hs hm hc]
  exact if_neg (by simp [hc])

/-- A fetch or check is cancelled on this side alone. -/
theorem Dev.canvasCancel_checking {d : Dev} (hc : d.cv.commit = none) (hs : d.cvState = 1 ∨ d.cvState = 2) :
    d.canvasCancel = d.dropStaged := by
  simp only [Dev.canvasCancel, hc, Option.isSome_none, Bool.false_eq_true, if_false, if_pos hs]

/-- A staged canvas, or one armed for a later tick, is cancelled on the standby too. -/
theorem Dev.canvasCancel_staged {d : Dev} (hc : d.cv.commit = none)
    (hs : d.cvState = 3 ∨ (d.cvState = 4 ∧ d.time.tick < d.cv.armT)) : d.canvasCancel = d.dropStaged.tellStandby 2 [] := by
  have hnot : ¬ (d.cvState = 1 ∨ d.cvState = 2) := by omega
  simp only [Dev.canvasCancel, hc, Option.isSome_none, Bool.false_eq_true, if_false, if_neg hnot, if_pos hs]

/-- A write of more than one command is ignored. -/
theorem Dev.canvasCtl_conflict {d : Dev} {v : Nat} (h : 1 < cvCommands v) : d.canvasCtl v = d := if_pos h

/-- Settles O21: each command acts by its gate, and the branch that its conditions choose gives what it leaves. -/
theorem canvasComplete : Obligations.CanvasComplete := by
  refine ⟨?stage, ?fetchDone, ?checkDone, ?staged, ?partnerStages, ?partnerArmed, ?partnerCancelled, ?partnerCommitted, ?report,
    ?arm, ?abandon, ?apply, ?commit, ?reload, ?cancelChecking, ?cancelStaged, ?conflict⟩
  case stage => exact fun d mode hw hup hs ha => runs_whenUp_to (fun _ => rfl) hw hup (Dev.canvasStage_idle mode hs ha)
  case fetchDone =>
    exact fun d bytes hup hs => runs_whenUp_to (fun _ => rfl) rfl hup (Dev.canvasFetchDone_fetching bytes hs)
  case checkDone => exact fun d b hup _ _ _ _ => runs_whenUp (g := Dev.canvasCheckDone) (fun _ => rfl) rfl hup
  case staged => exact fun d x hup hx hs hm => runs_whenUp_to (fun _ => rfl) rfl hup (Dev.canvasStaged_valid hx hs hm)
  case partnerStages =>
    exact fun d mode b hup => runs_whenUp (g := fun d => d.partnerCanvas (.canvas mode b)) (fun _ => rfl) rfl hup
  case partnerArmed => exact fun d t hup => runs_whenUp (g := fun d => d.partnerCanvas (.armed t)) (fun _ => rfl) rfl hup
  case partnerCancelled =>
    exact fun d abandoned hup => runs_whenUp (g := fun d => d.partnerCanvas (.cancelled abandoned)) (fun _ => rfl) rfl hup
  case partnerCommitted => exact fun d hup => runs_whenUp (g := fun d => d.partnerCanvas .committed) (fun _ => rfl) rfl hup
  case report => exact fun d code hw hup => runs_whenUp (g := fun d => d.partnerReport code) (fun _ => rfl) hw hup
  case arm =>
    exact fun d x hup hx hs hm hlo hhi => runs_whenUp_to (fun _ => rfl) rfl hup (Dev.canvasArm_staged hx hs hm hlo hhi)
  case abandon =>
    exact fun d hup hs hc ht hp => runs_whenUp_to (fun _ => rfl) rfl hup (Dev.canvasAbandon_late hs hc ht hp)
  case apply => exact fun d x hup _ _ _ _ _ => runs_whenUp (g := Dev.canvasApply) (fun _ => rfl) rfl hup
  case commit =>
    exact fun d x hup hx hs hm hc => runs_whenUp_to (fun _ => rfl) rfl hup (Dev.canvasCommit_staged hx hs hm hc)
  case reload => exact fun d c hup => runs_whenUp (g := fun d => d.canvasReload c) (fun _ => rfl) rfl hup
  case cancelChecking =>
    exact fun d hup hc hs => runs_whenUp_to (fun _ => rfl) rfl hup (Dev.canvasCancel_checking hc hs)
  case cancelStaged => exact fun d hup hc hs => runs_whenUp_to (fun _ => rfl) rfl hup (Dev.canvasCancel_staged hc hs)
  case conflict => exact fun d v hw hup h => runs_whenUp_to (fun _ => rfl) hw hup (Dev.canvasCtl_conflict h)

/-! ### Campaigns under the commands of their owner (R248, R249, R256) -/

/-- CREATE of a free campaign starts the fetch of its body. -/
theorem Dev.campCreate_free {d : Dev} {n : Nat} (h : (d.campaign (d.campSel n)).state = 0) :
    d.campCreate n = (d.onCamp (d.campSel n) fun _ => { state := 1, owner := n }).emit
      (.dmaRead (d.rd64 Reg.CAMP_SRC_ADDR_LO.VALUE n) (d.rd Reg.CAMP_SRC_LEN.VALUE 0 n)) :=
  if_neg (not_not.2 h)

/-- A fetched body with nothing against it makes the campaign READY. -/
theorem Dev.campFetchDone_ready {d : Dev} {i : Nat} {b : Bytes} (hs : (d.campaign i).state = 1)
    (hc : d.campCause (d.campaign i).owner i b = none) :
    d.campFetchDone i (some b) = (d.nandWriteN (lpaImages + 512 * i) sCOLD d.time.tick (pagesOf b.length)).onCamp i fun x =>
      { state := 2, kind := u b 0 1, owner := x.owner, body := b, nand := b, chk := sealOf (campPayload b) } := by
  simp only [Dev.campFetchDone, hs, hc, ne_eq, not_true_eq_false, if_false]

/-- A failed fetch refuses the campaign with reason 7. -/
theorem Dev.campFetchDone_failed {d : Dev} {i : Nat} (hs : (d.campaign i).state = 1) :
    d.campFetchDone i none = (d.onCamp i fun _ => {}).campRefuse (d.campaign i).owner 7 := by
  simp only [Dev.campFetchDone, hs, ne_eq, not_true_eq_false, if_false]

/-- START of the owner's READY campaign enters its first phase with its targets as they stand. -/
theorem Dev.campStart_ready {d : Dev} {n : Nat} (seen : ImgSeen) (ho : d.campOwned n (d.campSel n) = true)
    (hs : (d.campaign (d.campSel n)).state = 2) :
    d.campStart n seen = (((d.onCamp (d.campSel n) fun x => { x with targets := d.campTargets x, round := 0 }).enterPhase
      (d.campSel n) (if (d.campaign (d.campSel n)).kind = 1 then 3 else 5) seen).campSettle (d.campSel n)) :=
  if_neg (by simp [ho, hs])

/-- PAUSE of a phase of the owner's campaign pauses it. -/
theorem Dev.campPause_phase {d : Dev} {n : Nat} (ho : d.campOwned n (d.campSel n) = true)
    (hp : campPhase (d.campaign (d.campSel n)).state = true) : d.campPause n = d.onCamp (d.campSel n) CampSt.pause :=
  if_pos (by simp [ho, hp])

/-- RESUME of the owner's paused campaign continues the phase that was paused. -/
theorem Dev.campResume_paused {d : Dev} {n : Nat} (ho : d.campOwned n (d.campSel n) = true)
    (hs : (d.campaign (d.campSel n)).state = 8) :
    d.campResume n = (d.onCamp (d.campSel n) fun c => { c with state := c.paused, paused := 0 }).campSettle (d.campSel n) :=
  if_pos (by simp [ho, hs])

/-- ABORT takes the owner's campaign to ABORTED. -/
theorem Dev.campAbort_owned {d : Dev} {n : Nat} (ho : d.campOwned n (d.campSel n) = true) :
    d.campAbort n = d.onCamp (d.campSel n) fun c => { c with state := 9 } := if_pos ho

/-- RELEASE frees the owner's campaign once it has ended. -/
theorem Dev.campRelease_ended {d : Dev} {n : Nat} (ho : d.campOwned n (d.campSel n) = true)
    (hs : (d.campaign (d.campSel n)).state = 7 ∨ (d.campaign (d.campSel n)).state = 9) :
    d.campRelease n = d.onCamp (d.campSel n) fun _ => {} := if_pos ⟨ho, hs⟩

/-! ### The campaign engine (R251, R254) -/

/-- The campaigns as a transmit slot finds them: each has dropped the targets that it lost and moved on as far as it can. -/
def Dev.campsAdvanced (d : Dev) (seen : ImgSeen) : Dev :=
  (List.range 16).foldl (fun d i => (if campPhase (d.campaign i).phase && d.campLost (d.campaign i) != d.campaign i then
    d.onCamp i d.campLost else d).campAdvance i seen campFuel) d

/-- On a port that is free to send, the next campaign in turn with something to send there sends it. -/
theorem Dev.campTxSlot_turn {d e : Dev} {p k : Nat} (sys : Bytes) (airtime : Nat) {seen : ImgSeen}
    (he : e = d.campsAdvanced seen) (hg : e.granted = true) (hh : e.on Reg.ING_STAT.HOLD = false)
    (hstorm : e.mode p ≠ Canvas.mRADIO ∨ e.on Reg.RADIO_STAT.STORM p = false) (hi : e.isolated p = false)
    (hp : e.paused p = false) (hq : (e.port p).txq = []) (hgap : SMap.get (fun _ => 0) e.camp.gapTo p ≤ e.time.tick)
    (hk : (List.range 16).find? (fun k => e.campHas p ((SMap.get (fun _ => 0) e.camp.turn p + k) % 16)) = some k) :
    d.campTxSlot p sys airtime false seen =
      ({ e with camp := { e.camp with turn := SMap.put e.camp.turn p (((SMap.get (fun _ => 0) e.camp.turn p + k) % 16 + 1) % 16) } }
        : Dev).campSend ((SMap.get (fun _ => 0) e.camp.turn p + k) % 16) p sys airtime := by
  have hfree : ¬ (!e.granted || e.on Reg.ING_STAT.HOLD || (e.mode p == Canvas.mRADIO && e.on Reg.RADIO_STAT.STORM p) || false ||
      e.isolated p || e.paused p || !(e.port p).txq.isEmpty ||
      decide (e.time.tick < SMap.get (fun _ => 0) e.camp.gapTo p)) = true := by
    rcases hstorm with hm | hs
    · simp [hg, hh, hm, hi, hp, hq, hgap]
    · simp [hg, hh, hs, hi, hp, hq, hgap]
  unfold Dev.campTxSlot
  rw [← Dev.campsAdvanced, ← he]
  dsimp only
  rw [if_neg hfree, hk]

/-- An attempt of 30 s without a response counts as a failed one. -/
theorem Dev.campTimeout_late {d : Dev} {i slot : Nat} {t : Target} (hp : campPhase (d.campaign i).phase = true)
    (ht : (d.campaign i).targets.find? (fun t => t.slot == slot && t.waiting) = some t)
    (hl : t.lastTick + 3000 ≤ d.time.tick) : d.campTimeout i slot = (d.tgtMiss i slot).campSettle i := by
  simp only [Dev.campTimeout, hp, ht, Bool.true_eq_false, if_false, if_neg (Nat.not_lt.2 hl)]

/-- Settles O22: each command acts by its gate, and the branch that its conditions choose gives what it leaves. -/
theorem campaignsComplete : Obligations.CampaignsComplete := by
  refine ⟨?create, ?ready, ?failed, ?start, ?pause, ?resume, ?abort, ?release, ?txSlot, ?response, ?timeout⟩
  case create => exact fun d n hw hup h => runs_whenUp_to (fun _ => rfl) hw hup (Dev.campCreate_free h)
  case ready =>
    rintro d i _ b hup hs rfl hc
    exact runs_whenUp_to (fun _ => rfl) rfl hup (Dev.campFetchDone_ready hs hc)
  case failed =>
    rintro d i _ hup hs rfl
    exact runs_whenUp_to (fun _ => rfl) rfl hup (Dev.campFetchDone_failed hs)
  case start => exact fun d n seen hw hup ho hs => runs_whenUp_to (fun _ => rfl) hw hup (Dev.campStart_ready seen ho hs)
  case pause => exact fun d n hw hup ho hp => runs_whenUp_to (fun _ => rfl) hw hup (Dev.campPause_phase ho hp)
  case resume => exact fun d n hw hup ho hs => runs_whenUp_to (fun _ => rfl) hw hup (Dev.campResume_paused ho hs)
  case abort => exact fun d n hw hup ho => runs_whenUp_to (fun _ => rfl) hw hup (Dev.campAbort_owned ho)
  case release => exact fun d n hw hup ho hs => runs_whenUp_to (fun _ => rfl) hw hup (Dev.campRelease_ended ho hs)
  case txSlot =>
    rintro d p sys airtime _ seen e k hw hup he hg hh hstorm rfl hi hp hq hgap hk
    exact runs_whenUp_to (fun _ => rfl) hw hup (Dev.campTxSlot_turn sys airtime he hg hh hstorm hi hp hq hgap hk)
  case response =>
    exact fun d i slot answer t hw hup _ _ => runs_whenUp (g := fun d => d.campResponse i slot answer) (fun _ => rfl) hw hup
  case timeout =>
    exact fun d i slot t hw hup hp ht hl => runs_whenUp_to (fun _ => rfl) hw hup (Dev.campTimeout_late hp ht hl)

end Sys2Proof.Machine
end

section
/-!
PROOFS. The family of the vault.
-/

namespace Sys2Proof.Machine

/-! ### Messages to the vault (R270, R271) -/

/-- A message of a seat that waits for none is queued and fetched. -/
theorem Dev.vaultSubmit_free {d : Dev} {n : Nat} (h : d.vault.queue.contains n = false) :
    d.vaultSubmit n =
      (let d1 := ({ d with vault := { d.vault with queue := d.vault.queue ++ [n] } } : Dev).vbusy
       d1.emit (.dmaRead (d1.rd Reg.VAULT_MSG_ADDR_LO.VALUE 0 n + 2 ^ 32 * d1.rd Reg.VAULT_MSG_ADDR_HI.VALUE 0 n)
        (d1.rd Reg.VAULT_MSG_LEN.VALUE 0 n))) :=
  if_neg (by simp only [h, Bool.false_eq_true, not_false_eq_true])

/-- With no message accepted, the one at the front of the queue is checked: refused with its code, or accepted. -/
theorem Dev.vaultMsgCheck_front {d : Dev} {n : Nat} (m : Option Bytes) (hq : d.vault.queue.head? = some n)
    (ha : d.vault.accepted = none) :
    d.vaultMsgCheck m =
      (match m with
       | none => ((d.vresult n 12 0 0).vaultPop).raise Stk.VAULT.MSG_REJ
       | some m => match d.vaultCheck n m with
         | .error code => ((d.vresult n code (u m 5 1 % 16) (bitsOf (u m 34 2) 11 0)).vaultPop).raise Stk.VAULT.MSG_REJ
         | .ok msg => { d with vault := { d.vault with accepted := some msg } }) := by
  unfold Dev.vaultMsgCheck
  split
  · next k hk _ =>
    obtain rfl : k = n := Option.some.inj (hk.symm.trans hq)
    cases m <;> rfl
  · next hno => exact absurd ha (hno n hq)

/-- PUT commits the unwrapped key with the message's attributes and parent. -/
theorem Dev.vaultPut_accepted {d : Dev} {m : VMsg} (ps : Pulses) (h : d.acceptedOp 1 = some m) :
    d.vaultPut ps =
      (let key := (keyUnwrap (d.txKey m.auth "HZ-XPORT") m.payload).getD []
       d.vaultCommit m (d.slotFor m.slot m.attr m.auth key) ps) := by
  unfold Dev.vaultPut
  rw [h]

/-- REPLACE commits the unwrapped key with the slot's own attributes and parent. -/
theorem Dev.vaultReplace_accepted {d : Dev} {m : VMsg} (ps : Pulses) (h : d.acceptedOp 2 = some m) :
    d.vaultReplace ps =
      (let key := (keyUnwrap (d.txKey m.auth "HZ-XPORT") m.payload).getD []
       d.vaultCommit m (d.slotFor m.slot (d.vslot m.slot).attr (d.vslot m.slot).link key) ps) := by
  unfold Dev.vaultReplace
  rw [h]

/-- DESTROY commits an empty slot, and once that is written sweeps the slot's descendants. -/
theorem Dev.vaultDestroy_accepted {d : Dev} {m : VMsg} (ps : Pulses) (h : d.acceptedOp 3 = some m) :
    d.vaultDestroy ps =
      (let d1 := d.vaultCommit m {} ps
       if ps = .failed ∨ ps = .cut 0 then d1 else d1.startSweep m.slot d) := by
  unfold Dev.vaultDestroy
  rw [h]

/-- DERIVE commits a child of the derivation base that the message names. -/
theorem Dev.vaultDerive_accepted {d : Dev} {m : VMsg} (ps : Pulses) (h : d.acceptedOp 4 = some m) :
    d.vaultDerive ps =
      (let src := bitsOf (u m.payload 0 2) 11 0
       let key := hkdf (d.slotKey src) d.bindVal (slice m.payload 16 16) (keyLen (usageOf m.attr))
       d.vaultCommit m (d.slotFor m.slot m.attr src key) ps) := by
  unfold Dev.vaultDerive
  rw [h]

/-! ### Erasing and exporting (R262, R274) -/

/-- ZEROISE of the house seat with its key, while enrolment is permitted, erases the vault. -/
theorem Dev.vaultZeroise_permitted {d : Dev} (hp : d.on Reg.VAULT_STAT.ENROL_PERMIT = true) :
    d.vaultZeroise 0 0xA55A =
      (((({ d with vault := { d.vault with
          root := {}, enrol := {}, slots := [], mark := none, failed := [], accepted := none
          sweep := [], sweepRoots := [], bcast := [] } } : Dev).wr Reg.VAULT_STAT.STATE 0).wrBytes
        Reg.VAULT_BIND.BIND [] 4).vaultStat).vbusy :=
  if_neg (by simp [hp])

/-- EXPORT of a usable slot that may be exported under a transport parent writes its wrapped key to host memory. -/
theorem Dev.vaultExport_permitted {d : Dev} (hr : d.rootKey.isSome = true)
    (hu : d.usable (d.rd Reg.VAULT_SLOT_SEL.SLOT) = true)
    (hx : attrEXPW (d.vslot (d.rd Reg.VAULT_SLOT_SEL.SLOT)).attr = true)
    (hp : usageOf (d.vslot (d.vslot (d.rd Reg.VAULT_SLOT_SEL.SLOT)).link).attr = 1 ∨
      usageOf (d.vslot (d.vslot (d.rd Reg.VAULT_SLOT_SEL.SLOT)).link).attr = 5) :
    d.vaultExport 0 =
      (let slot := d.rd Reg.VAULT_SLOT_SEL.SLOT
       let addr := d.rd Reg.VAULT_MSG_ADDR_LO.VALUE + 2 ^ 32 * d.rd Reg.VAULT_MSG_ADDR_HI.VALUE
       (d.emit (.dmaWrite addr (keyWrap (d.txKey (d.vslot slot).link "HZ-XPORT") (d.slotKey slot)))).vresult 0 0 0xF slot) := by
  have hroot : ¬ d.rootKey.isNone = true := by simpa [Option.isSome_iff_ne_none] using hr
  have hgo : ¬ (!d.usable (d.rd Reg.VAULT_SLOT_SEL.SLOT) || !attrEXPW (d.vslot (d.rd Reg.VAULT_SLOT_SEL.SLOT)).attr ||
      (usageOf (d.vslot (d.vslot (d.rd Reg.VAULT_SLOT_SEL.SLOT)).link).attr != 1 &&
        usageOf (d.vslot (d.vslot (d.rd Reg.VAULT_SLOT_SEL.SLOT)).link).attr != 5)) = true := by
    rcases hp with hp | hp <;> simp [hu, hx, hp]
  simp only [Dev.vaultExport, bne_self_eq_false, Bool.false_eq_true, if_false, if_neg hroot, if_neg hgo]

/-- Settles O23: each command acts by its gate, and the branch that its conditions choose gives what it leaves. -/
theorem vaultComplete : Obligations.VaultComplete := by
  refine ⟨?enrol, ?zeroise, ?submit, ?check, ?put, ?replace, ?destroy, ?derive, ?meterKey, ?sweepDone, ?chal, ?exported⟩
  case enrol =>
    rintro d _ _ root hw hup _ rfl _ _ rfl
    exact runs_whenUp (g := fun d => d.vaultEnrol 0 .made) (fun _ => rfl) hw hup
  case zeroise =>
    rintro d _ _ hw hup rfl rfl hp
    exact runs_whenUp_to (fun _ => rfl) hw hup (Dev.vaultZeroise_permitted hp)
  case submit => exact fun d n hw hup h => runs_whenUp_to (fun _ => rfl) hw hup (Dev.vaultSubmit_free h)
  case check => exact fun d m n hup hq ha => runs_whenUp_to (fun _ => rfl) rfl hup (Dev.vaultMsgCheck_front m hq ha)
  case put => exact fun d ps m hup h => runs_whenUp_to (fun _ => rfl) rfl hup (Dev.vaultPut_accepted ps h)
  case replace => exact fun d ps m hup h => runs_whenUp_to (fun _ => rfl) rfl hup (Dev.vaultReplace_accepted ps h)
  case destroy => exact fun d ps m hup h => runs_whenUp_to (fun _ => rfl) rfl hup (Dev.vaultDestroy_accepted ps h)
  case derive => exact fun d ps m hup h => runs_whenUp_to (fun _ => rfl) rfl hup (Dev.vaultDerive_accepted ps h)
  case meterKey => exact fun d ps m hup _ => runs_whenUp (g := fun d => d.meterKey ps) (fun _ => rfl) rfl hup
  case sweepDone => exact fun d hup _ => runs_whenUp (g := Dev.orphanSweepDone) (fun _ => rfl) rfl hup
  case chal => exact fun d n hw hup _ => runs_whenUp (g := fun d => d.vaultChal n) (fun _ => rfl) hw hup
  case exported =>
    rintro d _ hw hup rfl hr hu hx hp
    exact runs_whenUp_to (fun _ => rfl) hw hup (Dev.vaultExport_permitted hr hu hx hp)

end Sys2Proof.Machine
end

section
/-!
PROOFS. The family of the cascade: links, discovery and election, and what the dealer sends and answers.
-/

namespace Sys2Proof.Machine

/-! ### Links (R327, R328) -/

/-- The first HELLO of the right device on a deal link in use brings the link up and is answered. -/
theorem Dev.linkHello_deal {d : Dev} {k : Nat} {h : Hello} (hk : k < 4) (hin : d.inCascade = true) (hp : h.pos = d.farOf k)
    (hs : h.side = d.side) (hidle : d.linkIdle k = false) (hidx : h.idx < 4) (hfar : d.farFrom h.pos h.idx = d.pos)
    (hdown : d.linkUp k = false) :
    d.linkHello (.deal k) h = (d.wr Reg.CAS_STAT.LINKS (d.rd Reg.CAS_STAT.LINKS ||| 2 ^ k)).sendOn k tyHELLO h.pos false
      (leBytes 1 k) := by
  have hgo : ¬ (!d.inCascade || decide (4 ≤ k)) = true := by simp [hin, hk]
  have hright : ¬ (h.pos ≠ d.farOf k ∨ h.side ≠ d.side) := by simp [hp, hs]
  have huse : ¬ (d.linkIdle k = true ∨ 4 ≤ h.idx ∨ d.farFrom h.pos h.idx ≠ d.pos) := by
    simp [hidle, hfar, Nat.not_le.2 hidx]
  simp only [Dev.linkHello, Dev.dealHello, if_neg hgo, if_neg hright, if_neg huse, hdown, Bool.false_eq_true, if_false]

/-- A HELLO of another device than the plan's takes a deal link down as miswired. -/
theorem Dev.linkHello_miswired {d : Dev} {k : Nat} {h : Hello} (hk : k < 4) (hin : d.inCascade = true)
    (hw : h.pos ≠ d.farOf k ∨ h.side ≠ d.side) :
    d.linkHello (.deal k) h =
      (d.wr Reg.CAS_STAT.LINKS (d.rd Reg.CAS_STAT.LINKS &&& (15 - 2 ^ k))).raise Stk.CAS.MISWIRE := by
  have hgo : ¬ (!d.inCascade || decide (4 ≤ k)) = true := by simp [hin, hk]
  simp only [Dev.linkHello, Dev.dealHello, if_neg hgo, if_pos hw]

/-- The test of a time that stands in an option passes where there is none, or it holds of the one there is. -/
theorem elim_true_of {α : Type} {o : Option α} {p : α → Bool} (h : o = none ∨ ∃ x, o = some x ∧ p x = true) :
    o.elim true p = true := by
  rcases h with rfl | ⟨x, rfl, hx⟩
  · rfl
  · exact hx

/-- The delay of a link that is up is measured first, and then every 100 ticks. -/
theorem Dev.linkDelay_due {d : Dev} {l : LinkId} (ns : Nat) (hup : d.idUp l = true)
    (hd : SMap.find d.cas.delays (linkNum l) = none ∨
      ∃ x, SMap.find d.cas.delays (linkNum l) = some x ∧ x.2 + 100 ≤ d.time.tick) :
    d.linkDelay l ns = { d with cas := { d.cas with delays := SMap.put d.cas.delays (linkNum l) (ns, d.time.tick) } } := by
  have hdue : (SMap.find d.cas.delays (linkNum l)).elim true (fun x => decide (x.2 + 100 ≤ d.time.tick)) = true :=
    elim_true_of (by simpa using hd)
  exact if_pos (by rw [hup, hdue]; rfl)

/-! ### Discovery and election (R332, R333) -/

/-- A DISCOVER of the same plan joins those heard, in place of an earlier one of its device. -/
theorem Dev.discover_plan {d : Dev} {x : Discover} (hin : d.inCascade = true) (hp : x.plan = d.plan8) :
    d.discover x = { d with cas := { d.cas with
      heard := (d.cas.heard.filter fun y => !(y.pos == x.pos && y.side == x.side)) ++ [x] } } :=
  if_neg (by simp [hin, hp])

/-- An ELECT of the same plan names its candidate. -/
theorem Dev.elect_plan {d : Dev} {pos side : Nat} (hin : d.inCascade = true) :
    d.elect pos side d.plan8 = { d with cas := { d.cas with named := some (pos, side) } } :=
  if_neg (by simp [hin])

/-- A DEALER of the same plan is joined while the device listens or discovers, where it is joined under no later epoch, as a
dealer of a higher position, and in an election, but for its own candidacy against a dealer that is no lower. -/
theorem Dev.dealerFrame_joins {d : Dev} {m : DealerMsg} (hin : d.inCascade = true) (hp : m.plan = d.plan8)
    (he : (∃ t, d.cas.elec = .listen t) ∨ (∃ t x, d.cas.elec = .discover t x) ∨
      (d.cas.elec = .joined ∧ d.rd Reg.CAS_DEALER_EPOCH.EPOCH ≤ m.epoch) ∨ (∃ t, d.cas.elec = .dealer t ∧ m.pos < d.pos) ∨
      (∃ t p x, d.cas.elec = .elect t p x ∧ ¬ (p = d.pos ∧ x = d.side ∧ d.pos ≤ m.pos))) :
    d.dealerFrame m = d.join m.pos m.epoch := by
  have hgo : ¬ (!d.inCascade || m.plan != d.plan8) = true := by simp [hin, hp]
  unfold Dev.dealerFrame
  rw [if_neg hgo]
  rcases he with ⟨t, he⟩ | ⟨t, x, he⟩ | ⟨he, hle⟩ | ⟨t, he, hlt⟩ | ⟨t, p, x, he, hnot⟩ <;> simp only [he]
  · exact if_pos hle
  · exact if_pos hlt
  · exact if_neg hnot

/-- A device of the cascade handles a management frame by the way it came. -/
theorem Dev.mgmt_inCascade {d : Dev} (a : Arrays) (rail : Bool) (c : Nat) (b : Bytes) (hin : d.inCascade = true) :
    d.mgmt a rail c b = if rail then d.mgmtRail a c b else d.mgmtDeal a c b :=
  if_neg (by simp [hin])

/-- A second without a DEALER ends listening. -/
theorem Dev.listenExpire_due {d : Dev} {c since : Nat} (he : d.cas.elec = .listen since)
    (ht : since + secNs ≤ (d.advance c).time.cnt) :
    d.listenExpire c = (d.advance c).setElec (.discover (d.advance c).time.cnt none) := by
  simp only [Dev.listenExpire, he, if_pos ht]

/-- In discovery a DISCOVER goes out at once, and then 200 ms after the last. -/
theorem Dev.discoverSend_due {d : Dev} {c since : Nat} {last : Option Nat} (he : d.cas.elec = .discover since last)
    (hl : last = none ∨ ∃ x, last = some x ∧ x + 200000000 ≤ (d.advance c).time.cnt) :
    d.discoverSend c = ((d.advance c).setElec (.discover since (some (d.advance c).time.cnt))).elecSend 0
      (discoverBytes (d.advance c).ownDiscover) := by
  have hdue : last.elim true (fun x => decide (x + 200000000 ≤ (d.advance c).time.cnt)) = true :=
    elim_true_of (by simpa using hl)
  simp only [Dev.discoverSend, he, if_pos hdue]

/-- After a second of discovery the candidate found is named in an ELECT. -/
theorem Dev.discoverEnd_candidate {d : Dev} {c since p s : Nat} {last : Option Nat} (he : d.cas.elec = .discover since last)
    (ht : since + secNs ≤ (d.advance c).time.cnt)
    (hc : candOf ((d.advance c).ownDiscover :: (d.advance c).cas.heard) = some (p, s)) :
    d.discoverEnd c = ((d.advance c).setElec (.elect (d.advance c).time.cnt p s)).elecSend 1
      (leBytes 1 p ++ leBytes 1 s ++ (d.advance c).plan8) := by
  simp only [Dev.discoverEnd, he, if_neg (Nat.not_lt.2 ht), hc]

/-- After a second of discovery without a candidate discovery starts again. -/
theorem Dev.discoverEnd_again {d : Dev} {c since : Nat} {last : Option Nat} (he : d.cas.elec = .discover since last)
    (ht : since + secNs ≤ (d.advance c).time.cnt)
    (hc : candOf ((d.advance c).ownDiscover :: (d.advance c).cas.heard) = none) :
    d.discoverEnd c = (d.advance c).setElec (.discover (d.advance c).time.cnt none) := by
  simp only [Dev.discoverEnd, he, if_neg (Nat.not_lt.2 ht), hc]

/-- A candidate that has waited 200 ms becomes dealer. -/
theorem Dev.electWaitExpire_own {d : Dev} {c since p s : Nat} (he : d.cas.elec = .elect since p s)
    (hp : p = (d.advance c).pos) (hs : s = (d.advance c).side) (ht : since + 200000000 ≤ (d.advance c).time.cnt) :
    d.electWaitExpire c = (d.advance c).becomeDealer
      (if (d.advance c).cas.synced then (d.advance c).rd Reg.CAS_DEALER_EPOCH.EPOCH + 1 else 1) := by
  simp only [Dev.electWaitExpire, he]
  exact if_pos ⟨hp, hs, ht⟩

/-- The dealer announces itself at once, and then a second after the last. -/
theorem Dev.dealerAnnounce_due {d : Dev} {c : Nat} {last : Option Nat} (he : d.cas.elec = .dealer last)
    (hd : (d.advance c).isDealer = true) (hl : last = none ∨ ∃ x, last = some x ∧ x + secNs ≤ (d.advance c).time.cnt) :
    d.dealerAnnounce c =
      (let d1 := d.advance c
       (d1.setElec (.dealer (some d1.time.cnt))).elecSend 2 (leBytes 1 d1.pos ++ leBytes 1 d1.side ++
        leBytes 4 (d1.rd Reg.CAS_DEALER_EPOCH.EPOCH) ++ leBytes 8 d1.time.tick ++ d1.plan8)) := by
  have hdue : last.elim true (fun x => decide (x + secNs ≤ (d.advance c).time.cnt)) = true :=
    elim_true_of (by simpa using hl)
  simp only [Dev.dealerAnnounce, he, hd, hdue, Bool.and_self, if_true]

/-- Settles O24: each command acts by its gate, and the branch that its conditions choose gives what it leaves. -/
theorem linksAndElectionComplete : Obligations.LinksAndElectionComplete := by
  refine ⟨?hello, ?miswired, ?lane, ?delay, ?forward, ?discover, ?elect, ?dealer, ?mgmt, ?listen, ?send, ?candidate, ?again,
    ?wait, ?announce⟩
  case hello =>
    rintro d _ h k hw hup rfl hk hin hp hs hidle hidx hfar hdown
    exact runs_whenUp_to (fun _ => rfl) hw hup (Dev.linkHello_deal hk hin hp hs hidle hidx hfar hdown)
  case miswired =>
    rintro d _ h k hw hup rfl hk hin hwire
    exact runs_whenUp_to (fun _ => rfl) hw hup (Dev.linkHello_miswired hk hin hwire)
  case lane =>
    rintro d _ h i hw hup rfl
    exact runs_whenUp (g := fun d => d.linkHello (.lane i) h) (fun _ => rfl) hw hup
  case delay => exact fun d l ns hw hup hl hd => runs_whenUp_to (fun _ => rfl) hw hup (Dev.linkDelay_due ns hl hd)
  case forward => exact fun d k b hw hup _ _ => runs_whenUp (g := fun d => d.dealForward k b) (fun _ => rfl) hw hup
  case discover => exact fun d x hw hup hin hp => runs_whenUp_to (fun _ => rfl) hw hup (Dev.discover_plan hin hp)
  case elect =>
    rintro d pos side _ hw hup hin rfl
    exact runs_whenUp_to (fun _ => rfl) hw hup (Dev.elect_plan hin)
  case dealer => exact fun d m hw hup hin hp he => runs_whenUp_to (fun _ => rfl) hw hup (Dev.dealerFrame_joins hin hp he)
  case mgmt =>
    intro q a d rail c b hup hin
    exact exec_actRead_to (g := fun a d => d.mgmt a rail c b) (fun _ => rfl) rfl hup (Dev.mgmt_inCascade a rail c b hin)
  case listen => exact fun d c since hup he ht => runs_whenUp_to (fun _ => rfl) rfl hup (Dev.listenExpire_due he ht)
  case send => exact fun d c since last hup he hl => runs_whenUp_to (fun _ => rfl) rfl hup (Dev.discoverSend_due he hl)
  case candidate =>
    exact fun d c since last p s hup he ht hc => runs_whenUp_to (fun _ => rfl) rfl hup (Dev.discoverEnd_candidate he ht hc)
  case again =>
    exact fun d c since last hup he ht hc => runs_whenUp_to (fun _ => rfl) rfl hup (Dev.discoverEnd_again he ht hc)
  case wait =>
    intro d c since p s hup he hp hs ht
    exact runs_whenUp_to (fun _ => rfl) rfl hup (Dev.electWaitExpire_own he hp hs ht)
  case announce =>
    exact fun d c last hup he hd hl => runs_whenUp_to (fun _ => rfl) rfl hup (Dev.dealerAnnounce_due he hd hl)

/-! ### What the dealer sends and answers (R334, R335, R336, R337, R339) -/

/-- A SYNC of an epoch that is not behind is forwarded and, off the dealer, accepted. -/
theorem Dev.sync_accepted {d : Dev} {k resid c : Nat} {b : Bytes} (at0 : Int) (hk : k < 4) (hin : d.inCascade = true)
    (hl : d.linkUp k = true) (hf : frameOk b = true)
    (he : ((d.advance c).syncForward k b resid).rd Reg.CAS_DEALER_EPOCH.EPOCH ≤ (syncOf (slice b 32 38)).epoch)
    (hd : ((d.advance c).syncForward k b resid).isDealer = false) :
    d.sync k b at0 resid c = ((d.advance c).syncForward k b resid).syncAccept (u b 4 1) (u b 20 4) (syncOf (slice b 32 38))
      at0 c := by
  have hgo : ¬ (!d.inCascade || decide (4 ≤ k) || !d.linkUp k) = true := by simp [hin, hk, hl]
  have hok : ¬ (!frameOk b) = true := by simp [hf]
  unfold Dev.sync
  rw [if_neg hgo, if_neg hok]
  exact if_neg (by simp [hd, Nat.not_lt.2 he])

/-- Ten ticks without a SYNC set SYNC_LOST. -/
theorem Dev.syncLoss_late {d : Dev} (hs : d.cas.synced = true) (hd : d.isDealer = false) (hl : d.cas.syncLost = false)
    (ht : d.cas.lastSync + 10 ≤ d.time.tick) :
    d.syncLoss = ({ d with cas := { d.cas with syncLost := true } } : Dev).raise Stk.CAS.SYNC_LOST :=
  if_pos (by simp [hs, hd, hl, ht])

/-- A hundred ticks without a SYNC take a joined device back to discovery. -/
theorem Dev.syncReelect_late {d : Dev} (c : Nat) (hs : d.cas.synced = true) (hd : d.isDealer = false)
    (he : d.cas.elec = .joined) (ht : d.cas.lastSync + 100 ≤ d.time.tick) :
    d.syncReelect c =
      (let d1 := (d.advance c).dropCollects.wr Reg.CAS_STAT.DEALER_POS 0x3F
       ({ d1 with cas := { d1.cas with heard := [], named := none } } : Dev).setElec (.discover d1.time.cnt none)) := by
  unfold Dev.syncReelect
  rw [he]
  exact if_pos (by simp [hs, hd, ht])

/-- A run of ten residuals raises ALIGN and starts again. -/
theorem Dev.alignFault_run {d : Dev} (h : 10 ≤ d.cas.alignRun) :
    d.alignFault = ({ d with cas := { d.cas with alignRun := 0 } } : Dev).raise Stk.CAS.ALIGN := if_neg (Nat.not_lt.2 h)

/-- The answer to the query under way is shown. -/
theorem Dev.dirAnswer_queried {d : Dev} {title : Nat} (r : Option (Nat × Nat)) (h : d.cas.query = some title) :
    d.dirAnswer title r = ({ d with cas := { d.cas with query := none } } : Dev).dirResult r := if_pos h

/-- In step 5 the dealer's answer lets the device proceed, or reports its code. -/
theorem Dev.checkAnswer_waiting {d : Dev} (code : Nat) (h : d.step = 5) :
    d.checkAnswer code = if code = 0 then d.setStep 6 else d.cvCode code := if_neg (not_not.2 h)

/-- Settles O25: each command acts by its gate, and the branch that its conditions choose gives what it leaves. -/
theorem dealerTrafficComplete : Obligations.DealerTrafficComplete := by
  refine ⟨?sync, ?loss, ?reelect, ?align, ?renumber, ?dir, ?query, ?answer, ?check, ?checkAnswer⟩
  case sync =>
    intro d k b at0 resid c hw hup hk hin hl hf he hd
    exact runs_whenUp_to (fun _ => rfl) hw hup (Dev.sync_accepted at0 hk hin hl hf he hd)
  case loss => exact fun d hup hs hd hl ht => runs_whenUp_to (fun _ => rfl) rfl hup (Dev.syncLoss_late hs hd hl ht)
  case reelect =>
    exact fun d c hup hs hd he ht => runs_whenUp_to (fun _ => rfl) rfl hup (Dev.syncReelect_late c hs hd he ht)
  case align => exact fun d hup h => runs_whenUp_to (fun _ => rfl) rfl hup (Dev.alignFault_run h)
  case renumber => exact fun d c _ _ hup _ _ _ => runs_whenUp (g := fun d => d.casRenumber c) (fun _ => rfl) rfl hup
  case dir => exact fun d m hup => runs_whenUp (g := fun d => d.dirFrame m) (fun _ => rfl) rfl hup
  case query => exact fun d hup => runs_whenUp (g := Dev.dirQuery) (fun _ => rfl) rfl hup
  case answer =>
    exact fun d title r hw hup h => runs_whenUp_to (fun _ => rfl) hw hup (Dev.dirAnswer_queried r h)
  case check => exact fun d m hw hup _ => runs_whenUp (g := fun d => d.check m) (fun _ => rfl) hw hup
  case checkAnswer => exact fun d code hw hup h => runs_whenUp_to (fun _ => rfl) hw hup (Dev.checkAnswer_waiting code h)

end Sys2Proof.Machine
end

section
/-!
PROOFS. The family of the balance engine.
-/

namespace Sys2Proof.Machine

/-! ### Evaluations (R232, R244) -/

/-- The dealer evaluates what waits past XWAIT with what has arrived. -/
theorem Dev.spanTimeout_dealer {d : Dev} (h : d.isDealer = true) :
    d.spanTimeout = (d.bal.collects.filter fun k => !k.done && decide (k.since + d.cfg.xWait ≤ d.time.tick)).foldl
      Dev.evalSpan d :=
  if_neg (by simp [h])

/-- A sealed RESULT of a node that this position spans is written into the node's history, its energies as free values. -/
theorem Dev.result_spanned {d : Dev} {bs : Bytes} {i : Nat} (hi : d.cfg.spanNode (u bs 0 4) = some i)
    (hs : sealOf (slice bs 0 12) = u bs 12 4) :
    d.result bs = d.took.writeEval i (u bs 4 4) {
      eIn := sgn 48 (d.fresh useEIn (2 ^ 48)), eOut := sgn 48 (d.fresh useEOut (2 ^ 48))
      lTech := (d.fresh useLTech (2 ^ 32) : Nat), lDrop := 0, rbp := sgn 16 (u bs 8 2), sNode := u bs 10 1
      flags := u bs 11 1 % 8 + 16 + 32 * b2n (bitOf (u bs 11 1) 5)
      scored := u bs 11 1 % 8 == 0 && !bitOf (u bs 11 1) 5 } := by
  simp only [Dev.result, hi]
  exact if_neg (not_not.2 hs)

/-- The oldest due boundary of a seat is evaluated where the tick's budget allows it. -/
theorem Dev.nodeEvaluate_due {d d1 : Dev} {n cost : Nat} {b : Bound} {bs : List Bound} (ht : d.cfg.hasTopo = true)
    (h1 : d1 = d.abandonEvals n (d.evalPending n)) (hb : d1.evalPending n = b :: bs) (hd : d1.evalDue b = true)
    (hc : d1.bal.used + cost ≤ d1.budget) :
    d.nodeEvaluate n cost = (({ d1 with bal := { d1.bal with used := d1.bal.used + cost } } : Dev).evalBound b false) := by
  have htopo : ¬ (!d.cfg.hasTopo) = true := by simp [ht]
  simp only [Dev.nodeEvaluate, if_neg htopo, ← h1, hb, hd, if_true, if_pos hc, Nat.min_eq_right hc]

/-- An order on a slot of the seat's own is admitted. -/
theorem Dev.balOrder_own {d : Dev} {n : Nat} (w : Work)
    (h : d.cfg.seatOfSlot (d.rd Reg.BAL_SLOT_SEL.INDEX 0 n) = some n) :
    d.balOrder n w = d.admitOrder (d.rd Reg.BAL_SLOT_SEL.INDEX 0 n) n w := if_pos h

/-- An engine that may dispatch applies the tracker order that is next. -/
theorem Dev.trackerApply_next {d d1 : Dev} {e cost : Nat} {q : QItem} (hm : d.mayDispatch e 2000 = true)
    (hc : d.catchSlots e = []) (hcost : cost ≤ 2000) (hq : d.nextItem e = some (q, d1))
    (hw : q.work = .rebase ∨ q.work = .resetTrack) :
    d.trackerApply e cost = ((d1.onEng e fun s => { s with used := s.used + cost }).applyItem q [] none).carryWatch e :=
  Dev.takeItem_next _ hm hc hcost hq (by rcases hw with hw | hw <;> rw [hw] <;> rfl)

/-- Settles O26: each command acts by its gate, and the branch that its conditions choose gives what it leaves. -/
theorem balanceComplete : Obligations.BalanceComplete := by
  refine ⟨?spanPart, ?timeout, ?result, ?evaluate, ?rebase, ?reset, ?order⟩
  case spanPart => exact fun d bs hup _ => runs_whenUp (g := fun d => d.partialIn bs) (fun _ => rfl) rfl hup
  case timeout => exact fun d hup h => runs_whenUp_to (fun _ => rfl) rfl hup (Dev.spanTimeout_dealer h)
  case result => exact fun d bs i hup hi hs => runs_whenUp_to (fun _ => rfl) rfl hup (Dev.result_spanned hi hs)
  case evaluate =>
    intro d x b bs d1 hw hup ht h1 hb hd hc
    exact runs_whenUp_to (fun _ => rfl) hw hup (Dev.nodeEvaluate_due ht h1 hb hd hc)
  case rebase => exact fun d n hw hup h => runs_whenUp_to (fun _ => rfl) hw hup (Dev.balOrder_own .rebase h)
  case reset => exact fun d n hw hup h => runs_whenUp_to (fun _ => rfl) hw hup (Dev.balOrder_own .resetTrack h)
  case order =>
    intro d e cost q d1 hw hup hs hm hc hcost hq hwork
    exact runs_whenOpen (fun _ => rfl) hw hup hs (Dev.trackerApply_next hm hc hcost hq hwork)

end Sys2Proof.Machine
end

section
/-!
PROOFS. The family of the partner pair: health and pairing, takeover, packages and the bulk copy, role swaps and command resets.
-/

namespace Sys2Proof.Machine

/-! ### Health and pairing (R342, R352) -/

/-- Every 100 ticks an open active side that is not the dealer sends it a HEALTH. -/
theorem Dev.healthSend_due {d : Dev} (ha : d.isActive = true) (hs : d.step = 0) (hin : d.inCascade = true)
    (ht : d.cas.healthAt + 100 ≤ d.time.tick)
    (hd : ({ d with cas := { d.cas with healthAt := d.time.tick } } : Dev).isDealer = false) :
    d.healthSend =
      (let d1 : Dev := { d with cas := { d.cas with healthAt := d.time.tick } }
       d1.toDealer tyHEALTH false d1.healthBody) := by
  have hgo : ¬ (!d.isActive || d.step != 0 || !d.inCascade || decide (d.time.tick < d.cas.healthAt + 100)) = true := by
    simp [ha, hs, hin, ht]
  simp only [Dev.healthSend, if_neg hgo, hd, Bool.false_eq_true, if_false]

/-- A position not heard from for 300 ticks reads LOST at the dealer. -/
theorem Dev.positionLost_late {d : Dev} {p t : Nat} (hp : SMap.find d.cas.posAt p = some t) (hd : d.isDealer = true)
    (ht : t + 300 ≤ d.time.tick) (h40 : p < 40) : d.positionLost p = d.wr Reg.CAS_POS_STAT.STATE 2 p := by
  simp only [Dev.positionLost, hp]
  exact if_pos (by simp [hd, ht, h40])

/-- In step 4 the side with the later journal is active, and between equal ones the strap decides, or side A. -/
theorem Dev.pairing_step4 {d : Dev} (jtick : Nat) (pref : Bool) (hu : d.partnerUp = true) (hs : d.step = 4) :
    d.pairing jtick pref = (d.wr Reg.CAS_STAT.ROLE (b2n (decide (jtick < d.journalHigh) || (jtick == d.journalHigh &&
      (if d.on Reg.GLB_STRAP.PREF == pref then d.side == 0 else d.on Reg.GLB_STRAP.PREF))))).enterCheck := by
  simp only [Dev.pairing, hu, hs, Bool.not_true, Bool.false_eq_true, if_false, if_true]

/-- An open device whose partner is out of step clears RESYNCED and starts the copy. -/
theorem Dev.pairing_behind {d : Dev} {jtick : Nat} (pref : Bool) (hu : d.partnerUp = true) (hs : d.step = 0)
    (hj : jtick ≠ d.journalHigh) : d.pairing jtick pref = (d.wr Reg.CAS_STAT.RESYNCED 0).resyncStart := by
  have h4 : ¬ d.step = 4 := by omega
  simp only [Dev.pairing, hu, Bool.not_true, Bool.false_eq_true, if_false, if_neg h4, if_pos (And.intro hs hj)]

/-- A standby that has missed its partner's heartbeats takes over. -/
theorem Dev.takeover_missed {d : Dev} {h : Beat} (hb : d.cas.beat = some h) (hr : d.rd Reg.CAS_STAT.ROLE = 0)
    (hs : d.step = 0) (hp : d.cfg.hasPartner = true) (ht : h.tick + 3 ≤ d.time.tick) :
    d.takeover =
      (let d1 := (List.range 64).foldl Dev.discardFences ((d.becomeActive.wr Reg.CAS_STAT.RESYNCED 0).raise Stk.CAS.TAKEOVER)
       d1.takeUseqs.admitShadows.regenerate.canvasTakeover.tellTakeover) := by
  have hgo : ¬ (d.rd Reg.CAS_STAT.ROLE ≠ 0 ∨ d.step ≠ 0 ∨ d.cfg.hasPartner = false ∨ d.time.tick < h.tick + 3) := by
    simp [hr, hs, hp, ht]
  simp only [Dev.takeover, hb, if_neg hgo]

/-- Settles O27: each command acts by its gate, and the branch that its conditions choose gives what it leaves. -/
theorem positionHealthComplete : Obligations.PositionHealthComplete := by
  refine ⟨?health, ?send, ?sendDealer, ?lost, ?pairing, ?behind, ?heartbeat, ?takeover, ?notice, ?relinquish⟩
  case health => exact fun d m hw hup _ => runs_whenUp (g := fun d => d.health m) (fun _ => rfl) hw hup
  case send =>
    exact fun d hup ha hs hin ht hd => runs_whenUp_to (fun _ => rfl) rfl hup (Dev.healthSend_due ha hs hin ht hd)
  case sendDealer => exact fun d hup _ _ _ _ _ => runs_whenUp (g := Dev.healthSend) (fun _ => rfl) rfl hup
  case lost =>
    exact fun d p t hw hup hp hd ht h40 => runs_whenUp_to (fun _ => rfl) hw hup (Dev.positionLost_late hp hd ht h40)
  case pairing =>
    exact fun d jtick pref hup hu hs => runs_whenUp_to (fun _ => rfl) rfl hup (Dev.pairing_step4 jtick pref hu hs)
  case behind =>
    exact fun d jtick pref hup hu hs hj => runs_whenUp_to (fun _ => rfl) rfl hup (Dev.pairing_behind pref hu hs hj)
  case heartbeat => exact fun d h hup _ => runs_whenUp (g := fun d => d.heartbeat h) (fun _ => rfl) rfl hup
  case takeover =>
    exact fun d h hup hb hr hs hp ht => runs_whenUp_to (fun _ => rfl) rfl hup (Dev.takeover_missed hb hr hs hp ht)
  case notice => exact fun d k b hw hup _ _ => runs_whenUp (g := fun d => d.takeoverNotice k b) (fun _ => rfl) hw hup
  case relinquish => exact fun d t hup _ _ _ => runs_whenUp (g := Dev.relinquish) (fun _ => rfl) rfl hup

/-! ### Packages and the copy of the standby (R344, R350) -/

/-- Off the active side, shadow records that no package has listed for 8 ticks are discarded and counted. -/
theorem Dev.shadowLeftover_standby {d : Dev} (ha : d.isActive = false) :
    d.shadowLeftover =
      (({ d with cas := { d.cas with shadow := d.cas.shadow.filter fun s => decide (d.time.tick < s.tick + 8) } } : Dev).bump
        Reg.CAS_LINK_CNT.LEFTOVER (d.cas.shadow.filter fun s => decide (s.tick + 8 ≤ d.time.tick)).length) :=
  if_neg (by simp [ha])

/-- A standby whose copy is under way takes a bulk item. -/
theorem Dev.bulk_copying {d : Dev} (item : BulkItem) (tick : Nat) (ha : d.isActive = false) (hu : d.partnerUp = true)
    (hr : d.cas.resyncAt.isSome = true) : d.bulk item tick = d.bulkTake item tick := by
  obtain ⟨t, ht⟩ := Option.isSome_iff_exists.1 hr
  exact if_neg (by simp [ha, hu, ht])

/-- On the active side the end of the copy sets RESYNCED. -/
theorem Dev.resyncDone_active {d : Dev} (hu : d.partnerUp = true) (ha : d.isActive = true) :
    d.resyncDone = { d.wr Reg.CAS_STAT.RESYNCED 1 with cas := { d.cas with resyncAt := none } } := by
  simp only [Dev.resyncDone, hu, ha, Bool.not_true, Bool.false_eq_true, if_false, if_true]

/-- On the other side the end of the copy sets RESYNCED and makes it the standby. -/
theorem Dev.resyncDone_standby {d : Dev} {t : Nat} (hu : d.partnerUp = true) (ha : d.isActive = false)
    (hr : d.cas.resyncAt = some t) :
    d.resyncDone = { (d.wr Reg.CAS_STAT.RESYNCED 1).wr Reg.CAS_STAT.ROLE 0 with cas := { d.cas with resyncAt := none } } := by
  simp only [Dev.resyncDone, hu, ha, hr, Bool.not_true, Bool.false_eq_true, if_false, Option.isNone_some]
  rfl

/-- A copy that is not complete after 300 ticks raises RESYNC_FAIL and starts again. -/
theorem Dev.resyncTimeout_late {d : Dev} {t : Nat} (hr : d.cas.resyncAt = some t) (ht : t + 300 ≤ d.time.tick) :
    d.resyncTimeout =
      (({ d with cas := { d.cas with resyncAt := some d.time.tick } } : Dev).raise Stk.CAS.RESYNC_FAIL).bulkSend := by
  simp only [Dev.resyncTimeout, hr, if_neg (Nat.not_lt.2 ht)]

/-! ### Role swaps and command resets (R351, R353) -/

/-- SWAP on a resynced active side sets the tick of the swap, at least 8 ticks ahead. -/
theorem Dev.casSwap_ahead {d : Dev} (ha : d.isActive = true) (hr : d.on Reg.CAS_STAT.RESYNCED = true)
    (ht : d.time.tick + 8 ≤ d.rd64 Reg.CAS_SWAP_TICK.TICK) :
    d.casSwap = { d with cas := { d.cas with swapAt := some (d.rd64 Reg.CAS_SWAP_TICK.TICK) } } :=
  if_pos (by simp [ha, hr, ht])

/-- At the tick of the swap the active side becomes the standby and yields the grant. -/
theorem Dev.roleSwap_active {d : Dev} (ha : d.isActive = true) (hs : d.cas.swapAt = some d.time.tick) :
    d.roleSwap =
      (let d1 := (d.wr Reg.CAS_STAT.ROLE 0).grantOff
       { d1 with cas := { d1.cas with swapAt := none, shadow := [], ghosts := [], pkgs := [] } }) := by
  simp only [Dev.roleSwap, if_pos ha, if_pos hs]

/-- The resynced standby of an open position becomes active and says so. -/
theorem Dev.roleSwap_standby {d : Dev} (ha : d.isActive = false) (hr : d.rd Reg.CAS_STAT.ROLE = 0)
    (hsync : d.on Reg.CAS_STAT.RESYNCED = true) (hu : d.partnerUp = true) (hs : d.step = 0) :
    d.roleSwap =
      (let d1 := d.becomeActive.takeUseqs.admitShadows
       ({ d1 with cas := { d1.cas with ghosts := [] } } : Dev).tellTakeover) := by
  simp only [Dev.roleSwap, ha, Bool.false_eq_true, if_false]
  exact if_pos ⟨hr, hsync, hu, hs⟩

/-- A standby takes its partner's command reset. -/
theorem Dev.casReset_partner {d : Dev} (c level : Nat) (ha : d.isActive = false) (hu : d.partnerUp = true) :
    d.casReset c (.partner level) = d.cmdReset c 8 level :=
  if_neg (by simp [ha, hu])

/-- Settles O28: each command acts by its gate, and the branch that its conditions choose gives what it leaves. -/
theorem resyncAndSwapComplete : Obligations.ResyncAndSwapComplete := by
  refine ⟨?package, ?leftover, ?bulk, ?doneActive, ?doneStandby, ?timeout, ?swap, ?swapActive, ?swapStandby, ?resetPartner,
    ?resetDealer⟩
  case package => exact fun d pk hup _ _ _ => runs_whenUp (g := fun d => d.package pk) (fun _ => rfl) rfl hup
  case leftover => exact fun d hup ha => runs_whenUp_to (fun _ => rfl) rfl hup (Dev.shadowLeftover_standby ha)
  case bulk =>
    exact fun d item tick hup ha hu hr => runs_whenUp_to (fun _ => rfl) rfl hup (Dev.bulk_copying item tick ha hu hr)
  case doneActive => exact fun d hup hu ha => runs_whenUp_to (fun _ => rfl) rfl hup (Dev.resyncDone_active hu ha)
  case doneStandby =>
    exact fun d t hup hu ha hr => runs_whenUp_to (fun _ => rfl) rfl hup (Dev.resyncDone_standby hu ha hr)
  case timeout => exact fun d t hup hr ht => runs_whenUp_to (fun _ => rfl) rfl hup (Dev.resyncTimeout_late hr ht)
  case swap => exact fun d hup ha hr ht => runs_whenUp_to (fun _ => rfl) rfl hup (Dev.casSwap_ahead ha hr ht)
  case swapActive => exact fun d hup ha hs => runs_whenUp_to (fun _ => rfl) rfl hup (Dev.roleSwap_active ha hs)
  case swapStandby =>
    intro d hup ha hr hsync hu hs
    exact runs_whenUp_to (fun _ => rfl) rfl hup (Dev.roleSwap_standby ha hr hsync hu hs)
  case resetPartner =>
    rintro d c _ level hup rfl ha hu
    exact runs_whenUp_to (fun _ => rfl) rfl hup (Dev.casReset_partner c level ha hu)
  case resetDealer =>
    rintro d c _ b hup rfl _
    exact runs_whenUp (g := fun d => d.casReset c (.dealer b)) (fun _ => rfl) rfl hup

end Sys2Proof.Machine
end

section
/-!
PROOFS. The family of own-firmware update.
-/

namespace Sys2Proof.Machine

/-! ### Staging and arming an image (R356, R357, R359) -/

/-- A fetched image is rejected with the code of the check that it fails, or written to the free store as STAGED. -/
theorem Dev.updStageDone_fetched {d : Dev} (b : Bytes) (hs : d.rd Reg.UPD_STAT.STATE = 1) :
    d.updStageDone (some b) =
      (if d.updCheck b ≠ 0 then (d.wr Reg.UPD_STAT.STATE 0).updReject (d.updCheck b) else
       let i : Image := {
        version := u b 12 4, restart := bitOf (u b 9 1) 0, lverFrom := u b 20 1, lverTo := u b 21 1, sfmt := u b 22 1, bytes := b }
       let d1 := d.nandWriteN (lpaImages + 2048 * d.upd.idle) sCOLD 0 (pagesOf b.length)
       (({ d1 with upd := d1.upd.setStore d1.upd.idle (some i) } : Dev).wr Reg.UPD_STAT.REJECT 0).updRegs 2) :=
  if_neg (not_not.2 hs)

/-- A failed fetch is rejected with code 9. -/
theorem Dev.updStageDone_failed {d : Dev} (hs : d.rd Reg.UPD_STAT.STATE = 1) :
    d.updStageDone none = (d.wr Reg.UPD_STAT.STATE 0).updReject 9 :=
  if_neg (not_not.2 hs)

/-- ARM of a waiting hitless image sets its tick inside the bounds of R357, while no canvas is armed. -/
theorem Dev.updArm_waiting {d : Dev} (hw : d.updWaits = true) (hr : (d.idleImage.map (·.restart)).getD false = false)
    (hlo : d.time.tick + 8 ≤ d.rd64 Reg.UPD_APPLY_TICK.TICK)
    (hhi : d.rd64 Reg.UPD_APPLY_TICK.TICK ≤ d.time.tick + 2 ^ 32) (hc : d.rd Reg.CANVAS_STAT.STATE ≠ 4) :
    d.updArm =
      ({ d with upd := { d.upd with armT := d.rd64 Reg.UPD_APPLY_TICK.TICK } } : Dev).wr Reg.UPD_STAT.STATE 3 := by
  refine if_neg ?_
  rintro (h | h | h | h | ⟨h, -⟩)
  · simp [hw] at h
  · simp [hr] at h
  · omega
  · omega
  · exact hc h

/-- RESTART of a waiting restart image raises the canvas reload source for its store. -/
theorem Dev.updRestart_waiting {d : Dev} (c : Nat) (hw : d.updWaits = true)
    (hr : (d.idleImage.map (·.restart)).getD false = true) :
    d.updRestart c = ({ d with upd := { d.upd with restartTo := some d.upd.idle } } : Dev).acceptMapped c 7 :=
  if_pos (by simp only [hw, hr, Bool.and_self])

/-- CANCEL frees the image that is staged, armed or waiting. -/
theorem Dev.updCancel_held {d : Dev}
    (h : d.rd Reg.UPD_STAT.STATE = 2 ∨ d.rd Reg.UPD_STAT.STATE = 3 ∨ d.updWaits = true) :
    d.updCancel = ({ d with upd := d.upd.setStore d.upd.idle none } : Dev).updRegs 0 := if_pos h

/-! ### Activation (R357, R358) -/

/-- At its tick an armed image runs, and its trial begins. -/
theorem Dev.updActivate_due {d : Dev} (hs : d.rd Reg.UPD_STAT.STATE = 3) (ht : d.upd.armT ≤ d.time.tick) :
    d.updActivate =
      (d.updSwap d.time.tick).trialBegin ((d.updSwap d.time.tick).runImage.sfmt != d.runImage.sfmt) :=
  if_neg (by simp [hs, ht])

/-- In its tick an engine that has not swapped yet loads the new microcode. -/
theorem Dev.engineSwap_due {d : Dev} {e : Nat} {s : Swap} (he : e < 16) (hs : d.upd.swap = some s)
    (ht : s.t + 1 + e ≤ d.time.tick) (hn : s.engines.contains e = false) :
    d.engineSwap e = { d with upd := { d.upd with swap := some { s with engines := s.engines ++ [e] } } } := by
  have hgo : ¬ (16 ≤ e ∨ d.time.tick < s.t + 1 + e ∨ s.engines.contains e = true) := by
    rw [hn]
    simp only [Bool.false_eq_true, or_false]
    omega
  simp only [Dev.engineSwap, hs, if_neg hgo]

/-- Once all engines have swapped, at T + 17, the swap is done. -/
theorem Dev.swapDone_all {d : Dev} {s : Swap} (hs : d.upd.swap = some s) (ht : s.t + 17 ≤ d.time.tick)
    (hn : 16 ≤ s.engines.length) :
    d.swapDone = ({ d with upd := { d.upd with swap := none } } : Dev).wr Reg.UPD_STAT.SWAP_DONE 1 := by
  have hgo : ¬ (d.time.tick < s.t + 17 ∨ s.engines.length < 16) := by omega
  simp only [Dev.swapDone, hs, if_neg hgo]

/-! ### The trial and its end (R361, R362) -/

/-- In the trial, clean ticks enough and health reported in it and within 100 ticks confirm the image. -/
theorem Dev.updConfirm_healthy {d : Dev} {t : Nat} (hs : d.rd Reg.UPD_STAT.STATE = 4)
    (hc : d.cfg.confWin ≤ d.rd Reg.UPD_CLEAN.TICKS) (hh : d.upd.healthy = some t) (h1 : d.upd.trialAt ≤ t)
    (h2 : d.time.tick ≤ t + 100) :
    d.updConfirm = (({ d with upd := d.upd.setStore d.upd.idle none } : Dev).updRegs 0).record 0x1E40 1 0xFF noIdx [] := by
  unfold Dev.updConfirm
  rw [hh]
  exact if_neg (by simp [hs, hc, h1, h2])

/-- In the trial, a hitless image falls back by a swap from the tick after. -/
theorem Dev.fallBack_hitless {d : Dev} (c cause : Nat) (hs : d.rd Reg.UPD_STAT.STATE = 4) (hr : d.runImage.restart = false) :
    d.fallBack c cause = (d.updSwap (d.time.tick + 1)).fellBack cause := by
  simp only [Dev.fallBack, hs, hr, ne_eq, not_true_eq_false, Bool.false_eq_true, if_false]

/-- In the trial, a restart image falls back by the canvas reload source. -/
theorem Dev.fallBack_restart {d : Dev} (c cause : Nat) (hs : d.rd Reg.UPD_STAT.STATE = 4) (hr : d.runImage.restart = true) :
    d.fallBack c cause =
      ({ d with upd := { d.upd with restartTo := some d.upd.idle, fallTo := some cause } } : Dev).acceptMapped c 7 := by
  simp only [Dev.fallBack, hs, hr, ne_eq, not_true_eq_false, if_false, if_true]

/-- At the deadline of the trial the device falls back with cause 2. -/
theorem Dev.trialDeadline_late {d : Dev} (c : Nat) (ht : d.upd.trialAt + 3 * d.cfg.confWin ≤ d.time.tick) :
    d.trialDeadline c = d.fallBack c 2 := if_neg (Nat.not_lt.2 ht)

/-- Settles O29: each command acts by its gate, and the branch that its conditions choose gives what it leaves. -/
theorem updateComplete : Obligations.UpdateComplete := by
  refine ⟨?stage, ?fetched, ?failed, ?arm, ?activate, ?engine, ?swapDone, ?restart, ?cancel, ?healthy, ?confirm, ?revert,
    ?revertRestart, ?deadline, ?deadlineRestart⟩
  case stage => exact fun d downgrade hup _ _ => runs_whenUp (g := fun d => d.updStage downgrade) (fun _ => rfl) rfl hup
  case fetched =>
    rintro d _ b hup hs rfl
    exact runs_whenUp_to (fun _ => rfl) rfl hup (Dev.updStageDone_fetched b hs)
  case failed =>
    rintro d _ hup hs rfl
    exact runs_whenUp_to (fun _ => rfl) rfl hup (Dev.updStageDone_failed hs)
  case arm =>
    exact fun d hup hw hr hlo hhi hc => runs_whenUp_to (fun _ => rfl) rfl hup (Dev.updArm_waiting hw hr hlo hhi hc)
  case activate => exact fun d hup hs ht => runs_whenUp_to (fun _ => rfl) rfl hup (Dev.updActivate_due hs ht)
  case engine =>
    intro d e s hw hup hs ht hn
    exact runs_whenUp_to (fun _ => rfl) hw hup (Dev.engineSwap_due (of_decide_eq_true hw) hs ht hn)
  case swapDone => exact fun d s hup hs ht hn => runs_whenUp_to (fun _ => rfl) rfl hup (Dev.swapDone_all hs ht hn)
  case restart => exact fun d c hup hw hr => runs_whenUp_to (fun _ => rfl) rfl hup (Dev.updRestart_waiting c hw hr)
  case cancel => exact fun d hup h => runs_whenUp_to (fun _ => rfl) rfl hup (Dev.updCancel_held h)
  case healthy => exact fun d hup => runs_whenUp (g := Dev.updHealthy) (fun _ => rfl) rfl hup
  case confirm =>
    intro d t hup hs hc hh h1 h2
    exact runs_whenUp_to (fun _ => rfl) rfl hup (Dev.updConfirm_healthy hs hc hh h1 h2)
  case revert => exact fun d c hup hs hr => runs_whenUp_to (fun _ => rfl) rfl hup (Dev.fallBack_hitless c 1 hs hr)
  case revertRestart => exact fun d c hup hs hr => runs_whenUp_to (fun _ => rfl) rfl hup (Dev.fallBack_restart c 1 hs hr)
  case deadline =>
    intro d c hup ht hs hr
    exact runs_whenUp_to (fun _ => rfl) rfl hup ((Dev.trialDeadline_late c ht).trans (Dev.fallBack_hitless c 2 hs hr))
  case deadlineRestart =>
    intro d c hup ht hs hr
    exact runs_whenUp_to (fun _ => rfl) rfl hup ((Dev.trialDeadline_late c ht).trans (Dev.fallBack_restart c 2 hs hr))

end Sys2Proof.Machine
end
